-- ==== Sys2Proof/Word.lean ====
section
/-!
DEFINITION. The plain data types the model counts in: bytes, register words, memory cells and
sparse tables. The operations on them are in Machine/Ops.lean.
-/

namespace Sys2Proof

/-- One byte of memory, of a ring entry or of a flash structure. -/
abbrev Byte := BitVec 8

/-- A 32-bit register word. -/
abbrev W32 := BitVec 32

/-- A 64-bit register word. -/
abbrev W64 := BitVec 64

/-- One byte of cache DRAM or of a record body, at its cache address. -/
abbrev Cell := Nat × BitVec 8

/-- A sparse table indexed by a number; an index not listed holds the table's default value. -/
abbrev Tab (α : Type) := List (Nat × α)

end Sys2Proof
end

