-- ==== Sys2Proof/Config.lean ====
section
/-!
DEFINITION. What the spec leaves open: constants with no body, so that nothing can be proved of
their values. Each is named in a row of the assumption log.
-/

namespace Sys2Proof.Config

/-- The value of fresh draw `n`: the grandmaster's random epoch identifier (R51), a slot prefix, a
value the spec leaves open. Log entry 4. -/
opaque freshWord : Nat → BitVec 64

/-- AES-256 of one 16-byte block under a 32-byte key (R173, R286), as numbers. Log entry 5. -/
opaque aesBlock : (key : Nat) → (block : Nat) → Nat

/-- RFC 3394 key wrap under the device key-encryption key (R173, R286). Log entry 5. -/
opaque wrapKey : (serial : Nat) → (key : Nat) → Nat

/-- RFC 3394 unwrap: the data key, or nothing where the integrity check fails. Log entry 5. -/
opaque unwrapKey : (serial : Nat) → (wrapped : Nat) → Option Nat

/-- AES-256-GCM of a record body: one stored byte of the ciphertext. Log entry 5. -/
opaque cipherByte : (key : Nat) → (iv : Nat) → (offset : Nat) → BitVec 8 → BitVec 8

/-- GCM tag over associated data and plaintext (R165), and of a book under the device's book key (R171).
Log entry 5. -/
opaque gcmTag : (key iv : Nat) → (aad text : List (BitVec 8)) → Nat
opaque bookTag : (serial iv : Nat) → (aad : List (BitVec 8)) → Nat

/-- CRC-32C of a block's index reserve (R148) by the entries that stand in it: the content of its free slots is
not given. Log entry 137. -/
opaque indexCrc : (entries : List (BitVec 8)) → BitVec 32

/-- The raw bytes of a flash segment whose content the spec does not give bit for bit. Log entry 6. -/
opaque rawFlashByte : (segment : Nat) → (offset : Nat) → BitVec 8

/-- Built-in default profile of a chemistry (R200, R201), where the spec gives no figures: open-circuit
cell voltage in 0.1 mV, by table row and entry. Log entry 7. -/
opaque profileOcv : (chemistry row entry : Nat) → Nat

/-- Default series resistance per cell in 10 µΩ. Log entry 7. -/
opaque profileZs : (chemistry row entry : Nat) → Nat

/-- Default polarisation resistance per cell in 10 µΩ. Log entry 7. -/
opaque profileZp : (chemistry row entry : Nat) → Nat

/-- Default polarisation time constant in ms. Log entry 7. -/
opaque profileTau : (chemistry : Nat) → Nat

/-- Whether a firmware image, as the chunks written of it, carries a CRC and a Belfoiq signature that
verify (R329, R330), and its version. Log entry 28. -/
opaque imageVerifies : (chunks : List (Nat × List (BitVec 8))) → (length : Nat) → Bool
opaque imageVersion : (chunks : List (Nat × List (BitVec 8))) → BitVec 32

/-- Whether a module has two ranks, by the identity of its serial presence data (R295). Log entry 8. -/
opaque moduleRanks : (identity : Nat) → Bool

/-- The highest rate a module runs at, in the code of DRC_FSP_CFG, by its identity (R295). Log entry 8. -/
opaque moduleTopRate : (identity : Nat) → BitVec 2

/-- Belfoiq's assigned vendor and manufacturer identifiers (R231, R351), which the spec does not
give. Log entry 8. -/
opaque vendorId : BitVec 16
opaque jtagManufacturer : BitVec 11

end Sys2Proof.Config
end

