-- ==== Sys2Proof/Syntax.lean ====
section
/-!
DEFINITION. The commands the block takes: one constructor of `Instr` for each row of
spec/opcode_table.json, with what the command brings from outside (a value written, a sample, a
frame, the data of a host read). What the block then does with a command is in Machine/.
-/

namespace Sys2Proof

/-- A submission entry as read from host memory (Tables 14.2 and 14.6). -/
structure SqEntry where
  opcode : Nat := 0
  flags : BitVec 8 := 0
  descId : Nat := 0
  deadline : Nat := 0
  tag : Nat := 0
  caddr : Nat := 0
  pages : Nat := 0
  haddr : Nat := 0
  hlen : Nat := 0
  p0 : W64 := 0
  p1 : Nat := 0
  deriving DecidableEq, Repr

/-- One scatter-list entry (R256). -/
structure SglEntry where
  addr : Nat
  len : Nat
  deriving DecidableEq, Repr

/-- What reading a scatter list brings back (R256). -/
inductive SglRead where
  | ok (list : List SglEntry)
  | timeout
  | error
  deriving DecidableEq, Repr

/-- What a host read brings back (R240). -/
inductive HostData where
  | ok (bytes : List Byte)
  | timeout
  | error
  deriving DecidableEq, Repr

/-- Status of a completion TLP (R240): successful, unsupported request, completer abort, or
successful with the EP bit set. -/
inductive CplStatus where
  | success | unsupported | abort | poisoned
  deriving DecidableEq, Repr

/-- Causes of an endpoint reset (R244). -/
inductive ResetCause where
  | perst | hotReset | linkDown
  deriving DecidableEq, Repr

/-- What disables or enables a cache function (R268). -/
inductive DisableCause where
  | busMaster | eptFnDisable | d3hot
  deriving DecidableEq, Repr

/-- Submission or completion side of a function's ring pair; for function 0 the MRG rings, whose
number says the side. -/
inductive RingSide where
  | submission | completion
  deriving DecidableEq, Repr

/-- Which fault a cell reported (Table 19.3, severity 2). -/
inductive CellCause where
  | sequencer | codec | pageBuffer | targetsLow
  deriving DecidableEq, Repr

/-- Which fault stopped a block's data path with its DRAM readable (Table 19.4). -/
inductive BlockCause where
  | pipesFailed | stagingBuffer | noCell
  deriving DecidableEq, Repr

/-- Which fault calls for a fence (Tables 19.4 and 19.5). -/
inductive FenceCause where
  | noPartner (cause : BlockCause) | dramPort | fabric | powerDomain
  deriving DecidableEq, Repr

/-- How a die operation ended (Table 18.7). -/
inductive DieOutcome where
  | ok (corrected : Nat) (data : List Byte)
  | retried (retries corrected : Nat) (data : List Byte)
  | uncorrectable (mask : Nat) (data : List Byte)
  | programFail
  | eraseFail
  | targetDead
  deriving DecidableEq, Repr

/-- Result of the read-back of an index lookup (R279): no mismatch, a first one, a second one on the
same LOOKUP, or an index line found poisoned. -/
inductive LookupCheck where
  | clean | mismatch | repeated | poisoned
  deriving DecidableEq, Repr

/-- One sample of the pack's converters (R197): cell voltages in µV, pack voltage in mV, current in µA
as the converter reads it (positive out of the pack), sensors in tenths of a degree, the charger's
output in mA, whether the voltage across the switch agrees with its state, and the µs since the last
sample. -/
structure PackReading where
  cellsUv : List Nat
  packMv : Nat
  currentUa : Int
  ntc1 : Int
  ntc2 : Int
  chargerMa : Nat := 0
  switchAgrees : Bool := true
  deltaUs : Nat := 1000
  deriving DecidableEq, Repr

/-- What B3 finds on one block (R295, R315). -/
structure ModuleFound where
  block : Nat
  capacityGib : Nat
  identity : Nat
  tsmSerial : Nat
  trained : Bool
  deriving DecidableEq, Repr

/-- A target of a cell. -/
structure Die where
  cell : Nat
  target : Nat
  deriving DecidableEq, Repr

/-- How long a suspended erase has stood, and whether a flow of the device waits to read its target. -/
structure EraseHeld where
  us : Nat
  flowRead : Bool
  deriving DecidableEq, Repr

/-- A frame as a port receives it: the header fields of Table 10.2, and whether its HCRC and payload CRC
verify (R181). TYPE is the command's, LEN the payload's. -/
structure FrameIn where
  port : Nat
  src : Nat
  dst : Nat
  seq : Nat
  ackReq : Bool
  retry : Bool := false
  intact : Bool := true
  deriving DecidableEq, Repr

/-- A frame whose payload is one value: its header and that value. -/
structure Received (α : Type) where
  head : FrameIn
  body : α
  deriving DecidableEq, Repr

/-- Frame payloads of the Harka links (Tables 10.3 to 10.6, R188). -/
structure CueFrame where
  t1 : Nat
  t4 : Nat
  u : Nat
  f : Nat
  seq : Nat
  depth : Nat
  takeover : Bool
  deposed : Bool
  gmIdx : Nat
  epochId : Nat
  deriving DecidableEq, Repr

structure CueRespFrame where
  seq : Nat
  followsTakeover : Bool
  gmIdx : Nat
  deriving DecidableEq, Repr

structure JoinFrame where
  serial : Nat
  storedIdx : Nat
  populated : Nat
  takeoverEn : Bool
  epochId : Nat
  deriving DecidableEq, Repr

structure AssignFrame where
  index : Nat
  depth : Nat
  result : Nat
  gmIdx : Nat
  deriving DecidableEq, Repr

/-- The 64-byte status summary (Table 10.5), its numeric fields. -/
structure StatusFrame where
  hidx : Nat := 0
  mode : Nat := 0
  derate : Nat := 0
  timeByte : Nat := 0
  flags : Nat := 0
  blocks : Nat := 0
  heldOut : Nat := 0
  eAvail : Nat := 0
  pCurtain : Nat := 0
  budget : Nat := 0
  unstaged : Nat := 0
  shortfall : Nat := 0
  rehHt : Nat := 0
  sentHt : Nat := 0
  packTemp : Nat := 0
  gauge : Nat := 0
  deriving DecidableEq, Repr

/-- A directory entry (Table 10.6). -/
structure DirEntry where
  serial : Nat
  hidx : Nat
  fn : Nat
  blocks : Nat
  state : Nat
  custody : Nat
  updates : Nat
  deriving DecidableEq, Repr

/-- The restore summary (R149). -/
structure SummaryFrame where
  newestHt : Nat := 0
  sealHt : Nat := 0
  firstHt : Nat := 0
  lastHt : Nat := 0
  entries : Nat := 0
  lost : Nat := 0
  untrusted : Nat := 0
  keyPending : Nat := 0
  epochId : Nat := 0
  heldOut : Nat := 0
  deriving DecidableEq, Repr

/-- One merge key (R188): the sort key of R63 with the entry's class, epoch and local index. -/
structure OrderKey where
  ht : Nat
  seq : Nat
  hidx : Nat
  fn : Nat
  cls : Nat
  epochId : Nat
  localIdx : Nat
  deriving DecidableEq, Repr

structure OrderPlace where
  position : Nat
  group : Nat
  conc : Bool
  deriving DecidableEq, Repr

/-- ACK (Table 10.3): the SEQ acknowledged, and STATUS. -/
structure AckFrame where
  seq : Nat
  status : Nat
  deriving DecidableEq, Repr

structure XferOpenFrame where
  srcIdx : Nat
  srcSerial : Nat
  dstSerial : Nat
  srcBlock : Nat
  dstBlock : Nat
  slot : Nat
  kcv : Nat
  session : Nat
  deriving DecidableEq, Repr

namespace Machine

/-- One entry of a curtain call list (Table 9.9). -/
structure ListEntry where
  ht : Nat
  caddr : Nat
  pages : Nat
  fn : Nat
  unack : Bool
  amend : Bool
  tag : Nat
  seq : Nat
  descId : Nat
  cls : Nat
  deriving DecidableEq, Repr

/-- A curtain call list (R168): its header's figures and entries. `torn` is the number of entry pages
that verify where the writing of the list was cut off (R177); all of them do where it is none. -/
structure CallList where
  listId : Nat
  trigger : Nat
  block : Nat
  triggerHt : Nat
  entries : List ListEntry
  listedBytes : Nat
  baseList : Nat := 0
  torn : Option Nat := none
  /-- FIRST_HT and LAST_HT of a header that a port has laid down (R320); of the entries where it is none. -/
  range : Option (Nat × Nat) := none
  /-- VER_MAJOR of the header (R175). -/
  verMajor : Nat := 1
  deriving DecidableEq, Repr

/-- A run descriptor of a record head (Table 9.7). -/
structure Run where
  ht : Nat
  tag : Nat
  caddr : Nat
  extPages : Nat
  runStart : Nat
  runPages : Nat
  seq : Nat
  cls : Nat
  unack : Bool
  descId : Nat
  deriving DecidableEq, Repr

/-- Record kinds (Table 9.6). -/
inductive RKind where
  | stage | curtain | unack | list | releaseNote | lossNote | retire | book | test | expose | safe
  deriving DecidableEq, Repr

/-- A record of the image: head fields of Table 9.5, place, and content. `written` when it counts
written (R20, R161). A body is kept as the plain cells it was read from, with the key slot that
enciphers it; `body` cells carry cache addresses. -/
structure Rec where
  id : Nat
  block : Nat
  home : Nat
  kind : RKind
  fn : Nat := 0
  slot : Nat := 0
  gen : Nat := 0
  inv : Nat := 0
  pfx : Nat := 0
  epochId : Nat := 0
  hidx : Nat := 0
  runs : List Run := []
  poison : List Nat := []
  body : List Cell := []
  list : Option CallList := none
  ref : Nat := 0
  amend : Bool := false
  keep : Bool := false
  firstHt : Nat := 0
  lastHt : Nat := 0
  writeHt : Nat := 0
  bytes : Nat := 0
  cell : Nat := 0
  target : Nat := 0
  position : Nat := 0
  segment : Nat := 0
  /-- The pSLC copy still stands; its data decodes with the stored DATA_CRC, and its tag verifies. -/
  slc : Bool := true
  readable : Bool := true
  authentic : Bool := true
  /-- TLC stripe, place and checks of a compacted copy (R98, R99). -/
  tlc : Option Nat := none
  tlcCell : Nat := 0
  tlcTarget : Nat := 0
  tlcSegment : Nat := 0
  tlcVerified : Bool := false
  tlcReadable : Bool := true
  tlcAuthentic : Bool := true
  /-- A copy being programmed elsewhere: cell, target, position, first segment. It counts once written; until
  then the source stays live (R96, R98, R102). -/
  moving : Option (Nat × Nat × Nat × Nat) := none
  written : Bool := false
  /-- Part of a list's chain, from 0 (R168). -/
  part : Nat := 0
  /-- Key under which the stored body was enciphered (model): the ciphertext, TAG and DATA_CRC stand in
  the flash whatever keys the device holds. -/
  ckey : Nat := 0
  verMajor : Nat := 1
  /-- Head and stored body of a record that a host has laid down through a port (R320). -/
  laid : Option (List Byte × List Byte) := none
  handle : Nat := 0
  deriving DecidableEq, Repr

end Machine

/-- A vault entry in a transfer chunk: a vault-held data key travels unwrapped (R190). -/
structure XferVault where
  slot : Nat
  gen : Nat
  fn : Nat
  hostHeld : Bool
  kcv : Nat
  key : Nat
  pfx : Nat
  deriving DecidableEq, Repr

structure XferNonce where
  slot : Nat
  gen : Nat
  hwm : Nat
  deriving DecidableEq, Repr

/-- What the destination reads out of the stream of chunks (R190): vault entries, nonce high-water entries,
records with their heads as sent. -/
inductive XferContent where
  | vault (v : XferVault)
  | nonce (n : XferNonce)
  | record (r : Machine.Rec) (head : List Byte)
  deriving DecidableEq, Repr

/-- A transfer chunk as received: its count, whether its tag verifies, the items whose last byte it brings, and the
frame's payload. -/
structure XferChunk where
  chunk : Nat
  verified : Bool
  content : List XferContent
  payload : List Byte := []
  deriving DecidableEq, Repr

/-- The registers that a host may write and that have no behaviour of their own beyond the value
they hold (Tables 23.2 and 23.3), by name and instance. -/
inductive Reg where
  | chpEncFirst | tmbCtl | tmbAsym | tmbPpsPhase | tmbStepThresh | tmbEpoch | tmbSetHt
  | spwCtl | spwResumeQual | spwSealHold | spwIntTimer | spwIntMargin
  | admCtl | admEFixed | admSealReserve (b : Nat) | admFnCfg (f : Nat)
  | stgCtl | stgWearCtl | stgScrubCtl | stgCompactRate | stgReserveFixed
  | estCtl | estDerateBound | estLearnCtl
  | pkbCtl | pkbChgCtl
  | eptCtl | eptFnCount | eptFnDisable | eptWinSize (f : Nat) | eptWinFn (f : Nat) | winEntry (n : Nat)
  | drcCtl | drcPortWt | drcPanic | drcFspCfg
  | flcCmd (c : Nat) | flcAddr (c : Nat) | flcData (c off : Nat)
  | cipCtl | cipWrapKey (k : Nat)
  | idxFnCfg (f : Nat)
  | hrkCtl | hrkReconTimeout | hrkRehCtl
  | errCtl | obsCtl
  | mrgBase (r : Nat) | mrgDbHi
  | fncStatus (f : Nat) | tmbStatus
  | sqBase (f n : Nat) | cqBase (f n : Nat)
  | msix (f v w : Nat)
  | confDevCtl (f : Nat) | confDevCtl2 (f : Nat) | confLinkCtl | confL1ss | confPtm
  | confCommand (f : Nat) | confBar (f n : Nat) | confMsixCtl (f : Nat) | confAer (f n : Nat)
  | unassigned (offset : Nat)
  deriving DecidableEq, Repr

/-- Which part of the register a write carries (R11, R12). -/
inductive WriteSize where
  | whole | lowerHalf | upperHalf | wrong
  deriving DecidableEq, Repr

structure RegWrite where
  reg : Reg
  size : WriteSize
  value : W64
  offset : Nat := 0
  deriving DecidableEq, Repr

/-- The 64-bit RO/V registers whose lower half can be read alone (R12); MRG_STATE latches MRG_STATE_HI
in the same way. -/
inductive Reg64 where
  | chpModeHt | encFnReady | encFnKeywait | encTotal | encDone | encMs (e : Nat) | rcnMs (c : Nat)
  | tmbNow | tmbCue | tmbRefOffset
  | curtainFailHt | curtainSealHt | curtainBytes | curtainSaved | curtainLost
  | intEntryHt | intKept | intReload | msHt (m : Nat)
  | admBudget | admUnstaged | admEnergyBytes | admShortfall | admRecalcHt
  | admBlkBudget (b : Nat) | admBlkUnstaged (b : Nat) | admBlkSpace (b : Nat)
  | admFnShare (f : Nat) | admFnUnstaged (f : Nat) | admFnBorrowed (f : Nat)
  | stgCredit (b : Nat) | stgDebt (b : Nat) | stgErased (b : Nat) | stgLiveSlc (b : Nat)
  | stgLiveTlc (b : Nat) | stgStaged (b : Nat)
  | estSigmaParts | estRestHt | estLearnHt
  | pkbRemoveHt
  | eptFnState | eptUnmappedLog
  | drcEcc (b : Nat) | drcPoisonLog (b : Nat) | drcWq (b : Nat) | drcModule (b : Nat)
  | flcTgt (c t : Nat)
  | wrapOut (k : Nat) | wrapKcv | cipQueue (b : Nat) | slotCtr (s : Nat) | slotKcv (s : Nat)
  | idxRebuild | idxHot | idxBlk (b : Nat)
  | dirResult (k : Nat) | xferBytes | hrkPort (p : Nat)
  | errCounts | errPlost (f : Nat) | obsCnt (n : Nat)
  | mrgState (r : Nat)
  deriving DecidableEq, Repr

/-- A register read: of a 64-bit RO/V register's lower or upper half alone, or of bytes by offset in the BAR0 of a
function (0 is PF0), or of a dword of its configuration header. The table's one row for register reads is LOW_HALF_READ, so that the other reads that R10 to R12
describe are operands of it. DESIGN CHOICE (log entry 149). -/
inductive HostRead where
  | lowHalf (r : Reg64)
  | highHalf (r : Reg64)
  | bytes (fn offset size : Nat)
  | config (fn dword : Nat)
  deriving DecidableEq, Repr

/-- The commands of spec/opcode_table.json, in its order. -/
inductive Instr where
  /-- FAIL_ASSERT (R103). VIN12 stays below the FAIL threshold for the deglitch time; FAIL is asserted and row 1, 2, 3 or 4 of Table 2.3 is taken. -/
  | failAssert (mv : Nat)
  /-- FAIL_RELEASE (R103). Main supply becomes good again; FAIL clears, the load moves to main and resume qualification starts. -/
  | failRelease (mv : Nat)
  /-- WARN_ASSERT (R105). VIN12 below the WARN threshold for the deglitch time; a WARN event is sent, commits, new erases and rehearsals are refused. -/
  | warnAssert (mv : Nat)
  /-- WARN_RELEASE (R103). VIN12 rises above WARN plus hysteresis and WARN is released. -/
  | warnRelease (mv : Nat)
  /-- MAIN_SUPPLY_GOOD (R373). In DARK, VIN12 at or above 10.7 V for 10 ms with VAUX3 in range; row 12 is taken and the power-on sequence begins (B1). -/
  | mainSupplyGood (mv : Nat)
  /-- RESUME_QUAL_EXPIRY (R129). Main supply has been good for SPW_RESUME_QUAL; row 8 (leave INTERMISSION) or row 11 (leave SEALED) is taken. -/
  | resumeQualExpiry
  /-- VAUX3_LOSS (R361). VAUX3 is lost with VIN12 good; PERST_N reads asserted, CLKREQ_N is released and PPS, SMBus and TAP stop. -/
  | vaux3Loss
  /-- SEAL_HOLD_EXPIRY (R114). The seal hold time, counted only without main supply, is used up in SEALED; row 10 powers DRAM off and enters DARK. -/
  | sealHoldExpiry
  /-- INTERMISSION_TIMER_EXPIRY (R128). SPW_INT_TIMER expires in INTERMISSION; row 6 starts a curtain from M5. -/
  | intermissionTimerExpiry
  /-- RETENTION_PACK_RELEASE (R363). In DARK a cell falls to V_CELL_MIN + 100 mV; the retention island releases the pack and its contents are lost. -/
  | retentionPackRelease
  /-- CHIP_FATAL_FAULT (R340). An unsettleable fault in a chip island raises code 0x0408 and starts a protective curtain, or acts by R37 in CURTAIN, BOOT or SEALED. -/
  | chipFatalFault (island : Nat)
  /-- MGMT_WATCHDOG_EXPIRY (R340). The 10 ms management-core watchdog expires and is treated as a chip fatal fault. -/
  | mgmtWatchdogExpiry
  /-- PACK_PRESENCE_DETECT (R222). PACK_PRES_N has been low for 100 ms; the insertion sequence starts with the switch open. -/
  | packPresenceDetect (desc : List Byte) (packMv : Nat)
  /-- PACK_SETTLE_EXPIRY (R222). 2 s after presence the first estimate is taken and the pack switch closes unless DESC or VRANGE is active. -/
  | packSettleExpiry (cellsUv : List Nat)
  /-- PACK_SURPRISE_REMOVAL (R225). PACK_PRES_N goes high with the switch closed; E_avail_cons is zeroed, the switch opens, a curtain call list is written and row 16 is taken. -/
  | packSurpriseRemoval
  /-- PACK_REMOVED_SWITCH_OPEN (R225). PACK_PRES_N goes high with the switch open and the bay's record of the pack ends. -/
  | packRemovedSwitchOpen
  /-- ATTENTION_BUTTON_PRESS (R223). PACK_BTN_N held low 20 ms; by bay state it opens or cancels the attention window or starts insertion, or is ignored. -/
  | attentionButtonPress
  /-- ATTENTION_WINDOW_EXPIRY (R224). The 5 s attention window runs out and orderly removal starts through row 16. -/
  | attentionWindowExpiry
  /-- PKB_REMOVE (R223). A write of PKB_CTL.REMOVE starts orderly removal at once without a window. -/
  | pkbRemove
  /-- PKB_CLOSE (R223). A write of PKB_CTL.CLOSE acts as a press on a removable present pack, starting insertion. -/
  | pkbClose
  /-- ORDERLY_DRAIN_DONE (R224). ADM_UNSTAGED reaches zero during orderly removal; the switch opens, E_avail_cons is zeroed and the bay becomes removable. -/
  | orderlyDrainDone
  /-- PACK_COLLAPSE (R119). The pack collapses or is removed during a curtain; without main supply the device stops and row 26 reaches DARK, with main good PACK_LOST is set. -/
  | packCollapse (removed : Bool)
  /-- CHG_TIMEOUT (R226). A charge reaches 12 h of charging time and fault CHG_TIMEOUT is raised. -/
  | chgTimeout
  /-- PKB_FAULT_CLEAR (R228). A write of 1 to a PKB_FAULT bit clears it, and for CHG_TIMEOUT clears the fault itself. -/
  | pkbFaultClear (mask : W32)
  /-- PACK_SAMPLE (R197). A pack current, cell voltage or temperature sample moves the charge states and is checked for sensor, tap, pack and charger faults. -/
  | packSample (sample : PackReading)
  /-- ESTIMATOR_UPDATE (R208). At its cadence or on a trigger the estimator recomputes E_nom and 3σ, applies a pending parameter commit and reports an update to admission. -/
  | estimatorUpdate
  /-- REST_POINT (R204). 20 min of pack current within ±C/500 end; cell states are reset from OCV where the chemistry permits. -/
  | restPoint (cellsUv : List Nat)
  /-- REST_DUE (R205). 72 h pass without a correcting rest point; REST_DUE is set and a rest window opens or UNCERTAINTY is held. -/
  | restDue
  /-- REST_WINDOW_EXPIRY (R205). A 30 min rest window closes, or 6 h after a fruitless window a new one opens. -/
  | restWindowExpiry
  /-- PROBE_PULSE (R206). The 10 min probe timer starts a 0.5 s pack-share discharge pulse. -/
  | probePulse
  /-- PROBE_PULSE_END (R206). The probe pulse ends and impedance ratios are measured and averaged. -/
  | probePulseEnd (zs : Nat) (zp : Nat) (tauMs : Nat)
  /-- LEARN_PHASE_END (R214). A learning phase ends and the cycle moves to the next phase or ends as qualifying or non-qualifying. -/
  | learnPhaseEnd
  /-- ADMISSION_RECOMPUTE (R75). Every 1 ms or on an event the budget, shares, shortfall and settled mode are recomputed and waiting holds evaluated. -/
  | admissionRecompute (cadence : Bool)
  /-- HOLD_DATA_ARRIVED (R78). A HOLD's data has fully arrived in cache DRAM; the hold is ready and is tested at the ordering point. -/
  | holdDataArrived (handle : Nat)
  /-- HOLD_DEADLINE_EXPIRY (R79). A waiting hold's deadline expires and it is refused with the status of the test it last failed. -/
  | holdDeadlineExpiry (handle : Nat)
  /-- WEAR_CREDIT_FILL (R91). Every 1 ms each block's wear credit fills at the sustained rate after repaying debt. -/
  | wearCreditFill
  /-- WEAR_STATE_STORE (R91). At least every 60 s the credit and debt of each block are stored in its device-state store. -/
  | wearStateStore
  /-- STAGING_RECORD_START (R88). Staging reads eligible extents from DRAM into the staging buffer, enciphers them and starts programming a record. -/
  | stagingRecordStart (block : Nat)
  /-- RECORD_COUNTED_WRITTEN (R20). A record's body and two journal head copies are read back; its pages leave the unstaged counts and waiting or WRITE_THROUGH holds may commit. -/
  | recordCountedWritten (record : Nat)
  /-- PROGRAM_FAIL (R20). A die reports a program failure; the unit is retired and the record re-issued to another target or cell. -/
  | programFail (record : Nat)
  /-- TARGET_DEAD (R20). A target fails 3 status polls in a row and is declared dead; its records are relocated or re-staged. -/
  | targetDead (cell : Nat) (target : Nat) (sensable : Bool)
  /-- WINDOW_SHIFT (R94). After 64 stripe writes the window base advances by one, or the shift is deferred while the leaving position is live. -/
  | windowShift (block : Nat)
  /-- LOG_CLEANING (R96). Cleaning takes the oldest written stripe, relocates young records, queues old ones for compaction and journals and erases the stripe. -/
  | logCleaning (block : Nat)
  /-- ERASE_COMPLETE (R323). An erase accumulates 3 ms of progress; its completion entry is journalled and the unit joins the erased run. -/
  | eraseComplete (cell : Nat) (target : Nat)
  /-- COMPACTION_COPY (R98). A queued record is copied unchanged into the open TLC stripe within the compaction rate. -/
  | compactionCopy (block : Nat)
  /-- TLC_GROUP_VERIFIED (R99). A TLC word-line group and the next word line read back good and the pSLC sources of its records are freed. -/
  | tlcGroupVerified (record : Nat)
  /-- SCRUB_READ (R100). The scrub decodes and authenticates a live record and refreshes it if its correction load exceeds the threshold. -/
  | scrubRead (record : Nat) (load : Nat) (readable : Bool) (authentic : Bool)
  /-- CELL_FAILURE (R97). A cell fails; the block restripes, its rate drops by R21 and pages whose records lay on the cell are re-staged. -/
  | cellFailure (cell : Nat) (cause : CellCause)
  /-- CIPHER_PIPE_FAULT (R284). A pipe faults mid-request; its output is discarded, the request re-runs on the other pipe and the pipe is marked failed. -/
  | cipherPipeFault (block : Nat) (pipe : Nat)
  /-- CROSS_SAVE (R23). A block's data path fails with its DRAM readable and a usable partner; the partner carries the block's range at half rate each. -/
  | crossSave (block : Nat) (cause : BlockCause)
  /-- FENCE (R24). A block whose held data can be saved by neither it nor its partner is fenced, admission for it zeroed and every held extent reported PROTECTION_LOST. -/
  | fence (block : Nat) (cause : FenceCause)
  /-- DRAM_UNCORRECTABLE (R301). A DRAM read finds an uncorrectable line; it is poisoned, logged and a fault raised, and a flood fails the block's DRAM port. -/
  | dramUncorrectable (addr : Nat) (port : Nat)
  /-- REFRESH_DUE (R303). A refresh interval passes; the refresh is skipped against pull-in, postponed as debt, or issued at once at the limit. -/
  | refreshDue (block : Nat) (idle : Bool)
  /-- MR4_POLL (R304). Mode register 4 is read and a changed refresh multiplier adjusts the debt limit and issues excess debt. -/
  | mr4Poll (block : Nat) (value : Nat)
  /-- RETRAIN_TIMER (R308). TRAIN_PERIOD expires and the active set point is retrained, repeated once on failure. -/
  | retrainTimer (block : Nat) (passed : Bool)
  /-- ZQ_TIMER (R308). ZQ_PERIOD expires and ZQ calibration runs in refresh-window slots. -/
  | zqTimer (block : Nat)
  /-- TRAINING_STEP_END (R307). A training step of at most 40 µs ends and any deferred frequency change executes. -/
  | trainingStepEnd (block : Nat)
  /-- FREQUENCY_SWITCH_DONE (R306). A set-point switch completes within 20 µs and ports resume. -/
  | frequencySwitchDone
  /-- FLASH_DRAM_PREPARED (R115). M5: in-flight staging records are finished, erases suspended and DRAM set to the curtain profile. -/
  | flashDramPrepared
  /-- CURTAIN_LISTS_WRITTEN (R111). M6: each block's curtain call list is written into its erased run and streaming may begin. -/
  | curtainListsWritten
  /-- CURTAIN_PROJECTION (R118). Every 1 ms on the pack the live projection compares energy with need, sets SHORT or stops streaming and goes to M8. -/
  | curtainProjection (usedMs : Nat)
  /-- DATA_STREAMED (R112). M7: every working block has streamed held extents, amendments and UNACK entries. -/
  | dataStreamed
  /-- PROMPT_BOOKS_SEALED (R113). M8: each block seals and reads back its prompt book under a common seal HT. -/
  | promptBooksSealed
  /-- DRAM_PLACED (R114). M9: DRAM is placed in self-refresh or off per policy, state copied to the retention island, and row 9 enters SEALED. -/
  | dramPlaced
  /-- FLASH_QUIESCED (R124). I5: staging records finished, compaction and relocation abandoned and erases suspended. -/
  | flashQuiesced
  /-- INT_LISTS_WRITTEN (R47). I6: curtain call lists of unstaged extents and ready holds are written for intermission entry. -/
  | intListsWritten
  /-- STATE_PRESERVED (R125). I7: index cache written back and endpoint, ring, key and count state copied into the retention island. -/
  | statePreserved
  /-- SELF_REFRESH_ENTERED (R127). I8: PASR masks are set per policy and DRAM enters self-refresh. -/
  | selfRefreshEntered
  /-- LOGIC_POWERED_DOWN (R124). I9: all islands except 80 and 83 are powered down. -/
  | logicPoweredDown
  /-- GRANULE_RELOADED (R130). A masked 16 MiB granule finishes reloading from the log and held TLPs and descriptors on it proceed. -/
  | granuleReloaded (granule : Nat)
  /-- TWIN_SELECTED (R329). B2: the boot ROM boots the newest twin whose CRC, length and signature check, or stays in BOOT. -/
  | twinSelected
  /-- MODULES_TRAINED (R295). B3: LPCAMM2 modules are identified and trained and TSM-1 serials read; failing blocks are held out. -/
  | modulesTrained (modules : List ModuleFound)
  /-- FLASH_READY (R326). B4: erase-intent journals are scanned and open intents erased again. -/
  | flashReady
  /-- PLAYBILL_WRITTEN (R232). B5: the playbill is written and row 13 enters ENCORE. -/
  | playbillWritten
  /-- IMAGE_LOCATED (R134). E1: each block finds its newest verifying prompt book and the kind of encore is chosen. -/
  | imageLocated
  /-- HEADERS_SCANNED (R136). E2: directories, journals, lists and notes are scanned and nonce high-water marks set. -/
  | headersScanned
  /-- WINNERS_CHOSEN (R137). E3: the winner of every cache page is chosen and lists, UNACK entries and exposed blocks resolved. -/
  | winnersChosen
  /-- FUNCTION_RESTORED (R144). E4: a function's winning pages are deciphered into DRAM and its index built; FN_RESTORED is sent. -/
  | functionRestored (fn : Nat)
  /-- BLOCK_RESTORED (R144). E5: every function with data in the block is restored or indexed as key-pending. -/
  | blockRestored (block : Nat)
  /-- ENCORE_COMPLETE (R144). E6: the last block is restored and row 14 enters RECONCILE. -/
  | encoreComplete
  /-- MERGE_COMPLETE (R150). C3: positions, groups and CONC are assigned to running-order entries. -/
  | mergeComplete
  /-- RECONCILE_TIMEOUT (R150). HRK_RECON_TIMEOUT expires; the device's order is kept local with UNMERGED. -/
  | reconcileTimeout
  /-- ORDER_STORE_WRITTEN (R154). C4: order entries are written to the order store and row 15 enters the settled mode. -/
  | orderStoreWritten
  /-- REHEARSAL_BURST (R73). At least 10 ms after the last, a 1 ms burst streams test image data from every working block and its energy is measured. -/
  | rehearsalBurst (energyUj : Nat) (panic : Bool)
  /-- REHEARSAL_COMPLETE (R71). Test images are written in every block; e_byte and rate_ref are replaced and row 23 returns to the settled mode. -/
  | rehearsalComplete
  /-- REHEARSAL_PENDING_START (R38). A deferred rehearsal slot starts once its guard is met. -/
  | rehearsalPendingStart
  /-- HOLD (R78). Reads host data into cache DRAM and admits it at the ordering point. -/
  | hold (handle : Nat)
  /-- COMMIT (R257). Admits a range as it stands in cache DRAM. -/
  | commit (handle : Nat)
  /-- RELEASE (R258). Pages leave held, staying readable as clean with KEEP, with a release note written where needed. -/
  | release (handle : Nat)
  /-- READ (R259). Writes a range from cache DRAM to host memory with the worst page status. -/
  | read (handle : Nat)
  /-- LOOKUP (R274). Returns the newest extent with a tag from the function's index. -/
  | lookup (handle : Nat) (check : LookupCheck)
  /-- FENCE_DESCRIPTOR (R261). FENCE orders descriptors of its ring or function and completes when earlier ones complete. -/
  | fenceDescriptor (handle : Nat)
  /-- ORDER_READ (R152). Copies restore-list or running-order entries into a host buffer. -/
  | orderRead (handle : Nat)
  /-- NOP (R254). Completes at once with SUCCESS on any ring. -/
  | nop (handle : Nat)
  /-- KEY_LOAD (R288). Unwraps a key into a slot, reloading or starting a new generation, and appends vault entries. -/
  | keyLoad (handle : Nat) (data : HostData)
  /-- KEY_ERASE (R293). Zeroises every generation of a slot's key and rewrites the vault, dropping data with FORCE. -/
  | keyErase (handle : Nat)
  /-- REHEARSE (R38). Starts a rehearsal if its guard holds. -/
  | rehearse (handle : Nat)
  /-- PLANNED_CURTAIN (R41). Runs the curtain on main power with the link kept and follows the seal by AFTER. -/
  | plannedCurtain (handle : Nat)
  /-- FN_RESET (R267). Aborts a function's uncommitted descriptors and returns its rings, doorbells and MSI-X to reset values. -/
  | fnReset (handle : Nat)
  /-- PACK_PARAM_LOAD (R217). Reads a pack parameter set from host memory into the shadow. -/
  | packParamLoad (handle : Nat) (data : HostData)
  /-- PACK_PARAM_COMMIT (R217). Makes the shadow set take effect at the next estimator update. -/
  | packParamCommit (handle : Nat)
  /-- PACK_PARAM_READ (R217). Writes the set in force with learned values to host memory and clears NEW. -/
  | packParamRead (handle : Nat)
  /-- LEARN_START (R214). Starts a learning cycle if its conditions hold. -/
  | learnStart (handle : Nat)
  /-- SERVICE_ENTER (R40). Drains or refuses, seals a prompt book on main power and enters SERVICE. -/
  | serviceEnter (handle : Nat)
  /-- SERVICE_EXIT (R40). Leaves SERVICE for the settled mode, or for BOOT with retained DRAM when REBOOT is set. -/
  | serviceExit (handle : Nat)
  /-- IMAGE_TRANSFER (R189). Copies one block's image from a source device over Harka into a destination block. -/
  | imageTransfer (handle : Nat)
  /-- TRACE_TAIL (R328). ROM service read of the retention island's trace tail. -/
  | traceTail (handle : Nat)
  /-- FAULTS (R328). ROM service read of the fault records of the retention island and ERR. -/
  | faults (handle : Nat)
  /-- BOOK (R328). ROM service read of a block's prompt book by age. -/
  | book (handle : Nat)
  /-- VAULT (R328). ROM service read of every kept vault entry of a block. -/
  | vault (handle : Nat)
  /-- ANCHOR (R328). ROM service read of every anchor entry of a block. -/
  | anchor (handle : Nat)
  /-- SELECTOR (R328). ROM service read of both twins' newest selector entries. -/
  | selector (handle : Nat)
  /-- PRIV_SEG (R328). ROM service read of one SLC segment of a boot unit. -/
  | privSeg (handle : Nat)
  /-- RECORD (R328). ROM service read of a record named by a locator, deciphered through a pipe. -/
  | record (handle : Nat) (data : HostData)
  /-- TWIN_WRITE (R330). ROM service write of a chunk of the inactive firmware twin. -/
  | twinWrite (handle : Nat) (data : HostData)
  /-- TWIN_SELECT (R330). Verifies the inactive twin and programs a new selector entry naming it. -/
  | twinSelect (handle : Nat)
  /-- READ_SEG (R317). Port command reading one 64 KiB segment. -/
  | readSeg (cell : Nat)
  /-- READ_SPARE (R317). Port command reading the 4 spare areas of a segment. -/
  | readSpare (cell : Nat)
  /-- READ_RAW (R317). Port command reading one plane's data and spare uncorrected. -/
  | readRaw (cell : Nat)
  /-- CREAD_UNIT (R327). Port command starting a continuous read through one unit. -/
  | creadUnit (cell : Nat)
  /-- CREAD_TARGETS (R327). Port command starting a continuous read across targets. -/
  | creadTargets (cell : Nat)
  /-- CREAD_STOP (R327). Port command ending a continuous read. -/
  | creadStop (cell : Nat)
  /-- PROGRAM_SEG (R318). Port command programming one pSLC segment in ascending order. -/
  | programSeg (cell : Nat)
  /-- LOAD_TLC (R318). Port command loading a TLC page, programming the word line on its third page. -/
  | loadTlc (cell : Nat)
  /-- ERASE_UNIT (R323). Port command journalling an erase intent and erasing a unit. -/
  | eraseUnit (cell : Nat)
  /-- READ_ID (R317). Port command reading a die's identity and parameter page. -/
  | readId (cell : Nat)
  /-- FLC_KEY (R316). A write of the arming keys advances, restarts or disarms a command port. -/
  | flcKey (cell : Nat) (value : W32)
  /-- NEXT (R327). A write of FLC_CTL.NEXT replaces the window with the next segment of a continuous read. -/
  | next (cell : Nat)
  /-- FLASH_OPERATION_DONE (R317). A die read, program or transfer of a port command completes and STATE reads DONE with its RESULT. -/
  | flashOperationDone (cell : Nat) (outcome : DieOutcome)
  /-- ERASE_SUSPEND (R19). A suspend requested by a pending read takes effect after 500 µs of erase progress. -/
  | eraseSuspend (die : Die) (progressUs : Nat) (flowRead : Bool)
  /-- ERASE_RESUME (R324). A suspended erase resumes when no read is pending, after 2 ms or after 64 reads. -/
  | eraseResume (die : Die) (held : EraseHeld)
  /-- SQ_DOORBELL (R250). A write of a submission ring's tail exposes descriptors for fetch, or is ignored and counted. -/
  | sqDoorbell (fn : Nat) (ring : Nat) (tail : W32)
  /-- CQ_DOORBELL (R251). A write of a completion, event, orphan or trace ring's head frees entries and lets waiting entries be written. -/
  | cqDoorbell (fn : Nat) (ring : Nat) (head : W32)
  /-- DESCRIPTOR_FETCH (R253). The device fetches a ready descriptor by weighted round robin, assigns its sequence and checks it. -/
  | descriptorFetch (entry : SqEntry) (sgl : SglRead)
  /-- RING_EN_WRITE (R247). A write of a ring's EN enables it with head, tail and phase reset, or disables it, or is refused with CFG_ERROR. -/
  | ringEnWrite (fn : Nat) (side : RingSide) (ring : Nat) (cfg : W32)
  /-- FNC_CTL_RESET (R267). A write of 1 to FNC_CTL.RESET starts a function reset. -/
  | fncCtlReset (fn : Nat)
  /-- FUNCTION_DISABLE (R268). Bus master clear, EPT_FN_DISABLE or D3hot disables a function; fetched descriptors complete on the orphan ring. -/
  | functionDisable (fn : Nat) (cause : DisableCause)
  /-- FUNCTION_ENABLE (R268). A disabled function is enabled again and fetching resumes at each ring's head. -/
  | functionEnable (fn : Nat) (cause : DisableCause)
  /-- FLIP (R235). A write of EPT_WIN_CTL.FLIP checks the shadow window table and makes it active. -/
  | flip
  /-- TMB_SET_HT (R51). A write sets or steps HT within the bounds of R50 and R51, or is ignored and faulted. -/
  | tmbSetHt (value : W64)
  /-- TMB_EPOCH (R51). A write labels the epoch before its first commit. -/
  | tmbEpoch (value : W64)
  /-- SPW_THRESH (R104). A write sets the supply thresholds or is ignored whole and faulted. -/
  | spwThresh (value : W32)
  /-- EBYTE_RESET (R71). A write reverts e_byte and rate_ref to the data-sheet values and forces a recomputation. -/
  | ebyteReset
  /-- WRAP_GO (R286). A write of CIP_WRAP_CTL.GO wraps CIP_WRAP_KEY, gives its KCV and zeroises the key. -/
  | wrapGo
  /-- WRAP_LOCK (R286). A write of 1 locks the wrap service until power-on. -/
  | wrapLock
  /-- WRAP_KEY_TIMEOUT (R286). 1 s after the last write of CIP_WRAP_KEY without GO the key is zeroised. -/
  | wrapKeyTimeout
  /-- LEARN_ABORT (R214). A write ends a learning cycle as non-qualifying. -/
  | learnAbort
  /-- DISMISS_US (R194). A write ends the manager's deposed state and treats worker 1 as absent. -/
  | dismissUs
  /-- HRK_DIR_QUERY (R187). A write starts a directory lookup whose result is valid 1 µs later. -/
  | hrkDirQuery (value : W32)
  /-- FSP_TARGET (R306). A write of DRC_FSP_CTL.TARGET requests a frequency set-point change, deferred or suspended as needed. -/
  | fspTarget (value : W32)
  /-- DRC_MAP_NEXT (R297). A write in SERVICE stores the next address map order; ignored in other modes. -/
  | drcMapNext (value : W32)
  /-- REGISTER_WRITE (R10). A write to a register without behaviour of its own stores its fields, or is discarded and faulted if of wrong size. -/
  | registerWrite (write : RegWrite)
  /-- LOW_HALF_READ (R12). A 32-bit read of a 64-bit RO/V register's lower half latches its upper half. -/
  | lowHalfRead (read : HostRead)
  /-- ENDPOINT_RESET (R244). PERST_N, a hot reset or link down resets the endpoint island and completes in-flight descriptors to the orphan ring. -/
  | endpointReset (cause : ResetCause)
  /-- LINK_TRAINED (R246). The link reaches L0; host-loss timing is cancelled and waiting events and completions are posted. -/
  | linkTrained (rate : Nat) (width : Nat)
  /-- HOST_LOSS (R246). EPT_CTL.GRACE expires with the link down and the HOSTLOSS policy is applied. -/
  | hostLoss
  /-- WINDOW_WRITE (R237). A posted write to a cache window is translated and written, held, discarded or dropped by Table 13.4. -/
  | windowWrite (fn : Nat) (offset : Nat) (data : List Byte) (poisoned : Bool)
  /-- WINDOW_READ (R237). A memory read of a cache window is translated and completed with data, EP, UR or held. -/
  | windowRead (fn : Nat) (offset : Nat) (length : Nat)
  /-- HOST_READ_COMPLETION (R240). A completion for a device host read arrives, writing data or ending the descriptor, or is discarded if quarantined. -/
  | hostReadCompletion (tag : Nat) (status : CplStatus) (data : List Byte)
  /-- COMPLETION_TIMEOUT (R240). A host read times out; it is reported, its tag quarantined and the descriptor ends. -/
  | completionTimeout (tag : Nat)
  /-- QUARANTINE_END (R240). A quarantined tag returns to the pool. -/
  | quarantineEnd (tag : Nat)
  /-- L1_IDLE (R242). The link is idle for L1_IDLE and the device requests L1. -/
  | l1Idle
  /-- L0P_INTERVAL (R242). Each 100 µs traffic interval the device requests a narrower or full L0p width. -/
  | l0pInterval (percentOfX4 : Nat)
  /-- PTM_REQUEST (R243). Every PTM_PERIOD the device sends a PTM request and steers or counts failures. -/
  | ptmRequest (reply : Option Nat)
  /-- COALESCE_TIMER (R252). COAL_TIME passes after the first unsignalled entry and the ring's MSI-X message is sent. -/
  | coalesceTimer (fn : Nat) (ring : Nat)
  /-- VECTOR_UNMASK (R252). Unmasking a vector with its pending bit set sends the message. -/
  | vectorUnmask (fn : Nat) (vector : Nat)
  /-- HARKA_PORT_TRAINED (R180). A Harka port trains; on HK0 the device sends JOIN. -/
  | harkaPortTrained (port : Nat)
  /-- HARKA_PORT_LOST (R196). A port loses training or carries no accepted frame for 3 cue periods. -/
  | harkaPortLost (port : Nat)
  /-- CUE_SEND (R183). Every millisecond a CUE is sent on every trained downlink and standby-serving port. -/
  | cueSend
  /-- CUE (R57). A received cue is accepted or rejected and HT steered to it. -/
  | cue (frame : Received CueFrame)
  /-- CUE_RESP (R183). A child's response to a cue gives t4 and the follower's view of the grandmaster. -/
  | cueResp (head : FrameIn) (resp : CueRespFrame)
  /-- HOLDOVER (R58). HOLDOVER_N cue periods pass without an accepted cue and the follower enters holdover. -/
  | holdover
  /-- PPS_EDGE (R55). A PPS_IN edge steers a grandmaster's HT phase. -/
  | ppsEdge (falling : Bool)
  /-- REFERENCE_LOSS (R55). PPS_IN shows no edge for 3 s and the reference is lost. -/
  | referenceLoss
  /-- JOIN (R180). The lead grants or refuses a hierarchy index and answers with ASSIGN. -/
  | join (head : FrameIn) (frame : JoinFrame) (depth : Nat)
  /-- ASSIGN (R180). A device stores its granted index and depth, or becomes standalone. -/
  | assign (head : FrameIn) (frame : AssignFrame)
  /-- STATUS (R185). The lead stores a device's status summary and issues rehearsal slots. -/
  | status (frame : Received StatusFrame)
  /-- STATUS_SEND (R185). Every 100 ms or on a mode change a worker sends its status summary. -/
  | statusSend
  /-- NODE_ABSENT (R185). A device's summary is missing for 300 ms; it is marked absent and NODE_ABSENT sent. -/
  | nodeAbsent (index : Nat)
  /-- DIR_UPDATE (R187). The lead stores directory entries and forwards them to worker 1. -/
  | dirUpdate (head : FrameIn) (entry : DirEntry) (more : List DirEntry)
  /-- REH_SLOT (R186). A device takes a rehearsal slot or sets REHEARSE_PEND. -/
  | rehSlot (slotHt : Received Nat)
  /-- RECON_SUMMARY (R188). The lead takes a device's restore summary into the merge. -/
  | reconSummary (head : FrameIn) (frame : SummaryFrame) (kind : Nat)
  /-- RECON_KEYS (R188). The lead merges a device's running-order keys. -/
  | reconKeys (head : FrameIn) (first : Nat) (keys : List OrderKey)
  /-- RECON_RESULT (R188). A device takes positions and groups for its entries. -/
  | reconResult (head : FrameIn) (first : Nat) (results : List OrderPlace)
  /-- RECON_DONE (R188). The merge ends C3 for every merged device. -/
  | reconDone (merged : Received Nat)
  /-- ACK (R182). An acknowledgement ends repeats of a frame. -/
  | ack (head : FrameIn) (frame : AckFrame)
  /-- ACK_TIMEOUT (R182). No ACK within 2 ms; the frame is repeated with RETRY or dropped after 8 repeats. -/
  | ackTimeout (port : Nat) (seq : Nat)
  /-- XFER_OPEN (R190). The source answers a transfer opening and starts sending chunks. -/
  | xferOpen (head : FrameIn) (frame : XferOpenFrame)
  /-- XFER_DATA (R190). The destination verifies a chunk and writes its heads, bodies and vault entries. -/
  | xferData (frame : Received XferChunk)
  /-- XFER_ACK (R190). The source takes a cumulative chunk acknowledgement. -/
  | xferAck (chunk : Received Nat)
  /-- XFER_CLOSE (R190). The destination checks count and head CRC, completes the intent and the command. -/
  | xferClose (head : FrameIn) (count : Nat) (headCrc : W32)
  /-- XFER_ABORT (R191). A transfer ends without success; the destination erases the units it opened. -/
  | xferAbort (result : Received Nat)
  /-- TAKEOVER (R192). Worker 1 hears nothing on HK0 for 50 cue periods and takes the lead with a takeover floor. -/
  | takeover
  /-- DEPOSED (R194). The manager hears nothing from worker 1 for 50 cue periods and deposes itself. -/
  | deposed
  /-- STANDBY_SWITCH (R193). A depth-1 device switches its uplink to its standby port on TAKEOVER cues. -/
  | standbySwitch
  /-- INDEX_REBUILD_DONE (R280). A function's index rebuild ends and its queued index changes are applied. -/
  | indexRebuildDone (fn : Nat) (mismatch : Bool)
  /-- BUCKET_RESPREAD (R276). A GAPPED bucket is re-spread in the background to restore its gaps. -/
  | bucketRespread (fn : Nat) (bucket : Nat)
  /-- CIPHER_REQUEST_DONE (R282). A cipher request finishes; with the last pinned request the old generation's key is zeroised. -/
  | cipherRequestDone (block : Nat)
  /-- TELEMETRY_COPY (R350). Every 10 ms the retention island copies the telemetry blocks from their registers. -/
  | telemetryCopy
  /-- SMBUS_BLOCK_READ (R350). A Block Read at address 0x5C returns a 16 B telemetry block. -/
  | smbusBlockRead (address : Nat) (command : Nat)
  /-- TAP_RESET (R351). TMS held high for 5 TCK cycles resets the TAP. -/
  | tapReset
  /-- BYPASS (R351). TAP instruction selecting the bypass register. -/
  | bypass
  /-- IDCODE (R351). TAP instruction shifting out the device identity code. -/
  | idcode
  /-- SAMPLE_PRELOAD (R351). TAP instruction sampling or preloading the boundary register. -/
  | samplePreload (value : Nat)
  /-- EXTEST (R351). Pin-driving TAP instruction, obeyed only early in BOOT. -/
  | extest
  /-- EXTEST_PULSE (R351). Pin-driving IEEE 1149.6 pulse instruction, obeyed only early in BOOT. -/
  | extestPulse
  /-- EXTEST_TRAIN (R351). Pin-driving IEEE 1149.6 train instruction, obeyed only early in BOOT. -/
  | extestTrain
  /-- CLAMP (R351). Pin-driving TAP instruction holding preloaded values, obeyed only early in BOOT. -/
  | clamp
  /-- HIGHZ (R351). Pin-driving TAP instruction placing outputs in high impedance, obeyed only early in BOOT. -/
  | highz
  /-- WRAP_NEAR (R50). TMB_NOW reaches 0xF000_0000_0000_0000 and TMB_STATUS.WRAP_NEAR is set. -/
  | wrapNear
  /-- PPS_OUT_EDGE (R56). With PPS_OUT_EN set, PPS_OUT rises at each HT congruent to TMB_PPS_PHASE and falls 1 ms later. -/
  | ppsOutEdge
  /-- VIN12_BELOW_GOOD (R128). VIN12 falls below the GOOD threshold without reaching FAIL, and a running resume qualification restarts. -/
  | vin12BelowGood (mv : Nat)
  /-- VAUX3_RETURN (R359). VAUX3 comes back into range; PERST_N, SMBus, TAP and PPS pins work again and the power-on sequence may end after 1 ms. -/
  | vaux3Return
  /-- PERST_N_RELEASE (R244). PERST_N is released; the endpoint leaves reset, accepts configuration within 100 ms and starts link training. -/
  | perstNRelease
  /-- PACK_SEATED (R222). PACK_PRES_N goes low with no pack recorded, and the bay enters debouncing. -/
  | packSeated
  /-- REH_SLOT_TIMEOUT (R186). 10 min after issue, a rehearsal slot not yet shown completed or abandoned stops counting as discharging at the lead. -/
  | rehSlotTimeout (index : Nat)
  /-- FLIP_COMPLETE (R235). Within 10 µs of FLIP the check ends, the shadow becomes active or RESULT reports failure, BUSY clears and held shadow writes apply. -/
  | flipComplete
  /-- KEY_VAULT_WRITTEN (R288). The vault entries appended by KEY_LOAD or KEY_ERASE count written in every populated block; the new generation takes effect and the command completes. -/
  | keyVaultWritten (slot : Nat)
  deriving DecidableEq, Repr

end Sys2Proof
end

