-- ==== Sys2Proof/WellFormed.lean ====
section
/-!
DEFINITION. Well-formed commands: every operand that names a block, a cell, a function, a ring, a key
slot, a port, an island or a granule lies in the range the spec gives it (R15, Tables 1.1, 10.1,
14.1, 16.1), and a supply voltage within Table 21.1.
-/

namespace Sys2Proof

/-- A frame's header fields fit Table 10.2, and a device has ports HK0 to HK8. -/
def FrameIn.wf (h : FrameIn) : Bool := h.port < 9 && h.src < 65536 && h.dst < 65536 && h.seq < 4294967296

/-- A command's operands are in range. -/
def Instr.wf (i : Instr) : Bool :=
  match i with
  | .failAssert a0 => a0 ≤ 16000
  | .failRelease a0 => a0 ≤ 16000
  | .warnAssert a0 => a0 ≤ 16000
  | .warnRelease a0 => a0 ≤ 16000
  | .mainSupplyGood a0 => a0 ≤ 16000
  | .resumeQualExpiry => true
  | .vaux3Loss => true
  | .sealHoldExpiry => true
  | .intermissionTimerExpiry => true
  | .retentionPackRelease => true
  | .chipFatalFault a0 => 76 ≤ a0 && a0 < 84
  | .mgmtWatchdogExpiry => true
  | .packPresenceDetect _ _ => true
  | .packSettleExpiry _ => true
  | .packSurpriseRemoval => true
  | .packRemovedSwitchOpen => true
  | .attentionButtonPress => true
  | .attentionWindowExpiry => true
  | .pkbRemove => true
  | .pkbClose => true
  | .orderlyDrainDone => true
  | .packCollapse _ => true
  | .chgTimeout => true
  | .pkbFaultClear _ => true
  | .packSample _ => true
  | .estimatorUpdate => true
  | .restPoint _ => true
  | .restDue => true
  | .restWindowExpiry => true
  | .probePulse => true
  | .probePulseEnd _ _ _ => true
  | .learnPhaseEnd => true
  | .admissionRecompute _ => true
  | .holdDataArrived _ => true
  | .holdDeadlineExpiry _ => true
  | .wearCreditFill => true
  | .wearStateStore => true
  | .stagingRecordStart a0 => a0 < 8
  | .recordCountedWritten _ => true
  | .programFail _ => true
  | .targetDead a0 a1 _ => a0 < 64 && a1 < 8
  | .windowShift a0 => a0 < 8
  | .logCleaning a0 => a0 < 8
  | .eraseComplete a0 a1 => a0 < 64 && a1 < 8
  | .compactionCopy a0 => a0 < 8
  | .tlcGroupVerified _ => true
  | .scrubRead _ _ _ _ => true
  | .cellFailure a0 _ => a0 < 64
  | .cipherPipeFault a0 a1 => a0 < 8 && a1 < 2
  | .crossSave a0 _ => a0 < 8
  | .fence a0 _ => a0 < 8
  | .dramUncorrectable a0 a1 => a0 < 1099511627776 && a1 < 6
  | .refreshDue a0 _ => a0 < 8
  | .mr4Poll a0 _ => a0 < 8
  | .retrainTimer a0 _ => a0 < 8
  | .zqTimer a0 => a0 < 8
  | .trainingStepEnd a0 => a0 < 8
  | .frequencySwitchDone => true
  | .flashDramPrepared => true
  | .curtainListsWritten => true
  | .curtainProjection _ => true
  | .dataStreamed => true
  | .promptBooksSealed => true
  | .dramPlaced => true
  | .flashQuiesced => true
  | .intListsWritten => true
  | .statePreserved => true
  | .selfRefreshEntered => true
  | .logicPoweredDown => true
  | .granuleReloaded a0 => a0 < 65536
  | .twinSelected => true
  | .modulesTrained _ => true
  | .flashReady => true
  | .playbillWritten => true
  | .imageLocated => true
  | .headersScanned => true
  | .winnersChosen => true
  | .functionRestored a0 => a0 < 64
  | .blockRestored a0 => a0 < 8
  | .encoreComplete => true
  | .mergeComplete => true
  | .reconcileTimeout => true
  | .orderStoreWritten => true
  | .rehearsalBurst _ _ => true
  | .rehearsalComplete => true
  | .rehearsalPendingStart => true
  | .hold _ => true
  | .commit _ => true
  | .release _ => true
  | .read _ => true
  | .lookup _ _ => true
  | .fenceDescriptor _ => true
  | .orderRead _ => true
  | .nop _ => true
  | .keyLoad _ _ => true
  | .keyErase _ => true
  | .rehearse _ => true
  | .plannedCurtain _ => true
  | .fnReset _ => true
  | .packParamLoad _ _ => true
  | .packParamCommit _ => true
  | .packParamRead _ => true
  | .learnStart _ => true
  | .serviceEnter _ => true
  | .serviceExit _ => true
  | .imageTransfer _ => true
  | .traceTail _ => true
  | .faults _ => true
  | .book _ => true
  | .vault _ => true
  | .anchor _ => true
  | .selector _ => true
  | .privSeg _ => true
  | .record _ _ => true
  | .twinWrite _ _ => true
  | .twinSelect _ => true
  | .readSeg a0 => a0 < 64
  | .readSpare a0 => a0 < 64
  | .readRaw a0 => a0 < 64
  | .creadUnit a0 => a0 < 64
  | .creadTargets a0 => a0 < 64
  | .creadStop a0 => a0 < 64
  | .programSeg a0 => a0 < 64
  | .loadTlc a0 => a0 < 64
  | .eraseUnit a0 => a0 < 64
  | .readId a0 => a0 < 64
  | .flcKey a0 _ => a0 < 64
  | .next a0 => a0 < 64
  | .flashOperationDone a0 _ => a0 < 64
  | .eraseSuspend a0 _ _ => a0.cell < 64 && a0.target < 8
  | .eraseResume a0 _ => a0.cell < 64 && a0.target < 8
  | .sqDoorbell a0 a1 _ => a0 < 64 && a1 < 16
  | .cqDoorbell a0 a1 _ => a0 < 64 && a1 < 16
  | .descriptorFetch _ _ => true
  | .ringEnWrite a0 _ a2 _ => a0 < 64 && a2 < 16
  | .fncCtlReset a0 => a0 < 64
  | .functionDisable a0 _ => a0 < 64
  | .functionEnable a0 _ => a0 < 64
  | .flip => true
  | .tmbSetHt _ => true
  | .tmbEpoch _ => true
  | .spwThresh _ => true
  | .ebyteReset => true
  | .wrapGo => true
  | .wrapLock => true
  | .wrapKeyTimeout => true
  | .learnAbort => true
  | .dismissUs => true
  | .hrkDirQuery _ => true
  | .fspTarget _ => true
  | .drcMapNext _ => true
  | .registerWrite _ => true
  | .lowHalfRead _ => true
  | .endpointReset _ => true
  | .linkTrained _ _ => true
  | .hostLoss => true
  | .windowWrite a0 _ _ _ => a0 < 64
  | .windowRead a0 _ a2 => a0 < 64 && 1 ≤ a2 && a2 ≤ 4096
  | .hostReadCompletion a0 _ _ => a0 < 768
  | .completionTimeout a0 => a0 < 768
  | .quarantineEnd a0 => a0 < 768
  | .l1Idle => true
  | .l0pInterval a0 => a0 ≤ 400
  | .ptmRequest _ => true
  | .coalesceTimer a0 a1 => a0 < 64 && a1 < 16
  | .vectorUnmask a0 a1 => a0 < 64 && a1 < 64
  | .harkaPortTrained a0 => a0 < 9
  | .harkaPortLost a0 => a0 < 9
  | .cueSend => true
  | .cue f => f.head.wf
  | .cueResp h _ => h.wf
  | .holdover => true
  | .ppsEdge _ => true
  | .referenceLoss => true
  | .join h _ _ => h.wf
  | .assign h _ => h.wf
  | .status f => f.head.wf
  | .statusSend => true
  | .nodeAbsent a0 => a0 < 512
  | .dirUpdate h _ more => h.wf && more.length < 255
  | .rehSlot f => f.head.wf
  | .reconSummary h _ _ => h.wf
  | .reconKeys h _ _ => h.wf
  | .reconResult h _ _ => h.wf
  | .reconDone f => f.head.wf
  | .ack h _ => h.wf
  | .ackTimeout a0 a1 => a0 < 9 && a1 < 4294967296
  | .xferOpen h _ => h.wf
  | .xferData f => f.head.wf
  | .xferAck f => f.head.wf
  | .xferClose h _ _ => h.wf
  | .xferAbort f => f.head.wf
  | .takeover => true
  | .deposed => true
  | .standbySwitch => true
  | .indexRebuildDone a0 _ => a0 < 64
  | .bucketRespread a0 _ => a0 < 64
  | .cipherRequestDone a0 => a0 < 8
  | .telemetryCopy => true
  | .smbusBlockRead a0 a1 => a0 < 128 && a1 < 256
  | .tapReset => true
  | .bypass => true
  | .idcode => true
  | .samplePreload _ => true
  | .extest => true
  | .extestPulse => true
  | .extestTrain => true
  | .clamp => true
  | .highz => true
  | .wrapNear => true
  | .ppsOutEdge => true
  | .vin12BelowGood a0 => a0 ≤ 16000
  | .vaux3Return => true
  | .perstNRelease => true
  | .packSeated => true
  | .rehSlotTimeout a0 => a0 < 512
  | .flipComplete => true
  | .keyVaultWritten a0 => a0 < 64

end Sys2Proof
end

