-- ==== Sys2Proof/Machine/State.lean ====
section
/-!
DEFINITION. The state of the device: plain data, one structure for each unit of the spec. Fields
marked "model" are the model's own; every other field is a register, a store or a status that the
spec names. Sparse tables (`Tab`) hold only the entries that differ from their default. The
default of a field is its reset value (Reset column of chapter 23, power-on); INVENTORY.md gives
the rule of each.
-/

namespace Sys2Proof.Machine

/-- The twelve modes (Table 2.1). -/
inductive Mode where
  | dark | boot | encore | reconcile | armed | derated | writeThrough | rehearsal
  | intermission | curtain | sealed | service
  deriving DecidableEq, Repr

/-- Order code, population and straps of the board (R4, R5, Table 0.2). Fixed while powered. -/
structure Board where
  x8 : Bool := false
  blocks : Nat := 1
  moduleGib : Nat := 128
  serial : Nat := 1
  roleMgr : Bool := false
  testPins : BitVec 4 := 0
  fwVersion : W32 := 0x01000001
  deriving DecidableEq, Repr

/-- The pins and supplies (chapter 21): VIN12 in mV, VAUX3, PERST_N, the bay's pins. -/
structure Pins where
  vinMv : Nat := 12000
  vaux3 : Bool := true
  perstN : Bool := false
  packPresN : Bool := true
  clkreqN : Bool := false
  ppsOut : Bool := false
  deriving DecidableEq, Repr

/-- CHP_MODE, CHP_MODE_HT and the bits of CHP_ACT that nothing else determines (R33, R41, R42). -/
structure Chp where
  mode : Mode := .boot
  seq : Nat := 1
  cause : Nat := 1
  prev : Mode := .dark
  modeHt : Nat := 0
  halt : Bool := false
  /-- Main supply was lost with HALT set (R42). -/
  haltLost : Bool := false
  sealRetained : Bool := false
  planned : Bool := false
  rehearsePend : Bool := false
  fatalBoot : Bool := false
  fatalIslands : List Nat := []
  tapDrove : Bool := false
  deriving DecidableEq, Repr

/-- The time base (chapter 3): HT, the TMB registers and the follower's working values. -/
structure Tmb where
  ht : Nat := 0
  /-- Commits accepted in the present ordering-point cycle; the cycle's base tick is `ht - slot` (R28). -/
  slot : Nat := 0
  powered : Bool := true
  cycles : Nat := 0
  darkUs : Nat := 0
  stopHt : Nat := 0
  stopU : Nat := 0
  darkRan : Bool := false
  ctl : W32 := 0x000A300A
  asym : W32 := 0
  epochNs : W64 := 0
  epochId : Nat := 0
  epochCommitted : Bool := false
  /-- A commit was accepted since BOOT (R61). -/
  bootCommit : Bool := false
  ppsPhase : W32 := 0
  stepThresh : W32 := 0x003D0900
  ptmOk : Bool := false
  /-- PTM failures in a row; no exchange yet counts as lost (R55). -/
  ptmFails : Nat := 3
  ppsOk : Bool := false
  refOffset : Int := 0
  stepped : Bool := false
  wrapNear : Bool := false
  belowImage : Bool := false
  rejected : Nat := 0
  steps : Nat := 0
  cueOffset : Int := 0
  cueDelay : Int := 0
  follower : Bool := false
  state : Nat := 1
  uUp : Nat := 0
  /-- u at the last accepted cue (Table 3.1). -/
  uLast : Nat := 0
  uAcq : Option Nat := none
  /-- The HT that R60 set at the last restart. -/
  restartHt : Nat := 0
  /-- The last cue received: its SEQ and t1, and the own HT at its reception and its response. -/
  prevCue : Option (Nat × Nat × Nat × Nat) := none
  lag : Int := 0
  /-- The frequency is held (R55, R58): a tick is added (`heldUp`) or dropped each `heldGap` cycles
  beyond the shortest distance that R56 allows. -/
  held : Bool := false
  heldUp : Bool := false
  heldGap : Nat := 0
  delays : List Int := []
  goodCues : Nat := 0
  lastCueHt : Nat := 0
  everCue : Bool := false
  depth : Nat := 0
  floorU : Nat := 0
  slewedAt : Nat := 0
  ppsRise : Nat := 0
  deriving DecidableEq, Repr

/-- Supply watch: the SPW set-up registers, the sampled supply and its flags (R103 to R106). -/
structure Spw where
  ctl : W32 := 0x000A0001
  thresh : W32 := 0x23A899FE
  resumeQual : W32 := 200
  sealHold : W32 := 600
  intTimer : W32 := 30
  intMargin : W32 := 10
  mv : Nat := 0
  good : Bool := false
  warn : Bool := false
  fail : Bool := false
  onPack : Bool := false
  warnCount : Nat := 0
  failCount : Nat := 0
  qualRunning : Bool := false
  qualified : Bool := false
  intTimerRunning : Bool := false
  holdRunning : Bool := false
  deriving DecidableEq, Repr

/-- The last-curtain registers and the working state of a curtain in progress (chapter 6). -/
structure Curtain where
  linkKept : Bool := false
  after : Nat := 0
  milestone : Nat := 0
  fromInt : Bool := false
  plannedFlag : Bool := false
  protectiveFlag : Bool := false
  /-- The lists written at I6 stand, so M6 is omitted (R131). -/
  listed6 : Bool := false
  stopped : Bool := false
  short : Bool := false
  faultFlag : Bool := false
  packLost : Bool := false
  listPartial : Bool := false
  seqNo : Nat := 0
  failHt : Nat := 0
  sealHt : Nat := 0
  bytes : Nat := 0
  saved : Nat := 0
  lost : Nat := 0
  energyMj : Nat := 0
  energyAtFail : Nat := 0
  unackDropped : Nat := 0
  unackSaved : Nat := 0
  durUs : Nat := 0
  msHt : Tab Nat := []
  /-- Per block: held payload unstaged at M1 or I1 (listed_b), counted written since, and lost at M8. -/
  listedB : Tab Nat := []
  savedB : Tab Nat := []
  lostB : Tab Nat := []
  lists : List CallList := []
  handle : Nat := 0
  deriving DecidableEq, Repr

/-- Intermission: its registers and the set of ready holds and abandoned descriptors (chapter 7). -/
structure Intermission where
  count : Nat := 0
  pasrEff : Bool := false
  exit : Nat := 0
  entryHt : Nat := 0
  needMj : Nat := 0
  needAtFail : Nat := 0
  kept : Nat := 0
  step : Nat := 0
  pendingGranules : List Nat := []
  abandoned : List (Nat × Nat) := []
  ready : List ListEntry := []
  listIds : List Nat := []
  deriving DecidableEq, Repr

/-- Admission (chapter 4): the ADM registers and the working values of the last recomputation. -/
structure Adm where
  ctl : W32 := 0x00C80000
  eFixed : W32 := 22000
  sealReserve : Tab W32 := []
  fnCfg : Tab W32 := []
  eAvail : Nat := 0
  packZero : Bool := true
  eByteFj : Nat := 2928000
  rateRef : Nat := 22500
  eByteMeasured : Bool := false
  eEff : Nat := 2928000
  rateSum : Nat := 22500
  eTerm : Nat := 0
  budget : Nat := 0
  recalcHt : Nat := 0
  blkBudget : Tab Nat := []
  blkShare : Tab Nat := []
  blkSpace : Tab Nat := []
  shortE : Bool := false
  shortS : Bool := false
  shortfall : Nat := 0
  reclaim : List Nat := []
  wtGood : Nat := 0
  wtBudget : Bool := false
  hostLossDrain : Bool := false
  deriving DecidableEq, Repr

/-- Kinds of a cache page's newest data. -/
inductive PageKind where
  | free | held | clean | lost | plost
  deriving DecidableEq, Repr

/-- What is known of one 4 KiB cache page: the extent that owns its newest data, whether that data
is unstaged, and the live record that carries it (R77, R96). `remainder`: unstaged since before the entry
to WRITE_THROUGH (R85). -/
structure Page where
  kind : PageKind := .free
  eid : Nat := 0
  fn : Nat := 0
  unstaged : Bool := false
  record : Option Nat := none
  untrusted : Bool := false
  keyPending : Bool := false
  restorePend : Bool := false
  restage : Bool := false
  remainder : Bool := false
  deriving DecidableEq, Repr

/-- A committed extent of the index (chapter 15). -/
structure Extent where
  eid : Nat
  fn : Nat
  tag : Nat
  caddr : Nat
  pages : Nat
  ht : Nat
  cls : Nat
  seq : Nat
  hidx : Nat
  epochId : Nat
  legacy : Bool := false
  deriving DecidableEq, Repr

/-- State of one erase stripe of a block's pSLC log or TLC region. -/
inductive StripeState where
  | erased | written | erasing
  deriving DecidableEq, Repr

/-- One block (chapters 1, 5, 17 and 19): its log, wear account, working parts and DRAM port. -/
structure Blk where
  logKnown : Bool := false
  wb : Nat := 0
  wp : Nat := 0
  sinceShift : Nat := 0
  shiftDeferred : Bool := false
  shifts : Nat := 0
  stripeSeq : Nat := 0
  stripes : Tab StripeState := []
  stripeSeqs : Tab Nat := []
  tlcSeq : Nat := 0
  tlcSeqs : Tab Nat := []
  tlcStripes : Tab StripeState := []
  tlcOpen : Nat := 0
  credit : Nat := 256000000000
  debt : Nat := 0
  debtMark : Nat := 0
  storedCredit : Nat := 256000000000
  storedDebt : Nat := 0
  pressure : Bool := false
  serialNext : Nat := 1
  nextCell : Nat := 0
  stagedBytes : Nat := 0
  scrubRefresh : Nat := 0
  shiftDeferrals : Nat := 0
  compactQ : List Nat := []
  pipe0Ok : Bool := true
  pipe1Ok : Bool := true
  cipherActive : List (Nat × Nat × Nat) := []
  cipherDone : Nat := 0
  portOk : Bool := true
  pathFailed : Bool := false
  crossSave : Bool := false
  fenced : Bool := false
  heldOut : Bool := false
  moduleId : Nat := 1
  /-- Serial of the TSM-1 on record, and the one that B3 found (R135, R315). -/
  tsmSerial : Nat := 1
  tsmFound : Nat := 1
  moduleGib : Nat := 128
  -- DRAM channel (chapter 17)
  refDebt : Nat := 0
  pullIn : Nat := 0
  mult : Nat := 1
  eccCorrected : Nat := 0
  eccUncorrected : Nat := 0
  poisonLog : Nat := 0
  poisonRecent : List Nat := []
  trainFails : Nat := 0
  fspOk : Bool := false
  trainAgain : Bool := false
  trainPass : Bool := true
  trainCount : Nat := 0
  training : Bool := false
  trainFsp : Nat := 0
  zqCount : Nat := 0
  selfRefresh : Bool := false
  dramOn : Bool := false
  deriving DecidableEq, Repr

/-- An erase under way on one target (R323, R324); `frozen` is never to be resumed (R115). -/
structure Erase where
  unit : Nat
  mode : Nat := 0
  port : Bool := false
  seq : Nat := 0
  progressUs : Nat := 0
  suspends : Nat := 0
  suspended : Bool := false
  suspendReads : Nat := 0
  frozen : Bool := false
  deriving DecidableEq, Repr

/-- Command-port arm states (R316). -/
inductive Arm where
  | disarmed | half | armed
  deriving DecidableEq, Repr

/-- FLC_STATUS.STATE (R317). -/
inductive PortState where
  | idle | queued | executing | done | reading
  deriving DecidableEq, Repr

/-- One cell with its channel's command port (chapters 1 and 18): `fails` per target; `index` and
`left` the segments a continuous read has delivered less one, and has yet to deliver; `nextAddr` its
next segment; `tlcPages` the pages of a word line in the page buffer. -/
structure CellSt where
  failed : Bool := false
  deadTargets : List Nat := []
  /-- Dead targets whose records cannot be sensed (R97). -/
  unsensed : List Nat := []
  erases : Tab Erase := []
  fails : Tab Nat := []
  arm : Arm := .disarmed
  cmd : W32 := 0
  addr : W64 := 0
  port : PortState := .idle
  op : Nat := 0
  result : Nat := 0
  ready : Bool := false
  index : Nat := 0
  left : Nat := 0
  nextAddr : W64 := 0
  eccLoad : Nat := 0
  eccRetries : Nat := 0
  window : Tab Byte := []
  tlcPages : List (Nat × Tab Byte) := []
  badKeys : Nat := 0
  ignored : Nat := 0
  deriving DecidableEq, Repr

/-- A fault record (Table 19.1), its fields but for the CRC. -/
structure FaultRec where
  ht : Nat
  seq : Nat
  cause : Nat
  code : Nat
  level : Nat
  island : Nat
  severity : Nat
  mode : Nat
  fn : Nat := 0
  target : Nat := 0xFF
  unit : Nat := 0xFFFF
  segment : Nat := 0xFFFF
  caddr : Nat := 0
  bytes : Nat := 0
  detail : Nat := 0
  deriving DecidableEq, Repr

/-- ERR registers and the fault-record stores (R332 to R335). -/
structure Err where
  ctl : W32 := 1
  seqNext : Nat := 0
  suppressed : Nat := 0
  counts : Tab Nat := []
  records : List FaultRec := []
  retained : List FaultRec := []
  fatal : Bool := false
  plost : Tab Nat := []
  lastAer : Nat := 0
  notes : List Rec := []
  deriving DecidableEq, Repr

/-- A trace event (Table 20.1). -/
structure TraceEv where
  ht : Nat
  type : Nat
  island : Nat
  seq : Nat
  a : Nat
  b : Nat
  gap : Bool := false
  deriving DecidableEq, Repr

/-- An event-ring entry (R270), payload as numbers in the order of Table 14.8. -/
structure Event where
  ht : Nat
  type : Nat
  fn : Nat
  seq : Nat
  payload : List Nat
  deriving DecidableEq, Repr

/-- TAP instruction register (R351). -/
inductive TapIr where
  | bypass | idcode | samplePreload | extest | extestPulse | extestTrain | clamp | highz
  deriving DecidableEq, Repr

/-- Trace, counters, SMBus telemetry and TAP (chapter 20). -/
structure Obs where
  ctl : W32 := 0x03FF0000
  hostLost : Nat := 0
  traceSeq : Nat := 0
  tail : List TraceEv := []
  gapPend : Bool := false
  cnt : Tab Nat := []
  telemetry : Tab (List Nat) := []
  tapIr : TapIr := .idcode
  boundary : Nat := 0
  recompTraced : Nat := 0
  budgetTraced : Nat := 0
  estTraced : Nat := 0
  eConsTraced : Nat := 0
  deriving DecidableEq, Repr

/-- Where a fetched descriptor stands. -/
inductive Phase where
  | fetched | reading | ready | waiting | staging | noted | running
  deriving DecidableEq, Repr

/-- A descriptor fetched and not completed (R253). `fn` 0 is the admin ring. -/
structure Desc where
  handle : Nat
  fn : Nat
  ring : Nat
  sqHead : Nat
  seq : Nat
  entry : SqEntry
  sgl : List SglEntry := []
  cls : Nat := 0
  phase : Phase := .fetched
  readError : Nat := 0
  readyHt : Nat := 0
  deadline : Nat := 0
  failed : Nat := 0
  waited : Bool := false
  recs : List Nat := []
  result : Nat := 0
  bytes : Nat := 0
  needReads : List (Nat × Nat × Nat) := []
  sglErr : Nat := 0
  deriving DecidableEq, Repr

/-- A completion entry (Table 14.4). -/
structure Cpl where
  ht : Nat
  result : Nat
  bytes : Nat
  delay : Nat
  descId : Nat
  sqHead : Nat
  status : Nat
  sqId : Nat
  fn : Nat
  cls : Nat
  orphan : Bool := false
  /-- The descriptor, in flight until the entry is written (R251). -/
  desc : Option Desc := none
  deriving DecidableEq, Repr

/-- One ring: for a submission ring `dev` is HEAD and `host` TAIL; for the others `dev` is NEXT and
`host` the host's head (R247, R250, R251). `cfg` holds the fields below EN and PHASE. -/
structure Ring where
  base : W64 := 0
  cfg : W32 := 4
  en : Bool := false
  phase : Bool := true
  dev : Nat := 0
  host : Nat := 0
  unsent : Nat := 0
  deriving DecidableEq, Repr

/-- An MSI-X table entry with its pending bit. -/
structure Msix where
  addr : W64 := 0
  data : W32 := 0
  masked : Bool := true
  pend : Bool := false
  deriving DecidableEq, Repr

/-- One cache function: rings, MSI-X, configuration, encore state (chapters 13 and 14). -/
structure FnSt where
  sq : Tab Ring := []
  cq : Tab Ring := []
  dbErrors : Nat := 0
  cfgError : Bool := false
  resetting : Bool := false
  busMaster : Bool := false
  d3hot : Bool := false
  restored : Bool := false
  keyPending : Bool := false
  keyArrival : Nat := 0
  seqNext : Nat := 0
  msix : Tab Msix := []
  devCtl : W32 := 0x2810
  devCtl2 : W32 := 0
  /-- Configuration space (R231, Table 13.2): memory space enable, the base address registers, MSI-X control, and AER's
  uncorrectable mask, severity and correctable mask by number. -/
  memEn : Bool := false
  bars : Tab W32 := []
  msixCtl : W32 := 0
  aer : Tab W32 := []
  cqWait : List Cpl := []
  /-- By ring class: the ring served last in it, and how many more entries its turn has (R253). -/
  rr : Tab (Nat × Nat) := []
  wrrLeft : Nat := 0
  -- index (chapter 15)
  idxCfg : W32 := 0x1411
  rebuilding : Bool := false
  rebuildStopped : Bool := false
  rebuilds : Nat := 0
  /-- Segments of the function's table by block (R271): buckets of up to 512 slots in key order, each with an entry's
  extent or a gap (R276). -/
  segs : Tab (List (List (Option Nat))) := []
  /-- Buckets, counted from 65,536 × block, with a full run between gaps, to be re-spread (R276). -/
  respreads : List Nat := []
  deriving DecidableEq, Repr

/-- The management rings (Table 14.1) and their waiting entries (R269, R270). -/
structure Mrg where
  rings : Tab Ring := []
  dbHi : W32 := 0
  eventSeq : Nat := 0
  waiting : List Event := []
  lost : Nat := 0
  lostUnsaid : Nat := 0
  orphans : List Cpl := []
  stateHiLatch : W32 := 0
  deriving DecidableEq, Repr

/-- A host read outstanding or, with `quarantined`, a tag in quarantine (R239 to R241). -/
structure Tag where
  handle : Nat
  fn : Nat
  caddr : Nat
  len : Nat
  discard : Bool := false
  quarantined : Bool := false
  deriving DecidableEq, Repr

/-- Endpoint link states (EPT_LINK.STATE). -/
inductive Link where
  | down | training | l0 | l0p | l1 | l11 | l12 | abandoned
  deriving DecidableEq, Repr

/-- A window TLP held on a reload-pending granule (R130). -/
structure HeldTlp where
  fn : Nat
  caddr : Nat
  data : List Byte
  isRead : Bool
  len : Nat
  deriving DecidableEq, Repr

/-- The endpoint island (chapter 13). -/
structure Ept where
  link : Link := .down
  rate : Nat := 0
  width : Nat := 0
  lanes : Nat := 0
  ctl : W32 := 0x00C81410
  fnCount : W32 := 63
  fnCountNow : Nat := 63
  fnDisable : W64 := 0
  tags : Tab Tag := []
  late : Nat := 0
  timeouts : Nat := 0
  unmapped : Nat := 0
  discard : Nat := 0
  discardRun : Nat := 0
  unmappedLog : W64 := 0
  perst : Nat := 0
  hot : Nat := 0
  linkDown : Nat := 0
  orphaned : Nat := 0
  hostLossState : Nat := 0
  linkLostHt : Nat := 0
  winSize : Tab W32 := []
  winSizeNow : Tab Nat := []
  winFn : Tab W64 := []
  winFnActive : Tab W64 := []
  winEntry : Tab W64 := []
  winActive : Tab W64 := []
  winBusy : Bool := false
  winVersion : Nat := 0
  winResult : Nat := 0
  winErr : Nat := 0
  winHeld : List RegWrite := []
  tlpHeld : List HeldTlp := []
  linkCtl : W32 := 0
  l1ss : W32 := 0
  l1Mark : Nat := 0
  ptmEn : Bool := false
  tlpsCut : Bool := false
  deriving DecidableEq, Repr

/-- Key slots, vault entries and the wrap service (chapter 16). -/
structure Slot where
  bound : Bool := false
  loaded : Bool := false
  key : Nat := 0
  gen : Nat := 0
  fn : Nat := 0
  hostHeld : Bool := false
  kcv : Nat := 0
  ctr : Nat := 0
  /-- Largest counter issued, or found at encore (R136, Table 9.11). -/
  hwm : Nat := 0
  pfx : Nat := 0
  nonceUnknown : Bool := false
  oldKey : Option (Nat × Nat) := none
  older : List (Nat × Nat) := []
  erasing : Bool := false
  pending : Option (Nat × Nat) := none
  /-- The older generation that a pending KEY_LOAD fills (R290). -/
  filling : Option Nat := none
  deriving DecidableEq, Repr

structure Vault where
  slot : Nat
  gen : Nat
  fn : Nat
  hostHeld : Bool
  pfx : Nat
  loadHt : Nat
  kcv : Nat
  wrapped : Nat
  eraseHt : Nat
  written : Bool := false
  /-- VERSION, major (R175). -/
  verMajor : Nat := 1
  deriving DecidableEq, Repr

structure Cip where
  slots : Tab Slot := []
  copy : Tab Slot := []
  vault : List Vault := []
  wrapKey : Tab W64 := []
  wrapWritten : Bool := false
  wrapLocked : Bool := false
  wrapStatus : Nat := 0
  wrapOut : Nat := 0
  wrapKcv : Nat := 0
  reRuns : Nat := 0
  deriving DecidableEq, Repr

/-- The index engine's registers (chapter 15): mismatches, cache hits and misses, extents left out
under R273. An insertion is placed within the step that commits, so none is ever queued. -/
structure Idx where
  first : Nat := 0
  repeats : Nat := 0
  hits : Nat := 0
  misses : Nat := 0
  /-- Extents that R273 left out of the index at the last encore. -/
  leftOut : List Extent := []
  /-- Insertions queued in the engine, oldest first (R275), and the cycles for which a full queue has held the ordering
  point (IDX_STALLS). -/
  insq : List Nat := []
  stalls : Nat := 0
  yielded : List Nat := []
  deriving DecidableEq, Repr

/-- The DRAM controllers' shared registers (chapter 17). -/
structure Drc where
  ctl : W32 := 0x0A400010
  mapNow : Nat := 3
  mapNext : Nat := 3
  portWt : W64 := 0x0000000802020408
  panic : W32 := 0x1919
  fspCfg : W32 := 0
  fspNow : Nat := 0
  fspTarget : Nat := 0
  fspState : Nat := 0
  addedUs : Nat := 0
  restarted : Bool := false
  poison : List Nat := []
  /-- How often the DRAM has lost its content with its power (the model's own count). -/
  losses : Nat := 0
  deriving DecidableEq, Repr

/-- Running-order entry of the restore list (Table 8.4). -/
structure OrderEntry where
  ht : Nat
  tag : Nat
  caddr : Nat
  pages : Nat
  fn : Nat
  cls : Nat
  status : Nat
  seq : Nat
  hidx : Nat
  epochId : Nat
  unack : Bool
  poisoned : Nat
  descId : Nat
  partialExt : Bool := false
  suspect : Bool := false
  position : Nat := 0
  group : Nat := 0
  conc : Bool := false
  unmerged : Bool := false
  released : Bool := false
  deriving DecidableEq, Repr

/-- Pages of an extent that a list reported lost, to be noted after row 15 (R151). -/
structure LossNote where
  block : Nat
  list : Nat
  base : Bool
  ext : Extent
  pages : List Nat
  deriving DecidableEq, Repr

/-- Encore and reconcile (chapter 8): CHP_ENC and CHP_RCN registers and the restore work. -/
structure Enc where
  kind : Nat := 0
  first : W64 := 0
  total : Nat := 0
  done : Nat := 0
  extents : Nat := 0
  lost : Nat := 0
  untrusted : Nat := 0
  records : Nat := 0
  msHt : Tab Nat := []
  rcnHt : Tab Nat := []
  located : Bool := false
  scanned : Bool := false
  chosen : Bool := false
  mismatch : Bool := false
  bookOk : Nat := 0
  unnamed : Bool := false
  shortFallback : Bool := false
  partialMerge : Bool := false
  timedOut : Bool := false
  blockDone : List Nat := []
  unackWrites : List (Nat × Nat) := []
  lossNotes : List LossNote := []
  /-- Bytes of the lists reported by range (R143). -/
  rangeBytes : Nat := 0
  arrivals : Nat := 0
  exposed : List (Nat × Nat × Nat) := []
  order : List OrderEntry := []
  orderStore : List OrderEntry := []
  merged : Bool := false
  placed : Nat := 0
  unmerged : Bool := false
  resolved : List Nat := []
  newestHt : Nat := 0
  sealHt : Nat := 0
  deriving DecidableEq, Repr

/-- A rehearsal in progress (R38, R39, R73), its ephemeral key (R287), and its service-area results (R71). -/
structure Reh where
  handle : Nat := 0
  key : Nat := 0
  written : Tab Nat := []
  burstBytes : Nat := 0
  burstUj : Nat := 0
  burstRate : Nat := 0
  lastHt : Nat := 0
  storedEByte : Option (Nat × Nat) := none
  storedPop : Nat := 0
  storedModules : List (Nat × Nat) := []
  deriving DecidableEq, Repr

/-- SERVICE entry in progress (R40) and IMAGE_TRANSFER (R189 to R191). -/
structure Svc where
  entering : Nat := 0
  drain : Bool := false
  drainedStart : Nat := 0
  xferDone : Bool := false
  deriving DecidableEq, Repr

/-- A selector entry (R329). -/
structure Selector where
  twin : Nat
  seq : Nat
  length : Nat := 0
  crc : Nat := 0
  version : Nat := 0
  ht : Nat := 0
  deriving DecidableEq, Repr

/-- Boot units, twins and selectors (chapters 18 and 22). -/
structure Rom where
  twinVersion : Tab Nat := [(0, 0x01000001)]
  twinValid : Tab Bool := [(0, true)]
  twinImage : Tab (List (Nat × List Byte)) := []
  selectors : List Selector := [{ twin := 0, seq := 1, version := 0x01000001 }]
  running : Nat := 0
  booted : Bool := false
  modulesOk : Bool := false
  flashReady : Bool := false
  playbill : Bool := false
  deriving DecidableEq, Repr

/-- Rotation-window state (Table 9.13), as unit headers and prompt books carry it. -/
structure Window where
  wb : Nat := 0
  wp : Nat := 0
  sinceShift : Nat := 0
  deferred : Bool := false
  payloadMib : Nat := 0
  shifts : Nat := 0
  stripeSeq : Nat := 0
  deriving DecidableEq, Repr

/-- An opened unit: its header (Table 9.3) and what stands in it. `position` is the ring position of a
pSLC unit, or 200 plus the stripe of a TLC unit; `next` its next free body segment; `bodies` the record,
first segment and segments of each body, in order; `headBytes` what the directory takes so far. `full`
bars further bodies; the directory is written, at `closeHt`, once every record of the unit counts
written (R160). -/
structure FUnit where
  cell : Nat
  target : Nat
  position : Nat
  verMajor : Nat := 1
  cells : Nat := 0
  epochId : Nat := 0
  stripeSeq : Nat := 0
  openHt : Nat := 0
  serial : Nat := 0
  hidx : Nat := 0
  window : Window := {}
  next : Nat := 4
  bodies : List (Nat × Nat × Nat) := []
  headBytes : Nat := 64
  full : Bool := false
  closeHt : Option Nat := none
  /-- Its directory was being programmed when power was lost (Table 9.14): it fails its CRC. -/
  torn : Bool := false
  deriving DecidableEq, Repr

/-- A head in a journal word line (R161): the record, and the place and STRIPE_SEQ of its locator as written. -/
structure JHead where
  id : Nat
  place : Nat × Nat × Nat × Nat
  stripeSeq : Nat
  deriving DecidableEq, Repr

/-- A journal word line (R161): its unit of the cell's four, and the heads it holds. -/
structure JLine where
  seq : Nat
  unit : Nat
  writeHt : Nat
  heads : List JHead
  deriving DecidableEq, Repr

/-- A cell's head journal (R161): JOURNAL_SEQ last used, the unit being filled, the headers of its opened units
(R159), newest line first. With one working cell in the block the second copies fill another unit. -/
structure Journal where
  seq : Nat := 0
  unit : Nat := 0
  units : List FUnit := []
  lines : List JLine := []
  deriving DecidableEq, Repr

/-- An anchor entry (R172): the book and its locator as it was written. -/
structure Anchor where
  block : Nat
  seqNo : Nat
  sealHt : Nat
  recordId : Nat
  segment : Nat
  cell : Nat
  target : Nat
  position : Nat
  stripeSeq : Nat
  deriving DecidableEq, Repr

/-- A sealed prompt book of a block (Table 9.10), its figures, with the fault records and the trace tail
sealed into it. `nonces` holds slot, generation, function, prefix and largest counter, and `unknown` the
slots under NONCE_UNKNOWN. -/
structure Book where
  block : Nat
  seqNo : Nat
  recordId : Nat
  prevBook : Nat
  sealHt : Nat
  status : Nat
  reason : Nat
  hidx : Nat
  epochId : Nat
  epochNs : W64
  msHt : Tab Nat
  credit : Nat
  debt : Nat
  window : Window
  populated : Nat
  serial : Nat
  lists : List (Nat × Nat × Nat × Nat × Nat)
  nonces : List (Nat × Nat × Nat × Nat × Nat)
  unknown : List Nat
  indexSealed : Bool
  /-- The index entries that INDEX_CRC covers (model). -/
  index : List Byte
  faults : List FaultRec
  trace : List TraceEv
  failHt : Nat
  bytes : Nat
  saved : Nat
  lost : Nat
  energyMj : Nat
  unackDropped : Nat
  unackSaved : Nat
  durUs : Nat
  readable : Bool
  /-- VERSION, major (R175). -/
  verMajor : Nat := 1
  deriving DecidableEq, Repr

/-- The rest of the flash image (chapter 9, Table 18.2): records, books, opened units, head journals by
cell, anchor entries, intents, retired units, the device-state store, the segments that ports have programmed (cell, target, unit, segment), the next
segment of the units they program, and each cell's erase-intent SEQ. -/
structure Flash where
  records : List Rec := []
  books : List Book := []
  units : List FUnit := []
  journals : Tab Journal := []
  /-- Journal units opened, by block: the STRIPE_SEQ of their headers (R159). -/
  journalOpens : Tab Nat := []
  /-- Records erased whose heads still stand in a journal word line (R161). -/
  ghosts : List Rec := []
  anchors : List Anchor := []
  intents : List (Nat × Nat × Nat) := []
  retired : List (Nat × Nat × Nat) := []
  foreign : List (Nat × Nat × Nat) := []
  segments : List ((Nat × Nat × Nat × Nat) × Tab Byte) := []
  unitNext : List ((Nat × Nat × Nat) × Nat) := []
  journalSeq : Tab Nat := []
  hidx : Option Nat := none
  epoch : Option (Nat × W64) := none
  xferIntent : Option Nat := none
  xferRecs : List Nat := []
  xferVaults : List (Nat × Nat) := []
  xferSeq : Nat := 0
  xferNonces : List (Nat × Nat × Nat) := []
  neverBooted : Bool := true
  curtains : Nat := 0
  deriving DecidableEq, Repr

/-- One Harka port (HRK_PORT) and its unacknowledged frames (R182). -/
structure Port where
  crcErr : Nat := 0
  retry : Nat := 0
  peer : Nat := 0
  dir : Nat := 3
  following : Bool := false
  trained : Bool := false
  responses : Nat := 0
  lost : Bool := false
  /-- A device has come over this downlink: it is a tree link, not one that serves a standby port (R179). -/
  tree : Bool := false
  deriving DecidableEq, Repr

/-- A frame as a device sends it (Table 10.2): header fields and payload. -/
structure Frame where
  type : Nat
  src : Nat
  dst : Nat
  seq : Nat
  ackReq : Bool
  retry : Bool := false
  payload : List Byte
  deriving DecidableEq, Repr

/-- A node of the lead's view (HRK_NODE, R185, R186); `reported` once a summary of it has come in. -/
structure Node where
  present : Bool := false
  reported : Bool := false
  status : StatusFrame := {}
  serial : Nat := 0
  depth : Nat := 0
  takeoverEn : Bool := false
  slotOut : Bool := false
  slotRehHt : Nat := 0
  deriving DecidableEq, Repr

/-- The hierarchy (chapter 10). -/
structure Hrk where
  ctl : W32 := 0x5FF
  role : Nat := 0
  lead : Bool := true
  depth : Nat := 0
  index : Nat := 0
  takeover : Bool := false
  deposed : Bool := false
  inWaiting : Bool := false
  onStandby : Bool := false
  joinRefused : Bool := false
  waitResponses : Bool := false
  sawTakeover : Bool := false
  reconTimeout : W32 := 10000
  rehCtl : W32 := 0x000A1E01
  dirQuery : W32 := 0
  dirResult : Option DirEntry := none
  ports : Tab Port := []
  nodes : Tab Node := []
  routes : Tab Nat := []
  dir : List DirEntry := []
  ownUpdates : Tab Nat := []
  frameSeq : Nat := 0
  unacked : List (Nat × Nat × Frame) := []
  cueSeq : Nat := 0
  seenSeqs : List (Nat × Nat × Nat) := []
  joining : Bool := false
  /-- JOIN frames passed on, by port and SEQ, whose ASSIGN has not come back. -/
  joins : List (Nat × Nat) := []
  respGm1 : Bool := false
  dismissed : Bool := false
  t4 : Tab Nat := []
  summaries : List (Nat × SummaryFrame) := []
  keys : List (Nat × Nat × OrderKey) := []
  xferState : Nat := 0
  xferCause : Nat := 0
  xferSource : Bool := false
  xferLocal : Nat := 0
  xferPeerBlk : Nat := 0
  xferPeer : Nat := 0
  /-- Vault-held data keys that the transfer under way brought: slot, generation, key (R190). -/
  xferKeys : List (Nat × Nat × Nat) := []
  xferBytes : Nat := 0
  xferHandle : Nat := 0
  xferSlot : Nat := 0
  xferNext : Nat := 0
  xferAcked : Nat := 0
  xferFails : Nat := 0
  xferCrc : W32 := 0
  xferSession : Nat := 0
  upMode : Nat := 0
  deriving DecidableEq, Repr

/-- One probe's quotients in 1/1,000, its temperature in 0.1 °C and its HT (R206). -/
structure Probe where
  zs : Nat
  zp : Nat
  temp : Int
  ht : Nat
  deriving DecidableEq, Repr

/-- The estimator (chapter 11). States of charge are in 10⁻¹⁵ of the capacity in use, charges in pC,
fractions of design capacity in 10⁻⁹, temperatures in 0.1 °C. Log entry 26. -/
structure Est where
  ctl : W32 := 0x101
  derateBound : W32 := 200
  learnCtl : W32 := 0xC05
  valid : Bool := false
  eNom : Nat := 0
  sigma3 : Nat := 0
  eCons : Nat := 0
  design : Nat := 0
  soc : List Int := []
  socCut : Int := 0
  gauge : Int := 0
  capPart : Nat := 0
  socuPart : Nat := 0
  modelPart : Nat := 0
  -- measurement (R197 to R199)
  offset : Int := 0
  upTemp : Int := 0
  secPc : Int := 0
  secUs : Nat := 0
  iMean : Int := 0
  ntc1 : Int := 0
  ntc2 : Int := 0
  ntcRead : Bool := false
  ntc1Bad : Bool := false
  ntc2Bad : Bool := false
  cellUv : List Nat := []
  -- rest (R204, R205)
  restOk : Bool := false
  restUs : Nat := 0
  restHt : Nat := 0
  everRest : Bool := false
  restDue : Bool := false
  restWindow : Bool := false
  restCharge : Bool := false
  sRest : Nat := 0
  thruPc : Nat := 0
  topRest : Bool := false
  -- probes (R206)
  /-- Current in mA to which pack share regulates a probe pulse or a learning discharge (R206, R214). -/
  shareMa : Nat := 0
  /-- State of charge in 10⁻¹⁵ at which the last rest point put the weakest cell (R214). -/
  restSoc : Int := 0
  probing : Bool := false
  probes : List Probe := []
  zsRatio : Nat := 1000
  zpRatio : Nat := 1000
  tau : Nat := 0
  -- learning (R214 to R216)
  learning : Bool := false
  learnPhase : Nat := 0
  learnResult : Nat := 0
  learnCause : Nat := 0
  learnNew : Bool := false
  learnRested : Bool := false
  learnTopSoc : Int := 0
  learnEndSoc : Int := 0
  learnPc : Int := 0
  learnUs : Nat := 0
  minutePc : Int := 0
  minuteUs : Nat := 0
  learnedMah : Nat := 0
  learnedHt : Nat := 0
  -- parameter sets (R200, R201, R217)
  params : Option (List Byte) := none
  shadow : Option (List Byte) := none
  pending : Nat := 0
  outcome : Nat := 0
  paramSeq : Nat := 0
  deriving DecidableEq, Repr

/-- Pack-bay states (PKB_STATUS.STATE). Checking lies within PACK_PRESENCE_DETECT. -/
inductive Bay where
  | absent | debouncing | settling | inService | window | draining | removable | faultOpen
  deriving DecidableEq, Repr

/-- Charger phases (PKB_CHG_STATUS.PHASE); a pause shows while its cause holds. -/
inductive ChgPhase where
  | off | current | voltage | done
  deriving DecidableEq, Repr

/-- The pack bay and charger (chapter 12). `desc` holds the descriptor as read, nothing while no pack
is present; `held` the µs for which the condition of a timed fault has held (bit n of Table 12.5), and
`clearUs` that of its clearing. -/
structure Pkb where
  ctl : W32 := 1
  bay : Bay := .absent
  switchClosed : Bool := false
  desc : List Byte := []
  descOk : Bool := false
  fault : W32 := 0
  faultAct : W32 := 0
  held : Tab Nat := []
  clearUs : Tab Nat := []
  chgCtl : W32 := 0x005F2801
  chgRetry : Bool := false
  chgPhase : ChgPhase := .off
  chgUs : Nat := 0
  chgMa : Nat := 0
  chgPc : Nat := 0
  vPack : Nat := 0
  insertions : Nat := 0
  orderly : Nat := 0
  surprise : Nat := 0
  cancels : Nat := 0
  ignored : Nat := 0
  removeHt : Nat := 0
  released : Bool := false
  cutoff : Bool := false
  deriving DecidableEq, Repr

/-- What the device sends out of itself (model): ring entries, DMA, interrupts, TLPs, frames,
replies. Newest first in `Dev.outbox`. -/
inductive Out where
  | ringEntry (fn ring index : Nat) (phase : Bool) (bytes : List Byte)
  | hostWrite (fn addr len : Nat) (cells : List Cell) (ep : Bool) (relaxed : Bool := false)
  | hostRead (tag fn addr len : Nat) (relaxed : Bool)
  | msix (fn vector : Nat) (addr : W64) (data : W32)
  | readCompletion (fn : Nat) (status : CplStatus) (data : List Byte) (ep : Bool)
  | advisoryUr (fn : Nat)
  | aer (kind : Nat)
  | frame (port : Nat) (f : Frame) (wire : List Byte)
  | ptmRequest (ht : Nat)
  | linkState (request : Nat)
  | smbus (bytes : List Nat)
  | tdo (bits value : Nat)
  deriving DecidableEq, Repr

/-- Everything of the device but its cache DRAM and its command queue. `freeCtr` counts the free
values drawn (model); `outbox` and the next identifiers are the model's own. -/
structure Dev where
  board : Board := {}
  pins : Pins := {}
  chp : Chp := {}
  tmb : Tmb := {}
  spw : Spw := {}
  cur : Curtain := {}
  int : Intermission := {}
  adm : Adm := {}
  pages : Tab Page := []
  exts : List Extent := []
  blk : Tab Blk := []
  cells : Tab CellSt := []
  flash : Flash := {}
  stgCtl : W32 := 0x00640258
  stgWear : W32 := 0x01000000
  stgScrub : W32 := 0x00A83200
  stgCompact : W32 := 5
  stgReserve : W32 := 64
  err : Err := {}
  obs : Obs := {}
  fns : Tab FnSt := []
  mrg : Mrg := {}
  descs : List Desc := []
  ept : Ept := {}
  cip : Cip := {}
  idx : Idx := {}
  drc : Drc := {}
  enc : Enc := {}
  reh : Reh := {}
  svc : Svc := {}
  rom : Rom := {}
  hrk : Hrk := {}
  est : Est := {}
  pkb : Pkb := {}
  halfLatch : List (Reg × W32) := []
  readLatch : List (Reg64 × W32) := []
  freeCtr : Nat := 0
  nextHandle : Nat := 1
  nextEid : Nat := 1
  wrrFn : Nat := 1
  outbox : List Out := []
  deriving DecidableEq, Repr

/-- The whole state: the device, the content of its cache DRAM (canonical list of non-zero bytes by
cache address; an unlisted byte reads zero), and the commands waiting, first in first out. -/
structure State where
  dev : Dev := {}
  dram : List Host.Cell := []
  pending : List Instr := []
  deriving DecidableEq, Repr

/-- Why the machine stops. -/
inductive Fault where
  /-- Raised by MAIN_SUPPLY_GOOD, FAIL_RELEASE and WARN_RELEASE on a level above the absolute maximum
  rating of Table 21.1, beyond which R354 gives no behaviour. Safe. -/
  | absoluteMaximum
  deriving DecidableEq, Repr

/-- Why a command has no meaning. -/
inductive Refusal where
  /-- Raised by an arm of `exec` that has no meaning yet, with the row's mnemonic. Safe. -/
  | notModelled (mnemonic : String)
  deriving DecidableEq, Repr

/-- The device right after power-on: BOOT entered from DARK by row 12, a factory-shipped image, the
registers at the Reset column of chapter 23. -/
def State.reset : State := {}

end Sys2Proof.Machine
end

