-- ==== Sys2Proof/Machine/Operands.lean ====
section
/-!
DEFINITION. Operand forms: bit fields of register words, little-endian byte forms (R9), the check
code of the image (R157), sparse tables, and the values that register fields act as (R13).
-/

namespace Sys2Proof

/-- The entry of index `k`, or the table's default. -/
def Tab.get {α : Type} (dflt : α) (t : Tab α) (k : Nat) : α :=
  match t with
  | [] => dflt
  | (i, v) :: rest => if i = k then v else Tab.get dflt rest k

/-- The table with index `k` set to `v`. -/
def Tab.set {α : Type} (t : Tab α) (k : Nat) (v : α) : Tab α :=
  match t with
  | [] => [(k, v)]
  | (i, w) :: rest => if i = k then (k, v) :: rest else (i, w) :: Tab.set rest k v

/-- The table with index `k` changed by `f`. -/
def Tab.upd {α : Type} (dflt : α) (t : Tab α) (k : Nat) (f : α → α) : Tab α :=
  Tab.set t k (f (Tab.get dflt t k))

/-- Every listed entry changed by `f`. -/
def Tab.mapVals {α β : Type} (f : α → β) (t : Tab α) : Tab β := t.map (fun e => (e.1, f e.2))

/-- The table without index `k`. -/
def Tab.drop {α : Type} (t : Tab α) (k : Nat) : Tab α :=
  t.filter (fun e => e.1 ≠ k)

namespace Machine

/-- Bits `lo + len - 1 : lo` of a word, as a number. -/
def field {n : Nat} (w : BitVec n) (lo len : Nat) : Nat := (w.toNat >>> lo) % 2 ^ len

/-- One bit of a word. -/
def bit {n : Nat} (w : BitVec n) (i : Nat) : Bool := w.getLsbD i

/-- `v` brought into `lo` to `hi`: out-of-range values act as the nearer limit. -/
def clamp (lo hi v : Nat) : Nat := if v < lo then lo else if hi < v then hi else v

/-- A saturating count of `bits` bits. -/
def satAdd (bits n k : Nat) : Nat := min (n + k) (2 ^ bits - 1)

def boolNat (b : Bool) : Nat := if b then 1 else 0

/-- `n` bytes of `v`, least significant first (R9). -/
def leBytes : Nat → Nat → List Byte
  | 0, _ => []
  | n + 1, v => BitVec.ofNat 8 v :: leBytes n (v / 256)

/-- The number whose bytes, least significant first, are `bs`. -/
def ofBytes : List Byte → Nat
  | [] => 0
  | b :: bs => b.toNat + 256 * ofBytes bs

/-- One bit of CRC-32C, processed reflected. -/
def crcBit (c : W32) : W32 :=
  if c.getLsbD 0 then (c >>> 1) ^^^ 0x82F63B78 else c >>> 1

def crcByte (c : W32) (b : Byte) : W32 :=
  let c0 := c ^^^ b.zeroExtend 32
  crcBit (crcBit (crcBit (crcBit (crcBit (crcBit (crcBit (crcBit c0)))))))

/-- CRC-32C of a byte string (R157). -/
def crc32c (bs : List Byte) : W32 := (bs.foldl crcByte 0xFFFFFFFF) ^^^ 0xFFFFFFFF

/-- The CRC of bytes 0 to n − 1 appended in 4 bytes. -/
def withCrc (bs : List Byte) : List Byte := bs ++ leBytes 4 (crc32c bs).toNat

def zeros (n : Nat) : List Byte := List.replicate n 0

/-- Code of a mode (Table 2.1). -/
def Mode.code : Mode → Nat
  | .dark => 0 | .boot => 1 | .encore => 2 | .reconcile => 3 | .armed => 4 | .derated => 5
  | .writeThrough => 6 | .rehearsal => 7 | .intermission => 8 | .curtain => 9 | .sealed => 10
  | .service => 11

/-- The kind byte of a record head (Table 9.6). -/
def RKind.code : RKind → Nat
  | .stage => 1 | .curtain => 2 | .unack => 3 | .list => 4 | .releaseNote => 5 | .lossNote => 6
  | .retire => 7 | .book => 8 | .test => 9 | .expose => 10 | .safe => 11

def Link.code : Link → Nat
  | .down => 0 | .training => 1 | .l0 => 2 | .l0p => 3 | .l1 => 4 | .l11 => 5 | .l12 => 6
  | .abandoned => 7

/-- Completion entry bytes (Table 14.4). -/
def cplBytes (c : Cpl) (phase : Bool) : List Byte :=
  leBytes 8 c.ht ++ leBytes 8 c.result ++ leBytes 5 c.bytes ++ leBytes 3 (min c.delay 0xFFFFFF)
    ++ leBytes 2 c.descId ++ leBytes 2 c.sqHead ++ leBytes 1 c.status ++ leBytes 1 (c.sqId % 16)
    ++ leBytes 1 (c.fn % 64)
    ++ leBytes 1 (boolNat phase + 2 * (c.cls % 4) + 8 * boolNat c.orphan)

/-- Widths in bytes of an event's payload fields (R270, Table 14.8): an event payload is written as
64-bit little-endian fields in the table's order, padded to 48 bytes. Log entry 12. -/
def eventBytes (e : Event) (phase : Bool) : List Byte :=
  let body := e.payload.foldr (fun v acc => leBytes 8 v ++ acc) []
  leBytes 8 e.ht ++ leBytes 2 e.type ++ leBytes 1 e.fn ++ leBytes 1 (boolNat phase)
    ++ leBytes 4 e.seq ++ (body ++ zeros 48).take 48

/-- Trace event bytes (Table 20.1). -/
def traceBytes (t : TraceEv) (phase : Bool) : List Byte :=
  leBytes 8 t.ht ++ leBytes 2 t.type ++ leBytes 1 t.island
    ++ leBytes 1 (boolNat phase + 2 * boolNat t.gap) ++ leBytes 4 t.seq ++ leBytes 8 t.a
    ++ leBytes 8 t.b

/-- Fault record bytes (Table 19.1). -/
def faultBytes (f : FaultRec) : List Byte :=
  withCrc (leBytes 8 f.ht ++ leBytes 4 f.seq ++ leBytes 4 f.cause ++ leBytes 2 f.code
    ++ leBytes 1 f.level ++ leBytes 1 f.island ++ leBytes 1 f.severity ++ leBytes 1 f.mode
    ++ leBytes 1 f.fn ++ leBytes 1 f.target ++ leBytes 2 f.unit ++ leBytes 2 f.segment ++ zeros 4
    ++ leBytes 8 f.caddr ++ leBytes 8 f.bytes ++ leBytes 12 f.detail)

/-- The LOC field of a run descriptor (Table 9.7). -/
def Run.loc (r : Run) : Nat :=
  r.caddr % 2 ^ 40 + (r.extPages - 1) * 2 ^ 40 + r.runStart * 2 ^ 48 + (r.runPages - 1) * 2 ^ 56

/-- Run descriptor bytes (Table 9.7). -/
def runBytes (r : Run) (poisoned : Bool) : List Byte :=
  leBytes 8 r.ht ++ leBytes 8 r.tag ++ leBytes 8 r.loc ++ leBytes 4 r.seq ++ leBytes 1 (r.cls % 16)
    ++ leBytes 1 (boolNat r.unack + 2 * boolNat poisoned) ++ leBytes 2 r.descId

/-- List entry bytes (Table 9.9), also the report entry of KEY_ERASE (R266). -/
def listEntryBytes (e : ListEntry) : List Byte :=
  leBytes 8 e.ht
    ++ leBytes 8 (e.caddr % 2 ^ 40 + (e.pages - 1) * 2 ^ 40 + e.fn * 2 ^ 48
        + boolNat e.unack * 2 ^ 56 + boolNat e.amend * 2 ^ 57)
    ++ leBytes 8 e.tag ++ leBytes 4 e.seq ++ leBytes 2 e.descId ++ leBytes 1 (e.cls % 16) ++ zeros 1

/-- A cache-function submission entry in host memory (R254, Table 14.2). -/
def sqBytes (e : SqEntry) : List Byte :=
  leBytes 1 e.opcode ++ leBytes 1 e.flags.toNat ++ leBytes 2 e.descId ++ leBytes 2 e.deadline ++ zeros 2
    ++ leBytes 8 e.tag ++ leBytes 8 e.caddr ++ leBytes 2 e.pages ++ zeros 6 ++ leBytes 8 e.haddr
    ++ leBytes 4 e.hlen ++ zeros 4 ++ leBytes 8 e.p0.toNat ++ leBytes 8 e.p1

/-- The number in `n` bytes at an offset (R9). -/
def fieldAt (bs : List Byte) (off n : Nat) : Nat := ofBytes ((bs.drop off).take n)

/-- The entry that 64 bytes of host memory spell; reserved bits are ignored (R254). -/
def sqEntryOf (bs : List Byte) : SqEntry :=
  { opcode := fieldAt bs 0 1, flags := BitVec.ofNat 8 (fieldAt bs 1 1), descId := fieldAt bs 2 2
    deadline := fieldAt bs 4 2, tag := fieldAt bs 8 8, caddr := fieldAt bs 16 8 % 2 ^ 40, pages := fieldAt bs 24 2
    haddr := fieldAt bs 32 8, hlen := fieldAt bs 40 4, p0 := BitVec.ofNat 64 (fieldAt bs 48 8)
    p1 := fieldAt bs 56 8 }

/-- A scatter-list entry (R256). -/
def sglBytes (g : SglEntry) : List Byte := leBytes 8 g.addr ++ leBytes 4 g.len ++ zeros 4
def sglEntryOf (bs : List Byte) : SglEntry := { addr := fieldAt bs 0 8, len := fieldAt bs 8 4 }

/-! ### Harka frames (Tables 10.2 to 10.6, R188) -/

def cueBytes (c : CueFrame) : List Byte :=
  leBytes 8 c.t1 ++ leBytes 8 c.t4 ++ leBytes 4 c.u ++ leBytes 4 c.f ++ leBytes 2 c.seq ++ leBytes 1 c.depth
    ++ leBytes 1 (boolNat c.takeover + 2 * boolNat c.deposed) ++ leBytes 2 c.gmIdx ++ zeros 2
    ++ leBytes 4 c.epochId ++ zeros 4

def cueRespBytes (r : CueRespFrame) : List Byte :=
  leBytes 2 r.seq ++ leBytes 1 (boolNat r.followsTakeover) ++ zeros 1 ++ leBytes 2 r.gmIdx ++ zeros 2

def joinBytes (j : JoinFrame) : List Byte :=
  leBytes 8 j.serial ++ leBytes 2 j.storedIdx ++ leBytes 1 j.populated ++ leBytes 1 (boolNat j.takeoverEn)
    ++ leBytes 4 j.epochId

def assignBytes (a : AssignFrame) : List Byte :=
  leBytes 2 a.index ++ leBytes 1 a.depth ++ leBytes 1 a.result ++ leBytes 2 a.gmIdx ++ zeros 2

def statusBytes (s : StatusFrame) : List Byte :=
  withCrc (leBytes 2 s.hidx ++ leBytes 1 s.mode ++ leBytes 1 s.derate ++ leBytes 1 s.timeByte ++ leBytes 1 s.flags
    ++ leBytes 1 s.blocks ++ leBytes 1 s.heldOut ++ leBytes 4 s.eAvail ++ leBytes 4 s.pCurtain ++ leBytes 8 s.budget
    ++ leBytes 8 s.unstaged ++ leBytes 8 s.shortfall ++ leBytes 8 s.rehHt ++ leBytes 8 s.sentHt
    ++ leBytes 2 s.packTemp ++ leBytes 2 s.gauge)

def dirBytes (e : DirEntry) : List Byte :=
  leBytes 8 e.serial ++ leBytes 2 e.hidx ++ leBytes 1 e.fn ++ leBytes 1 e.blocks ++ leBytes 1 e.state
    ++ leBytes 1 e.custody ++ leBytes 2 e.updates

def summaryBytes (s : SummaryFrame) (kind : Nat) : List Byte :=
  withCrc (leBytes 8 s.newestHt ++ leBytes 8 s.sealHt ++ leBytes 8 s.firstHt ++ leBytes 8 s.lastHt
    ++ leBytes 8 s.entries ++ leBytes 4 s.lost ++ leBytes 4 s.untrusted ++ leBytes 4 s.keyPending
    ++ leBytes 4 s.epochId ++ leBytes 1 s.heldOut ++ leBytes 1 kind ++ zeros 2)

def keyBytes (k : OrderKey) : List Byte :=
  leBytes 8 k.ht ++ leBytes 4 k.seq ++ leBytes 2 k.hidx ++ leBytes 1 k.fn ++ leBytes 1 k.cls ++ leBytes 4 k.epochId
    ++ leBytes 4 k.localIdx

/-- FIRST, COUNT and 2 reserved bytes of RECON_KEYS and RECON_RESULT. -/
def listHead (first n : Nat) : List Byte := leBytes 4 first ++ leBytes 2 n ++ zeros 2

def keysBytes (first : Nat) (ks : List OrderKey) : List Byte := listHead first ks.length ++ ks.flatMap keyBytes

/-- Each result holds POSITION and GROUP; CONC follows from the groups. -/
def resultsBytes (first : Nat) (ps : List OrderPlace) : List Byte :=
  listHead first ps.length ++ ps.flatMap (fun p => leBytes 8 p.position ++ leBytes 8 p.group)

def reconDoneBytes (merged : Nat) : List Byte := leBytes 2 merged ++ zeros 6
def ackBytes (seq status : Nat) : List Byte := leBytes 4 seq ++ leBytes 1 status ++ zeros 3

/-- XFER_OPEN, XFER_ACK, XFER_CLOSE and XFER_ABORT are given fields and no layout (R190): each is laid out in
8 bytes, in the order in which the rule names them. DESIGN CHOICE (log entry 141). -/
def words (l : List Nat) : List Byte := l.flatMap (leBytes 8)

def xferOpenBytes (f : XferOpenFrame) : List Byte :=
  words [f.srcIdx, f.srcSerial, f.dstSerial, f.srcBlock, f.dstBlock, f.slot, f.kcv, f.session]

/-- A frame on the wire (R181, Table 10.2): header with its CRC, then the payload with its own. -/
def Frame.bytes (f : Frame) : List Byte :=
  withCrc (leBytes 1 f.type ++ leBytes 1 (boolNat f.ackReq + 2 * boolNat f.retry) ++ leBytes 2 f.payload.length
    ++ leBytes 2 f.src ++ leBytes 2 f.dst ++ leBytes 4 f.seq)
    ++ (if f.payload = [] then [] else withCrc f.payload)

/-- Bytes that a payload takes on the wire with its header and CRC (R181). -/
def wireLen (payload : List Byte) : Nat := if payload = [] then 16 else 20 + payload.length

/-- The values that fields of the set-up registers act as (R13), one for each. -/
def Tmb.slew10 (t : Tmb) : Nat :=
  let v := field t.ctl 0 4
  if v = 0 ∨ 10 < v then 10 else v
def Tmb.src (t : Tmb) : Nat := field t.ctl 4 2
def Tmb.ppsFalling (t : Tmb) : Bool := bit t.ctl 8
def Tmb.ppsOutEn (t : Tmb) : Bool := bit t.ctl 9
def Tmb.holdoverN (t : Tmb) : Nat := max 2 (field t.ctl 12 4)
def Spw.goodMv (s : Spw) : Nat := 20 * field s.thresh 20 10
def Spw.warnMv (s : Spw) : Nat := 20 * field s.thresh 10 10
def Spw.failMv (s : Spw) : Nat := 20 * field s.thresh 0 10
def Spw.deglitch (s : Spw) : Nat := clamp 2 50 (field s.ctl 16 8)
def Spw.intEn (s : Spw) : Bool := bit s.ctl 3
def Spw.keepUnstaged (s : Spw) : Bool := bit s.ctl 4
def Spw.retain (s : Spw) : Bool := bit s.ctl 0
def Spw.qualMs (s : Spw) : Nat := clamp 10 10000 (field s.resumeQual 0 16)
def Spw.holdS (s : Spw) : Nat := min 14400 (field s.sealHold 0 16)
def Spw.timerS (s : Spw) : Nat := clamp 1 14400 (field s.intTimer 0 16)
def Spw.marginPct (s : Spw) : Nat := clamp 5 50 (field s.intMargin 0 8)
def Adm.deadline100us (a : Adm) : Nat := clamp 1 10000 (field a.ctl 16 16)
def Adm.weight (a : Adm) (f : Nat) : Nat := max 1 (field (Tab.get 0x101 a.fnCfg f) 0 8)
def Adm.borrow (a : Adm) (f : Nat) : Bool := bit (Tab.get 0x101 a.fnCfg f) 8
def Adm.reserve (a : Adm) (b : Nat) : Nat := (Tab.get 15000 a.sealReserve b).toNat
def Dev.stageDelayTicks (d : Dev) : Nat := min 6000 (field d.stgCtl 16 16) * 40000000
def Dev.compactAgeTicks (d : Dev) : Nat := max 60 (field d.stgCtl 0 16) * 4000000000
def Dev.debtWarnBytes (d : Dev) : Nat := max 1 (field d.stgWear 16 16) * 1000000000
def Dev.scrubThresh (d : Dev) : Nat := clamp 25 90 (field d.stgScrub 8 8)
def Dev.reserveBytes (d : Dev) : Nat := clamp 64 4096 d.stgReserve.toNat * 1048576
def Ept.grace10ms (e : Ept) : Nat := clamp 1 6000 (field e.ctl 16 16)
def Ept.hostLossPolicy (e : Ept) : Nat :=
  let v := field e.ctl 0 2
  if v = 3 then 0 else v
def Hrk.reconMs (h : Hrk) : Nat := clamp 100 600000 h.reconTimeout.toNat
def Hrk.rehMaxPct (h : Hrk) : Nat := clamp 1 50 (field h.rehCtl 16 8)
def Hrk.rehPeriodDays (h : Hrk) : Nat := max 1 (field h.rehCtl 8 8)
def Hrk.rehEn (h : Hrk) : Bool := bit h.rehCtl 0
def Hrk.standbyPort (h : Hrk) : Nat := field h.ctl 12 4

end Machine

end Sys2Proof
end

