-- ==== Sys2Proof/Machine/Ops.lean ====
section
/-!
DEFINITION. The named operations over the state: cache DRAM, blocks and cells, stamps, counters,
trace, fault records, rings with their completions, events and interrupts, and the mode
transition. Meanings are written over these.
-/

namespace Sys2Proof.Machine

/-- The outcome type of a command. -/
abbrev Answer := Host.Outcome State Fault Refusal

/-- A command that changes nothing of the cache DRAM. -/
def onDev (f : Dev → Dev) (s : State) : Answer := .next { s with dev := f s.dev }

/-- A command whose effect reads the cache DRAM and does not write it. -/
def onDevReading (f : List Host.Cell → Dev → Dev) (s : State) : Answer :=
  .next { s with dev := f s.dram s.dev }

/-- A command that changes both. -/
def onBoth (f : Dev × List Host.Cell → Dev × List Host.Cell) (s : State) : Answer :=
  let r := f (s.dev, s.dram)
  .next { s with dev := r.1, dram := r.2 }

/-! ### Cache DRAM: a canonical list of non-zero bytes at rising addresses -/

/-- The byte at a cache address; an unlisted byte reads zero. -/
def memRead (m : List Host.Cell) (a : Nat) : Byte :=
  match m with
  | [] => 0
  | (k, v) :: rest => if k = a then v else memRead rest a

/-- Write one byte, keeping the canonical form. -/
def memWrite (m : List Host.Cell) (a : Nat) (v : Byte) : List Host.Cell :=
  match m with
  | [] => if v = 0 then [] else [(a, v)]
  | (k, w) :: rest =>
    if a < k then (if v = 0 then (k, w) :: rest else (a, v) :: (k, w) :: rest)
    else if k = a then (if v = 0 then rest else (a, v) :: rest)
    else (k, w) :: memWrite rest a v

/-- Write consecutive bytes from an address. -/
def memWriteBytes (m : List Host.Cell) (a : Nat) : List Byte → List Host.Cell
  | [] => m
  | b :: bs => memWriteBytes (memWrite m a b) (a + 1) bs

/-- Consecutive bytes from an address. -/
def memReadBytes (m : List Host.Cell) (a : Nat) : Nat → List Byte
  | 0 => []
  | n + 1 => memRead m a :: memReadBytes m (a + 1) n

/-- Zero every byte of a range. -/
def memClear (m : List Host.Cell) (a len : Nat) : List Host.Cell :=
  m.filter (fun c => !(a ≤ c.1 && c.1 < a + len))

/-- The listed bytes of a range. -/
def memSlice (m : List Host.Cell) (a len : Nat) : List Host.Cell :=
  m.filter (fun c => a ≤ c.1 && c.1 < a + len)

/-- Write a list of cells. -/
def memOverlay (m : List Host.Cell) (cells : List Host.Cell) : List Host.Cell :=
  cells.foldl (fun acc c => memWrite acc c.1 c.2) m

/-- The canonical form of cache DRAM. -/
abbrev Memory.wf (m : List Host.Cell) : Prop :=
  m.Pairwise (fun x y => x.1 < y.1) ∧ ∀ c ∈ m, c.2 ≠ 0

/-! ### Geometry (R15, R16) -/

def gib : Nat := 1073741824
def mib : Nat := 1048576
def pageBytes : Nat := 4096
def blockSpan : Nat := 0x2000000000

def populated (d : Dev) (b : Nat) : Bool := b < d.board.blocks
def blockList (d : Dev) : List Nat := List.range d.board.blocks
def usable (d : Dev) : Nat :=
  let c := d.board.moduleGib * gib
  c - c / 32 - c / 128
def blockOf (a : Nat) : Nat := a / blockSpan
def pageOf (a : Nat) : Nat := a / pageBytes
def pageAddr (p : Nat) : Nat := p * pageBytes
/-- A range wholly within one populated block's usable range (R17). -/
def rangeBacked (d : Dev) (a len : Nat) : Bool :=
  populated d (blockOf a) && a % blockSpan + len ≤ usable d
def pagesOf (a n : Nat) : List Nat := (List.range n).map (fun i => pageOf a + i)

def getBlk (d : Dev) (b : Nat) : Blk := Tab.get {} d.blk b
def updBlk (b : Nat) (f : Blk → Blk) (d : Dev) : Dev := { d with blk := Tab.upd {} d.blk b f }
def getCell (d : Dev) (c : Nat) : CellSt := Tab.get {} d.cells c
def updCell (c : Nat) (f : CellSt → CellSt) (d : Dev) : Dev :=
  { d with cells := Tab.upd {} d.cells c f }
def getFn (d : Dev) (f : Nat) : FnSt := Tab.get {} d.fns f
def updFn (f : Nat) (g : FnSt → FnSt) (d : Dev) : Dev := { d with fns := Tab.upd {} d.fns f g }
def getPage (d : Dev) (p : Nat) : Page := Tab.get {} d.pages p
def updPage (p : Nat) (g : Page → Page) (d : Dev) : Dev := { d with pages := Tab.upd {} d.pages p g }
def updPages (ps : List Nat) (g : Page → Page) (d : Dev) : Dev :=
  ps.foldl (fun d p => updPage p g d) d
def getSlot (d : Dev) (s : Nat) : Slot := Tab.get {} d.cip.slots s
def updSlot (s : Nat) (g : Slot → Slot) (d : Dev) : Dev :=
  { d with cip := { d.cip with slots := Tab.upd {} d.cip.slots s g } }
def updPort (p : Nat) (g : Port → Port) (d : Dev) : Dev :=
  { d with hrk := { d.hrk with ports := Tab.upd {} d.hrk.ports p g } }
def fnNumbers : List Nat := (List.range 63).map (· + 1)

def cellsOfBlock (b : Nat) : List Nat := (List.range 8).map (fun i => 8 * b + i)
def workingCells (d : Dev) (b : Nat) : List Nat :=
  (cellsOfBlock b).filter (fun c => !(getCell d c).failed)
def workingPipes (d : Dev) (b : Nat) : Nat :=
  boolNat (getBlk d b).pipe0Ok + boolNat (getBlk d b).pipe1Ok
/-- rate_block of R21, in kB/s. -/
def rateBlock (d : Dev) (b : Nat) : Nat :=
  if populated d b then min (2812500 * (workingCells d b).length) (18000000 * workingPipes d b) else 0
/-- The other block of a block's region (R15). -/
def partner (b : Nat) : Nat := if b % 2 = 0 then b + 1 else b - 1
/-- A block out of admission: fenced (R24), or held out, which counts as fenced (R135). -/
def blkOut (d : Dev) (b : Nat) : Bool := (getBlk d b).fenced || (getBlk d b).heldOut
/-- rate_b of Table 4.1 in kB/s: R21, halved by a cross-block save (R23), nothing for a fence. -/
def rateB (d : Dev) (b : Nat) : Nat :=
  if !populated d b || blkOut d b then 0
  else if (getBlk d b).crossSave then rateBlock d (partner b) / 2
  else if (getBlk d (partner b)).crossSave && populated d (partner b) then rateBlock d b / 2
  else if (getBlk d b).pathFailed then 0
  else rateBlock d b

/-! ### Stamps, free values, counters -/

/-- The shortest distance between two slewing cycles, by R56's once per 10,000 cycles and by
TMB_CTL.SLEW: one tick in 25,000 ÷ SLEW cycles is SLEW × 10 ppm. -/
def Tmb.slewGap (t : Tmb) : Nat := max 10000 (25000 / t.slew10)

/-- Ticks by which the time base advances in the present cycle: four, or three or five where it slews
(R56), toward its target or at the frequency it holds (R55, R58). -/
def Tmb.span (t : Tmb) : Nat :=
  let since := t.cycles + 1 - t.slewedAt
  if t.held then (if t.slewGap + t.heldGap ≤ since then (if t.heldUp then 5 else 3) else 4)
  else if t.lag ≠ 0 ∧ t.slewGap ≤ since then (if 0 < t.lag then 3 else 5)
  else 4

/-- The present cycle ends: HT is the next cycle's base tick. -/
def Tmb.closeCycle (t : Tmb) : Tmb :=
  let n := t.span
  let t := { t with cycles := t.cycles + 1, slot := 0, ht := t.ht - t.slot + max n t.slot }
  if n = 4 then t
  else { t with
    slewedAt := t.cycles
    lag := if t.held then t.lag else if n = 3 then t.lag - 1 else t.lag + 1 }

/-- One commit accepted: it took the tick `ht`. Four fill a cycle, three one of three ticks (R28, R56). -/
def Tmb.accept (t : Tmb) : Tmb :=
  let t := { t with ht := t.ht + 1, slot := t.slot + 1 }
  if min 4 t.span ≤ t.slot then t.closeCycle else t

/-- One stamp at the ordering point: base tick of the cycle plus the commits accepted in it, so that
stamps are strictly increasing and never repeated (R28). -/
def stamp (d : Dev) : Nat × Dev := (d.tmb.ht, { d with tmb := d.tmb.accept })

/-- A value the spec leaves open: an opaque constant at a fresh index. -/
def fresh (d : Dev) : Nat × Dev :=
  ((Config.freshWord d.freeCtr).toNat, { d with freeCtr := d.freeCtr + 1 })

/-- Add `k` to counter `n` of OBS_CNT (R349), modulo 2⁶⁴. -/
def count (n k : Nat) (d : Dev) : Dev :=
  { d with obs := { d.obs with cnt := Tab.upd 0 d.obs.cnt n (fun v => (v + k) % 2 ^ 64) } }
def countFn (f k v : Nat) (d : Dev) : Dev := if f = 0 then d else count (64 + 16 * (f - 1) + k) v d
def countBlk (b k v : Nat) (d : Dev) : Dev := count (1088 + 32 * b + k) v d
def countCell (c k v : Nat) (d : Dev) : Dev := count (1536 + 8 * c + k) v d
def countPort (p k v : Nat) (d : Dev) : Dev := count (2048 + 8 * p + k) v d
def countChip (k v : Nat) (d : Dev) : Dev := count (2144 + k) v d

/-- Largest payload of a function's TLPs (Device Control, R238). -/
def maxPayload (d : Dev) (f : Nat) : Nat := 128 * 2 ^ min 2 (field (getFn d f).devCtl 5 3)

/-- TLPs that an output takes (counter 1 of Table 20.3). -/
def tlpsOf (d : Dev) : Out → Nat
  | .ringEntry .. => 1
  | .hostWrite f _ len _ _ _ => (len + maxPayload d f - 1) / maxPayload d f
  | .hostRead .. => 1
  | .msix .. => 1
  | .readCompletion .. => 1
  | _ => 0

/-- Something the device sends out of itself. -/
def emit (o : Out) (d : Dev) : Dev := { count 1 (tlpsOf d o) d with outbox := o :: d.outbox }

/-! ### Link and functions -/

/-- The link carries TLPs (R246): L0, L0p or L1. -/
def linkUp (d : Dev) : Bool :=
  match d.ept.link with
  | .l0 | .l0p | .l1 | .l11 | .l12 => true
  | .down | .training | .abandoned => false

/-- A posted write or a completion that the endpoint discards and counts (R109). -/
def discardTlp (d : Dev) : Dev := { d with ept := { d.ept with discardRun := satAdd 32 d.ept.discardRun 1 } }

/-- What has crossed the link (log entry 155): TLPs received and sent (counters 0 and 1 of Table 20.3) and PTM requests. -/
def linkTraffic (d : Dev) : Nat :=
  Tab.get 0 d.obs.cnt 0 + Tab.get 0 d.obs.cnt 1
    + (d.outbox.filter (fun o => match o with | .ptmRequest _ => true | _ => false)).length

/-- The link's state now: L1 and its substates last until something crosses the link, which wakes it (R242). -/
def linkNow (d : Dev) : Link :=
  match d.ept.link with
  | .l1 | .l11 | .l12 =>
    if linkTraffic d = d.ept.l1Mark then d.ept.link else if d.ept.lanes = d.ept.width then .l0 else .l0p
  | l => l

def fnPresent (d : Dev) (f : Nat) : Bool := 1 ≤ f && f ≤ d.ept.fnCountNow
def fnDisabled (d : Dev) (f : Nat) : Bool :=
  !(getFn d f).busMaster || bit d.ept.fnDisable f || (getFn d f).d3hot
def fnEnabled (d : Dev) (f : Nat) : Bool := fnPresent d f && !fnDisabled d f

/-! ### MSI-X (R233, R252) -/

/-- Send a vector's message, or set its pending bit while it is masked. -/
def msixSend (f v : Nat) (d : Dev) : Dev :=
  let e := Tab.get {} (getFn d f).msix v
  if e.masked then updFn f (fun s => { s with msix := Tab.set s.msix v { e with pend := true } }) d
  else count 6 1 (emit (.msix f v e.addr e.data) d)

/-! ### Rings -/

def ringSize (r : Ring) : Nat := 2 ^ field r.cfg 0 5
/-- Entries a device-written ring can take before its host frees some (R251). Log entry 14. -/
def ringFull (r : Ring) : Bool := (r.dev + 1) % ringSize r = r.host
def coalCount (r : Ring) : Nat := max 1 (field r.cfg 8 8)

/-- The ring after one entry is written: next position, phase inverted after the last entry, and
one more entry since the last message. -/
def ringAdvance (r : Ring) : Ring :=
  let n := r.dev + 1
  if n = ringSize r then { r with dev := 0, phase := !r.phase, unsent := r.unsent + 1 }
  else { r with dev := n, unsent := r.unsent + 1 }

def mrgRing (d : Dev) (r : Nat) : Ring :=
  Tab.get { cfg := if r = 0 ∨ r = 1 then 0x104 else if r = 2 then 0x106 else if r = 3 then 0x10B else 0x10A,
            phase := r ≠ 0 } d.mrg.rings r
def setMrgRing (r : Nat) (g : Ring) (d : Dev) : Dev :=
  { d with mrg := { d.mrg with rings := Tab.set d.mrg.rings r g } }
def cqRing (d : Dev) (f n : Nat) : Ring := Tab.get { cfg := 0x104 } (getFn d f).cq n
def setCqRing (f n : Nat) (g : Ring) (d : Dev) : Dev :=
  updFn f (fun s => { s with cq := Tab.set s.cq n g }) d
def sqRing (d : Dev) (f n : Nat) : Ring := Tab.get {} (getFn d f).sq n
def setSqRing (f n : Nat) (g : Ring) (d : Dev) : Dev :=
  updFn f (fun s => { s with sq := Tab.set s.sq n g }) d

/-- The management rings are served while the link is up and PF0 is a bus master (R245). -/
def mrgServed (d : Dev) : Bool := linkUp d && (getFn d 0).busMaster

/-- Send the ring's message once COAL_COUNT entries stand unsent (R252). -/
def coalesce (f : Nat) (r : Ring) (d : Dev) : Ring × Dev :=
  if coalCount r ≤ r.unsent then ({ r with unsent := 0 }, msixSend f (field r.cfg 24 6) d)
  else (r, d)

/-- Write one entry to management ring `r`. -/
def mrgWrite (r : Nat) (bytes : Bool → List Byte) (d : Dev) : Dev :=
  let g := mrgRing d r
  let d := emit (.ringEntry 0 r g.dev g.phase (bytes g.phase)) d
  let (g, d) := coalesce 0 (ringAdvance g) d
  setMrgRing r g d

/-- Whether management ring `r` can take an entry now. -/
def mrgOpen (d : Dev) (r : Nat) : Bool := mrgServed d && (mrgRing d r).en && !ringFull (mrgRing d r)

/-! ### Trace (R346 to R348) -/

/-- Write a trace event to the host ring, or count it lost (R347). -/
def traceHost (t : TraceEv) (d : Dev) : Dev :=
  let g := mrgRing d 4
  if !(bit d.obs.ctl 0 && bit d.obs.ctl (16 + t.type / 4096) && g.en && mrgServed d && !d.ept.tlpsCut)
  then d
  else if ringFull g then
    { d with obs := { d.obs with hostLost := satAdd 32 d.obs.hostLost 1, gapPend := true } }
  else
    let t := { t with gap := d.obs.gapPend }
    mrgWrite 4 (traceBytes t) { d with obs := { d.obs with gapPend := false } }

/-- One trace event: into the retained tail of 2,048 events, and to the host ring. -/
def trace (type island a b : Nat) (d : Dev) : Dev :=
  let t : TraceEv := { ht := d.tmb.ht, type, island, seq := d.obs.traceSeq, a, b }
  traceHost t { d with obs := { d.obs with
    traceSeq := (d.obs.traceSeq + 1) % 2 ^ 32, tail := (t :: d.obs.tail).take 2048 } }

/-! ### Events (R270) -/

/-- EVENTS_LOST is posted as soon as a place is free among the events that wait. -/
def sayLost (d : Dev) : Dev :=
  if d.mrg.lostUnsaid = 0 || 256 ≤ d.mrg.waiting.length then d
  else { d with mrg := { d.mrg with
    waiting := d.mrg.waiting ++ [{ ht := d.tmb.ht, type := 0x13, fn := 0, seq := d.mrg.eventSeq, payload := [d.mrg.lostUnsaid] }]
    lostUnsaid := 0, eventSeq := (d.mrg.eventSeq + 1) % 2 ^ 32 } }

/-- Write waiting events while the ring takes them. `n` bounds the events written. -/
def drainEvents : Nat → Dev → Dev
  | 0, d => d
  | n + 1, d =>
    if !mrgOpen d 2 then d
    else match d.mrg.waiting with
      | [] => d
      | e :: rest =>
        drainEvents n (mrgWrite 2 (eventBytes e) (sayLost { d with mrg := { d.mrg with waiting := rest } }))

/-- Post an event: it takes the next SEQ and waits for the event ring; beyond 256 waiting the
newest is dropped and counted. -/
def postEvent (type fn : Nat) (payload : List Nat) (d : Dev) : Dev :=
  let e : Event := { ht := d.tmb.ht, type, fn, seq := d.mrg.eventSeq, payload }
  let d := { d with mrg := { d.mrg with eventSeq := (d.mrg.eventSeq + 1) % 2 ^ 32 } }
  if 256 ≤ d.mrg.waiting.length then
    { d with mrg := { d.mrg with lost := satAdd 16 d.mrg.lost 1, lostUnsaid := d.mrg.lostUnsaid + 1 } }
  else drainEvents 257 { d with mrg := { d.mrg with waiting := d.mrg.waiting ++ [e] } }

/-! ### Completions (R251, R263, R269) -/

/-- Put a completion on the orphan ring's queue. -/
def orphanCpl (c : Cpl) (d : Dev) : Dev :=
  { d with mrg := { d.mrg with orphans := d.mrg.orphans ++ [{ c with orphan := true }] } }

/-- A function's completions that still wait go to the orphan ring, in the order in which they arose (R269). -/
def orphanWaiting (f : Nat) (d : Dev) : Dev :=
  (getFn d f).cqWait.foldl (fun d c => orphanCpl c d) (updFn f (fun s => { s with cqWait := [] }) d)

/-- Write waiting orphan completions while ring 3 takes them. -/
def drainOrphans : Nat → Dev → Dev
  | 0, d => d
  | n + 1, d =>
    match d.mrg.orphans with
    | [] => d
    | c :: rest =>
      if mrgOpen d 3 then
        drainOrphans n (count 5 1 (mrgWrite 3 (cplBytes c) { d with mrg := { d.mrg with orphans := rest } }))
      else d

/-- The completion ring that a submission ring of a function names (R247). -/
def cqOfSq (d : Dev) (f n : Nat) : Nat := field (sqRing d f n).cfg 20 4

/-- Write one completion to its own ring; the admin completion ring for function 0. -/
def cplWrite (c : Cpl) (d : Dev) : Dev :=
  if c.fn = 0 then count 5 1 (mrgWrite 1 (cplBytes c) d)
  else
    let n := cqOfSq d c.fn c.sqId
    let g := cqRing d c.fn n
    let d := emit (.ringEntry c.fn (16 + n) g.dev g.phase (cplBytes c g.phase)) d
    let (g, d) := coalesce c.fn (ringAdvance g) d
    count 5 1 (setCqRing c.fn n g d)

/-- Whether a completion's own ring can take it now. -/
def cplOpen (d : Dev) (c : Cpl) : Bool :=
  if c.fn = 0 then mrgOpen d 1
  else
    let g := cqRing d c.fn (cqOfSq d c.fn c.sqId)
    linkUp d && g.en && !ringFull g

/-- Write a function's waiting completions while their rings take them, those of one ring in order; a full ring
holds back its own alone (R251). -/
def drainCpls : Nat → Nat → Dev → Dev
  | 0, _, d => d
  | n + 1, f, d =>
    match (getFn d f).cqWait.find? (cplOpen d) with
    | none => d
    | some c => drainCpls n f (cplWrite c (updFn f (fun s => { s with cqWait := s.cqWait.erase c }) d))

/-- Descriptors whose completion waits for its ring: they stay in flight (R251). -/
def waitingDescs (d : Dev) : List Desc := d.fns.flatMap (fun e => e.2.cqWait.filterMap Cpl.desc)

/-- Deliver a completion: behind those of its ring already waiting; to the orphan ring for a function that is
disabled (R268); nothing reaches the host while the link is abandoned (R45, R108). -/
def deliver (c : Cpl) (d : Dev) : Dev :=
  if d.ept.link = .abandoned then d
  else if c.fn ≠ 0 && fnDisabled d c.fn then drainOrphans 2049 (orphanCpl c d)
  else drainCpls 2049 c.fn (updFn c.fn (fun s => { s with cqWait := s.cqWait ++ [c] }) d)

/-- Status codes (Table 14.5). -/
def stSuccess : Nat := 0x00
def stEnergy : Nat := 0x01
def stSpace : Nat := 0x02
def stQuota : Nat := 0x03
def stMode : Nat := 0x04
def stKey : Nat := 0x05
def stReset : Nat := 0x06
def stDisabled : Nat := 0x07
def stReadTimeout : Nat := 0x08
def stReadError : Nat := 0x09
def stPoisoned : Nat := 0x0A
def stUntrusted : Nat := 0x0B
def stLength : Nat := 0x0C
def stAlign : Nat := 0x0D
def stWindow : Nat := 0x0E
def stOpcode : Nat := 0x0F
def stNotFound : Nat := 0x11
def stMulti : Nat := 0x12
def stPlost : Nat := 0x13
def stBrownout : Nat := 0x14
def stBusy : Nat := 0x15
def stLost : Nat := 0x16

/-- Admission class of a completion (R264, Table 4.3): REFUSED for statuses 0x01 to 0x04, else the
class given, else NOT_APPLICABLE. -/
def cplClass (status : Nat) (cls : Nat) : Nat := if 1 ≤ status ∧ status ≤ 4 then 2 else cls

/-- A HOLD or COMMIT (Table 14.3). -/
def Desc.isHold (x : Desc) : Bool := x.fn ≠ 0 && (x.entry.opcode = 1 || x.entry.opcode = 2)
def Desc.block (x : Desc) : Nat := blockOf x.entry.caddr
def Desc.bytesLen (x : Desc) : Nat := x.entry.pages * pageBytes

def findDesc (d : Dev) (h : Nat) : Option Desc := d.descs.find? (fun x => x.handle = h)
def dropDesc (h : Nat) (d : Dev) : Dev := { d with descs := d.descs.filter (fun x => x.handle ≠ h) }
def updDesc (h : Nat) (g : Desc → Desc) (d : Dev) : Dev :=
  { d with descs := d.descs.map (fun x => if x.handle = h then g x else x) }

/-- Counter of a function for a completion's status (Table 20.3). -/
def countStatus (c : Cpl) (d : Dev) : Dev :=
  let f := c.fn
  if c.status = 1 then countFn f 3 1 d
  else if c.status = 2 then countFn f 4 1 d
  else if c.status = 3 then countFn f 5 1 d
  else if c.status = 4 then countFn f 6 1 d
  else if c.status = 6 ∨ c.status = 7 then countFn f 12 1 d
  else if c.cls = 0 then countFn f 1 1 d
  else if c.cls = 1 then countFn f 2 1 d
  else d

/-- Host reads that a descriptor leaves behind keep their tags and are discarded (R241). -/
def discardReads (h : Nat) (d : Dev) : Dev :=
  { d with ept := { d.ept with tags := d.ept.tags.map (fun e =>
      if e.2.handle = h then (e.1, { e.2 with discard := true }) else e) } }

/-- The completion entry of a descriptor. RESULT of a HOLD or COMMIT is its submission sequence, and BYTES of one
the data it has read, whatever its status (Tables 14.3, 14.4). -/
def cplOf (x : Desc) (status result bytes cls delay ht : Nat) : Cpl :=
  { ht, result := if x.isHold then x.seq else result, bytes := if x.isHold then x.bytes else bytes, delay
    descId := x.entry.descId, sqHead := x.sqHead, status, sqId := x.ring, fn := x.fn, cls := cplClass status cls
    desc := some x }

/-- End a descriptor with a completion entry. -/
def finish (x : Desc) (status result bytes cls delay ht : Nat) (d : Dev) : Dev :=
  let c := cplOf x status result bytes cls delay ht
  deliver c (countStatus c (countFn x.fn 15 delay (discardReads x.handle (dropDesc x.handle d))))

/-- Microseconds between two stamps, at 4,000 ticks each. -/
def usBetween (a b : Nat) : Nat := (b - a) / 4000

/-- End a descriptor whose status needs no admission figures: class NOT_APPLICABLE, or REFUSED for
0x01 to 0x04, with the completion time (Table 4.3). -/
def endWith (x : Desc) (status result bytes : Nat) (d : Dev) : Dev :=
  finish x status result bytes 3 0 d.tmb.ht d

/-- Refuse a waiting hold: class REFUSED and the delay from ready to refusal (Table 4.3). -/
def refuse (x : Desc) (status : Nat) (d : Dev) : Dev :=
  let delay := if x.readyHt = 0 then 0 else usBetween x.readyHt d.tmb.ht
  trace 0x1003 82 (x.fn * 2 ^ 40 + x.entry.caddr) (status * 2 ^ 32 + delay)
    (finish x status 0 0 2 delay d.tmb.ht d)

/-! ### Faults (R332 to R335) -/

/-- What of a fault record its raiser gives. -/
structure FaultInfo where
  code : Nat
  level : Nat
  island : Nat
  severity : Nat
  cause : Nat := 0xFFFFFFFF
  fn : Nat := 0
  target : Nat := 0xFF
  unit : Nat := 0xFFFF
  segment : Nat := 0xFFFF
  caddr : Nat := 0
  bytes : Nat := 0
  detail : Nat := 0

/-- A SETTLED record with the code and island of one written less than 1 s earlier is only counted
(R334). -/
def suppressed (i : FaultInfo) (d : Dev) : Bool :=
  i.severity = 0 && d.err.records.any (fun r =>
    r.code = i.code && r.island = i.island && d.tmb.ht < r.ht + 4000000000)

/-- Signal through AER (R335): severity 4 uncorrectable, else corrected at most once per 1 ms. -/
def aerSignal (severity : Nat) (d : Dev) : Dev :=
  if !linkUp d then d
  else if severity = 4 then emit (.aer 4) d
  else if d.tmb.ht < d.err.lastAer + 4000000 ∧ d.err.lastAer ≠ 0 then d
  else emit (.aer 0) { d with err := { d.err with lastAer := d.tmb.ht } }

/-- Write a fault record: ring of 256, retained copy of 64, counts, FAULT event, trace, AER. -/
def raiseFault (i : FaultInfo) (d : Dev) : Dev :=
  if suppressed i d then
    { d with err := { d.err with suppressed := satAdd 32 d.err.suppressed 1 } }
  else
    let r : FaultRec := {
      ht := d.tmb.ht
      seq := d.err.seqNext
      cause := i.cause
      code := i.code
      level := i.level
      island := i.island
      severity := i.severity
      mode := d.chp.mode.code
      fn := i.fn
      target := i.target
      unit := i.unit
      segment := i.segment
      caddr := i.caddr
      bytes := i.bytes
      detail := i.detail }
    let d := { d with err := { d.err with
      seqNext := d.err.seqNext + 1
      records := (r :: d.err.records).take 256
      retained := (r :: d.err.retained).take 64
      counts := Tab.upd 0 d.err.counts i.level (fun n => satAdd 16 n 1)
      fatal := d.err.fatal || i.severity = 4 } }
    let d := countChip (8 + i.level) 1 d
    let d := if i.severity = 0 && !bit d.err.ctl 0 then d
      else postEvent 2 i.fn [r.seq % 256, i.level, i.island, i.code] d
    aerSignal i.severity (trace 0x9001 i.island (r.seq + i.code * 2 ^ 32) i.caddr d)

/-- Fault 0x0402, a configuration write at an offset refused by a chip island (Table 19.6). -/
def configRejected (island offset : Nat) (d : Dev) : Dev :=
  raiseFault { code := 0x0402, level := 4, island, severity := 0, detail := offset } d

/-! ### Mode transitions (R33) -/

/-- Enter a mode: CHP_MODE and CHP_MODE_HT together, the event and the trace. -/
def transition (m : Mode) (cause : Nat) (d : Dev) : Dev :=
  let ht := d.tmb.ht
  let old := d.chp.mode
  let d := { d with chp := { d.chp with
    mode := m, prev := old, cause, seq := (d.chp.seq + 1) % 256, modeHt := ht } }
  let d := trace 0x0001 82 (old.code + m.code * 256 + cause * 65536) 0 d
  postEvent 1 0 [old.code, m.code, cause, d.chp.seq] d

/-- The modes in which a pass of Table 5.2 or of the scrub may run. -/
def Mode.settled : Mode → Bool
  | .armed | .derated | .writeThrough => true
  | _ => false

/-- The modes that admit by energy (R78). -/
def Mode.admits : Mode → Bool
  | .armed | .derated | .rehearsal => true
  | _ => false

/-- The power-on sequence has not yet given the device its role (R178): TMB_STATUS stands at its reset
value and no bound is known. -/
def roleOpen (d : Dev) : Bool := d.chp.mode = .boot && d.chp.prev = .dark && !d.rom.booted

/-- u of a follower at an accepted cue (Table 3.1). The table has no row for ACQUIRING: there the model
takes the row of slewing back, the remaining offset added. DESIGN CHOICE (log entry 126). -/
def Tmb.cueU (t : Tmb) : Nat := if t.state = 2 then t.uUp + 2 else t.uUp + 2 + t.lag.natAbs

/-- Uncertainty u in ticks, or none when unbounded (Table 3.1). -/
def uncertainty (d : Dev) : Option Nat :=
  let t := d.tmb
  if d.hrk.deposed || d.hrk.waitResponses || roleOpen d then none
  else if !t.follower then some (2 + t.floorU)
  else if !t.everCue then (if t.darkRan then t.uAcq else none)
  else if 0xFFFFFFFF ≤ t.uUp then none
  else if t.state = 3 then some (t.uLast + (80 * (t.ht - t.lastCueHt) + 3999999999) / 4000000000)
  else some t.cueU

/-- The class whose bound first reaches `u` (Table 3.2), from class `k` on. -/
def classFrom (u : Nat) : Nat → Nat → Nat
  | 0, _ => 15
  | n + 1, k => if u ≤ 8 * 4 ^ k then k else classFrom u n (k + 1)

/-- The uncertainty class of a commit now (R53); 15 once the time base has failed (R340). -/
def commitClass (d : Dev) : Nat :=
  if d.chp.fatalIslands.contains 78 then 15
  else match uncertainty d with
  | none => 15
  | some u => classFrom u 15 0

end Sys2Proof.Machine
end

