-- ==== Sys2Proof/Machine/Image.lean ====
section
/-!
DEFINITION. Operations on the flash image: the pSLC log ring and its space term, wear credit,
records and their placing, head-only records, and what a record counted written does to the pages.
-/

namespace Sys2Proof.Machine

/-- Insert by a key, after equal keys; the sort built on it is stable. -/
def insertBy {α : Type} (key : α → Nat) (x : α) : List α → List α
  | [] => [x]
  | y :: ys => if key x < key y then x :: y :: ys else y :: insertBy key x ys

def sortBy {α : Type} (key : α → Nat) (l : List α) : List α :=
  l.foldl (fun acc x => insertBy key x acc) []

def sumNat (l : List Nat) : Nat := l.foldl (· + ·) 0

def segBytes : Nat := 65536
def segmentsOf (bytes : Nat) : Nat := (bytes + segBytes - 1) / segBytes

/-! ### The log ring (R94, R95, R97) -/

/-- Payload of a new stripe at the present cell count (R97): 126 MiB a cell. -/
def stripePayload (d : Dev) (b : Nat) : Nat := 126 * mib * (workingCells d b).length

/-- The window positions after `wp`, in the order the write pointer takes them (R94). -/
def positionsAfter (k : Blk) : List Nat :=
  let o := (k.wp + 200 - k.wb) % 200
  (List.range 191).map (fun i => (k.wb + (o + 1 + i) % 192) % 200)

/-- An erased stripe, none of whose units a port has left foreign (R320). -/
def stripeErased (d : Dev) (b p : Nat) : Bool :=
  Tab.get .erased (getBlk d b).stripes p = .erased
    && !(d.flash.foreign.any (fun e => e.1 / 8 = b && e.2.2 = p))

/-! #### Units (R158 to R160) -/

/-- First body segment and number of segments of a unit, and the bytes of its directory (Table 9.2).
Positions from 200 on are TLC stripes. -/
def bodyFirst (pos : Nat) : Nat := if 200 ≤ pos then 12 else 4
def unitSegs (pos : Nat) : Nat := if 200 ≤ pos then 768 else 256
def dirRoom (pos : Nat) : Nat := (bodyFirst pos - 1) * segBytes

def findUnit (d : Dev) (c t pos : Nat) : Option FUnit :=
  d.flash.units.find? (fun u => u.cell = c && u.target = t && u.position = pos)
def updUnit (c t pos : Nat) (g : FUnit → FUnit) (d : Dev) : Dev :=
  { d with flash := { d.flash with units := d.flash.units.map (fun u =>
      if u.cell = c && u.target = t && u.position = pos then g u else u) } }

/-- A unit of a working cell can be programmed: its target lives, it is neither retired nor foreign
(R20, R314, R320), and no body bars it. -/
def unitOpen (d : Dev) (c t pos : Nat) : Bool :=
  !(getCell d c).failed && !(getCell d c).deadTargets.contains t
    && !d.flash.retired.contains (c, t, pos) && !d.flash.foreign.contains (c, t, pos)
    && match findUnit d c t pos with
      | some u => !u.full && u.closeHt.isNone
      | none => true

/-- Body segments still free in a unit. -/
def unitFree (d : Dev) (c t pos : Nat) : Nat :=
  if unitOpen d c t pos then
    match findUnit d c t pos with
    | some u => unitSegs pos - u.next
    | none => unitSegs pos - bodyFirst pos
  else 0

/-- Payload free in a stripe: no unit of a failed cell, of a dead target or retired counts (R97). -/
def stripeFree (d : Dev) (b pos : Nat) : Nat :=
  segBytes * sumNat ((workingCells d b).flatMap (fun c => (List.range 8).map (fun t => unitFree d c t pos)))

/-- The stripe at WP is open. -/
def wpOpen (d : Dev) (b : Nat) : Bool := Tab.get .erased (getBlk d b).stripes (getBlk d b).wp = .written

/-- Units of a stripe that can never be programmed: of a dead target, or retired (R20, R314). -/
def lostUnits (d : Dev) (b p : Nat) : Nat :=
  sumNat ((workingCells d b).map (fun c => (getCell d c).deadTargets.eraseDups.length))
    + (d.flash.retired.eraseDups.filter (fun u => u.2.2 = p && (workingCells d b).contains u.1
        && !(getCell d u.1).deadTargets.contains u.2.1)).length

/-- Payload of an erased stripe: 15.75 MiB less for each such unit (R314). -/
def erasedPayload (d : Dev) (b p : Nat) : Nat := stripePayload d b - 252 * segBytes * lostUnits d b p

/-- E_run_b: the payload free in the stripe at WP plus that of the erased stripes that follow (R95, R97). -/
def eRun (d : Dev) (b : Nat) : Nat :=
  let k := getBlk d b
  if !k.logKnown then 0
  else (if wpOpen d b then stripeFree d b k.wp else if stripeErased d b k.wp then erasedPayload d b k.wp else 0)
    + sumNat (((positionsAfter k).takeWhile (stripeErased d b)).map (erasedPayload d b))

/-- The space term before a cross-block split (R95). -/
def spaceRaw (d : Dev) (b : Nat) : Nat := (eRun d b - d.reserveBytes) * 128 / 129

/-- space_b of Table 4.1: R95, halved by a cross-block save (R70). -/
def spaceB (d : Dev) (b : Nat) : Nat :=
  if !populated d b || blkOut d b then 0
  else if (getBlk d b).crossSave then spaceRaw d (partner b) / 2
  else if (getBlk d (partner b)).crossSave && populated d (partner b) then spaceRaw d b / 2
  else if (getBlk d b).pathFailed then 0
  else spaceRaw d b

/-- The block whose log takes the records of block `b`: its partner's in a cross-block save. -/
def logOf (d : Dev) (b : Nat) : Nat := if (getBlk d b).crossSave then partner b else b

/-- The rotation-window state of a block (Table 9.13): of a shift that is due and not yet taken the count has
begun anew, and it stands as deferred. -/
def windowOf (d : Dev) (b : Nat) : Window :=
  let k := getBlk d b
  { wb := k.wb, wp := k.wp, sinceShift := k.sinceShift % 64, deferred := k.shiftDeferred || 64 ≤ k.sinceShift
    payloadMib := 126 * (workingCells d b).length, shifts := k.shifts, stripeSeq := k.stripeSeq }

/-- Open the stripe at position `p`, to which WP moves. The spec does not say when a stripe write counts
toward the 64 of a shift (R94): the model counts it at the opening, DESIGN CHOICE (log entry 129). -/
def openAt (b p : Nat) (d : Dev) : Dev :=
  updBlk b (fun k => { k with
    wp := p, stripeSeq := k.stripeSeq + 1, stripeSeqs := Tab.set k.stripeSeqs p (k.stripeSeq + 1)
    sinceShift := k.sinceShift + 1, stripes := Tab.set k.stripes p .written }) d

/-- The position that a block's next stripe takes (R89, R94): the one at WP where none has been opened
there, else the next of the window. -/
def openPlace (d : Dev) (b : Nat) : Nat :=
  if wpOpen d b then (positionsAfter (getBlk d b)).headD (getBlk d b).wp else (getBlk d b).wp

/-- Open the block's next stripe; nothing where it is not erased. -/
def openStripe (b : Nat) (d : Dev) : Option Dev :=
  if stripeErased d b (openPlace d b) then some (openAt b (openPlace d b) d) else none

/-- The block's working cells, from the one whose turn it is (R88). -/
def cellsInTurn (d : Dev) (b : Nat) : List Nat :=
  ((List.range 8).map (fun i => 8 * b + ((getBlk d b).nextCell + i) % 8)).filter (fun c => !(getCell d c).failed)

/-- An erase holds the target; a program to it waits for the erase's end. -/
def targetErasing (d : Dev) (c t : Nat) : Bool := (getCell d c).erases.any (fun e => e.1 = t && !e.2.suspended)

/-- The units of a stripe in the order in which bodies take them: cells in turn and in each the
lowest-numbered target first, those that an erase holds last. Log entry 15. -/
def unitsInTurn (d : Dev) (cells : List Nat) : List (Nat × Nat) :=
  let all := cells.flatMap (fun c => (List.range 8).map (fun t => (c, t)))
  all.filter (fun u => !targetErasing d u.1 u.2) ++ all.filter (fun u => targetErasing d u.1 u.2)

/-- A body of so many segments with a head of `hl` bytes fits a unit (R158, R160). -/
def unitFits (d : Dev) (pos segs hl : Nat) (u : Nat × Nat) : Bool :=
  segs ≤ unitFree d u.1 u.2 pos && segs ≠ 0 &&
    match findUnit d u.1 u.2 pos with
    | some w => w.headBytes + 32 + hl ≤ dirRoom pos
    | none => true

/-- A unit opened: its header (R159, Table 9.3). -/
def newUnit (d : Dev) (c t pos : Nat) : FUnit :=
  { cell := c, target := t, position := pos, cells := sumNat ((workingCells d (c / 8)).map (fun k => 2 ^ (k % 8)))
    epochId := d.tmb.epochId
    stripeSeq := if 200 ≤ pos then Tab.get 0 (getBlk d (c / 8)).tlcSeqs (pos - 200) else Tab.get 0 (getBlk d (c / 8)).stripeSeqs pos
    openHt := d.tmb.ht, serial := d.board.serial, hidx := d.hrk.index, window := windowOf d (c / 8)
    next := bodyFirst pos }

def openUnit (c t pos : Nat) (d : Dev) : Dev :=
  match findUnit d c t pos with
  | some _ => d
  | none => { d with flash := { d.flash with units := d.flash.units ++ [newUnit d c t pos] } }

/-- A body takes the unit's next segments; the unit is full when none is left. -/
def takeSegs (id segs hl : Nat) (u : FUnit) : FUnit :=
  { u with
    next := u.next + segs, bodies := u.bodies ++ [(id, u.next, segs)], headBytes := u.headBytes + 32 + hl
    full := u.full || u.next + segs = unitSegs u.position }

/-- Units of a stripe whose directory the next head would not fit take no further body (R160). -/
def barUnits (b pos hl : Nat) (d : Dev) : Dev :=
  { d with flash := { d.flash with units := d.flash.units.map (fun u =>
      if u.cell / 8 = b && u.position = pos && dirRoom pos < u.headBytes + 32 + hl then { u with full := true } else u) } }

/-- Room for record `id` in a stripe, on a unit that `ok` allows: cell, target, position and first segment. -/
def roomAt (b pos id segs hl : Nat) (cells : List Nat) (ok : Nat × Nat → Bool) (d : Dev) : Option ((Nat × Nat × Nat × Nat) × Dev) :=
  let d := barUnits b pos hl d
  match (unitsInTurn d cells).find? (fun u => ok u && unitFits d pos segs hl u) with
  | none => none
  | some (c, t) =>
    let d := openUnit c t pos d
    let seg := ((findUnit d c t pos).map FUnit.next).getD 0
    some ((c, t, pos, seg), updBlk b (fun k => { k with nextCell := (c + 1) % 8 }) (updUnit c t pos (takeSegs id segs hl) d))

/-- Take room for the body of record `id` in block `b`'s log on the cells and units given: in the stripe at WP,
else in the next. -/
def takeRoomOn (cells : List Nat) (ok : Nat × Nat → Bool) (b id bytes hl : Nat) (d : Dev) : Option ((Nat × Nat × Nat × Nat) × Dev) :=
  let segs := segmentsOf bytes
  match (if wpOpen d b then roomAt b (getBlk d b).wp id segs hl cells ok d else none) with
  | some r => some r
  | none =>
    match openStripe b d with
    | some e => roomAt b (getBlk e b).wp id segs hl cells ok e
    | none => none

def takeRoom (b id bytes hl : Nat) (d : Dev) : Option ((Nat × Nat × Nat × Nat) × Dev) :=
  takeRoomOn (cellsInTurn d b) (fun _ => true) b id bytes hl d

/-! ### Wear credit (R91) -/

/-- Report debt each time it passes a further DEBT_WARN (R91); a fall of the debt lowers the mark. -/
def debtEvent (b : Nat) (d : Dev) : Dev :=
  let k := getBlk d b
  let steps := (k.debt - 1) / d.debtWarnBytes
  if k.debtMark < steps then
    postEvent 6 0 [b, k.debt] (updBlk b (fun k => { k with debtMark := steps }) d)
  else updBlk b (fun k => { k with debtMark := steps }) d

/-- Draw `n` payload bytes on a block's bucket. -/
def drawCredit (b n : Nat) (d : Dev) : Dev :=
  let take := min n (getBlk d b).credit
  let d := updBlk b (fun k => { k with
    credit := k.credit - take, debt := k.debt + (n - take), stagedBytes := k.stagedBytes + n }) d
  debtEvent b (countBlk b 1 n (countBlk b 8 (n - take) d))

/-! ### Records -/

/-- The next RECORD_ID of a block (R167). -/
def newId (b : Nat) (d : Dev) : Nat × Dev :=
  (b * 2 ^ 56 + (getBlk d b).serialNext, updBlk b (fun k => { k with serialNext := k.serialNext + 1 }) d)

/-- The RECORD_ID that the block's next record takes. -/
def peekId (d : Dev) (b : Nat) : Nat := b * 2 ^ 56 + (getBlk d b).serialNext

/-- Length of the padded head of runs and poisoned lines (R163, R164). -/
def headLen (runs : List Run) (poison : List Nat) : Nat :=
  (128 + 32 * runs.length + 16 * (poison.map pageOf).eraseDups.length + 31) / 32 * 32
def Rec.headLen (r : Rec) : Nat := Machine.headLen r.runs r.poison

def addRec (r : Rec) (d : Dev) : Dev := { d with flash := { d.flash with records := d.flash.records ++ [r] } }
def findRec (d : Dev) (id : Nat) : Option Rec := d.flash.records.find? (fun r => r.id = id)
def updRec (id : Nat) (g : Rec → Rec) (d : Dev) : Dev :=
  { d with flash := { d.flash with records := d.flash.records.map (fun r => if r.id = id then g r else r) } }

/-! ### Heads: directories and journals (R160 to R162) -/

/-- A place of a body: cell, target, position (200 plus the stripe in TLC) and first segment. -/
abbrev Place := Nat × Nat × Nat × Nat

/-- The places of a record's copies that stand, pSLC first (R138). -/
def Rec.places (r : Rec) : List Place :=
  (if r.slc then [(r.cell, r.target, r.position, r.segment)] else [])
    ++ (if r.tlc.isSome && r.tlcVerified then [(r.tlcCell, r.tlcTarget, 200 + r.tlc.getD 0, r.tlcSegment)] else [])

def Rec.place (r : Rec) : Place := r.places.headD (r.cell, r.target, r.position, r.segment)

/-- STRIPE_SEQ of the unit at a place. -/
def placeStripe (d : Dev) (p : Place) : Nat :=
  if 200 ≤ p.2.2.1 then Tab.get 0 (getBlk d (p.1 / 8)).tlcSeqs (p.2.2.1 - 200)
  else Tab.get 0 (getBlk d (p.1 / 8)).stripeSeqs p.2.2.1

/-- The next working cell of a cell's block, in ascending order modulo 8. -/
def nextWorking (d : Dev) (c : Nat) : Nat :=
  (((List.range 8).map (fun i => 8 * (c / 8) + (c + 1 + i) % 8)).find? (fun k => !(getCell d k).failed)).getD c

def journalOf (d : Dev) (c : Nat) : Journal := Tab.get {} d.flash.journals c

/-- Data on a target can be sensed: its cell works, and it has not died beyond sensing (R97). -/
def copyReads (d : Dev) (c t : Nat) : Bool := !(getCell d c).failed && !(getCell d c).unsensed.contains t

/-- A record's head stands in the written directory of a unit that can be read. -/
def inDirectory (d : Dev) (id : Nat) : Bool :=
  d.flash.units.any (fun u => u.closeHt.isSome && u.verMajor = 1 && copyReads d u.cell u.target
    && u.bodies.any (fun x => x.1 = id))

/-- Journal copies of a record's head: those programmed into the journals of the cells that `p` takes. -/
def journalCopies (d : Dev) (p : Nat → Bool) (id : Nat) : Nat :=
  sumNat (d.flash.journals.map (fun j => if p j.1 then
    sumNat (j.2.lines.map (fun l => (l.heads.filter (fun h => h.id = id)).length)) else 0))

/-- Erase records; those whose head a journal word line holds still are kept for it. -/
def dropRecs (p : Rec → Bool) (d : Dev) : Dev :=
  { d with flash := { d.flash with
    records := d.flash.records.filter (fun r => !p r)
    ghosts := d.flash.ghosts ++ d.flash.records.filter (fun r => p r && journalCopies d (fun _ => true) r.id ≠ 0) } }

/-- A reader takes the record as counted written (R162): its head stands in a directory or in two journal
copies. A copy on a failed cell does not decode; the other one then names the record alone, as R97, R139 and
R140 need it of a record whose cell has failed. DEDUCED (log entry 151). -/
def headNamed (d : Dev) (id : Nat) : Bool :=
  inDirectory d id || (2 ≤ journalCopies d (fun _ => true) id && 1 ≤ journalCopies d (fun c => !(getCell d c).failed) id)

/-- A record with no body to keep it is dead: every page it names has a newer claim, its list is gone,
or a newer mark of its block stands. -/
def headDead (d : Dev) (r : Rec) : Bool :=
  match r.kind with
  | .releaseNote | .lossNote => r.runs.all (fun g => (pagesOf (g.caddr + g.runStart * pageBytes) g.runPages).all (fun p =>
      d.flash.records.any (fun q => q.id ≠ r.id && q.written && q.runs.any (fun h => g.ht < h.ht
        && (pagesOf (h.caddr + h.runStart * pageBytes) h.runPages).contains p))))
  | .retire => !(d.flash.records.any (fun q => q.id = r.ref))
  | .expose | .safe =>
    (d.flash.records.filter (fun q => q.home = r.home && (q.kind = .expose || q.kind = .safe))).getLast?.any (fun q => q.id ≠ r.id)
  | _ => !(d.flash.xferRecs.contains r.id || d.pages.any (fun e => e.2.record = some r.id && (e.2.kind = .held || e.2.kind = .clean)))

/-- A journal unit may be erased (R161). -/
def journalFree (d : Dev) (c u : Nat) : Bool :=
  ((journalOf d c).lines.filter (fun l => l.unit = u)).all (fun l => (l.heads.map JHead.id).all (fun id =>
    inDirectory d id || match d.flash.records.find? (fun r => r.id = id) with
      | some r => headDead d r
      | none => true))

/-- A journal unit is opened with its header (R159). STRIPE_SEQ counts stripes, and a journal has none: the model
counts the journal units opened in the block. DESIGN CHOICE (log entry 173). -/
def openJournal (c u : Nat) (d : Dev) : FUnit × Dev :=
  let n := Tab.get 0 d.flash.journalOpens (c / 8) + 1
  ({ newUnit d c u 340 with stripeSeq := n }, { d with flash := { d.flash with journalOpens := Tab.set d.flash.journalOpens (c / 8) n } })

/-- A journal unit of which the next word line is the first: erased where it has been filled, and opened. -/
def renewJournal (c u : Nat) (full : Bool) (d : Dev) : Dev :=
  let j := journalOf d c
  if !full && j.units.any (fun e => e.target = u) then d
  else
    let (n, d) := openJournal c u d
    let lines := j.lines.filter (fun l => l.unit ≠ u)
    let d := { d with flash := { d.flash with
      journals := Tab.set d.flash.journals c { j with units := j.units.filter (fun (e : FUnit) => e.target ≠ u) ++ [n], lines } } }
    { d with flash := { d.flash with ghosts := d.flash.ghosts.filter (fun r => journalCopies d (fun _ => true) r.id ≠ 0) } }

/-- Program a head into a cell's journal, but not into the unit `avoid`: in a new word line of the unit being
filled, else of the next in the ring that has room or may be erased. Where none may, the head shares the newest word
line: the spec lets a word line hold several heads and does not say how they are gathered. DESIGN CHOICE (log entry
130). Answers the unit. -/
def journalAdd (c : Nat) (avoid : Option Nat) (h : JHead) (d : Dev) : Nat × Dev :=
  let j := journalOf d c
  let full := fun (u : Nat) => 255 ≤ (j.lines.filter (fun l => l.unit = u)).length
  let put := fun (j : Journal) (u : Nat) (d : Dev) =>
    (u, { d with flash := { d.flash with journals := Tab.set d.flash.journals c { j with
      seq := j.seq + 1, unit := if avoid.isNone then u else j.unit
      lines := { seq := j.seq + 1, unit := u, writeHt := d.tmb.ht, heads := [h] } :: j.lines } } })
  let ring := ((List.range 4).map (fun i => (j.unit + i) % 4)).filter (fun u => some u ≠ avoid)
  match ring.find? (fun u => !full u || journalFree d c u) with
  | some u =>
    let d := renewJournal c u (full u) d
    put (journalOf d c) u d
  | none =>
    match j.lines.find? (fun l => some l.unit ≠ avoid) with
    | some l => (l.unit, { d with flash := { d.flash with journals := Tab.set d.flash.journals c { j with
        lines := j.lines.map (fun k => if k.seq = l.seq then { k with heads := k.heads ++ [h] } else k) } } })
    | none => put j (ring.headD 0) d

/-- Both copies of a head (R161): the record's cell, and the next working cell or another unit. -/
def journalBoth (c id : Nat) (d : Dev) : Dev :=
  let h : JHead := match findRec d id with
    | some r => { id, place := if r.bytes = 0 then (r.cell, 0, 0, 0) else r.place, stripeSeq := if r.bytes = 0 then 0 else placeStripe d r.place }
    | none => { id, place := (c, 0, 0, 0), stripeSeq := 0 }
  let (u, d) := journalAdd c none h d
  let c2 := nextWorking d c
  (journalAdd c2 (if c2 = c then some u else none) h d).2

/-- A copy of the record is being programmed into the unit. -/
def Rec.programs (r : Rec) (u : FUnit) : Bool :=
  (r.moving.any (fun p => p.1 = u.cell && p.2.1 = u.target && p.2.2.1 = u.position))
    || (r.tlc.any (fun p => 200 + p = u.position) && !r.tlcVerified && r.tlcCell = u.cell && r.tlcTarget = u.target)

/-- Full units whose records all count written get their directory: they close (R160). -/
def closeUnits (d : Dev) : Dev :=
  { d with flash := { d.flash with units := d.flash.units.map (fun u =>
      if u.full && !u.torn && u.closeHt.isNone && u.bodies.all (fun x =>
          (d.flash.records.find? (fun r => r.id = x.1)).all (fun r => r.written && !r.programs u)) then
        { u with closeHt := some d.tmb.ht } else u) } }

/-- A head-only record, which stands in journals alone; `written` when it counts written within the step
that makes it (R169). -/
def headOnly (logB home : Nat) (kind : RKind) (fn : Nat) (runs : List Run) (ht ref : Nat)
    (written : Bool) (d : Dev) : Nat × Dev :=
  let (id, d) := newId logB d
  let cell := (cellsInTurn d logB).headD (8 * logB)
  let r : Rec := {
    id, block := logB, home, kind, fn, runs, ref, cell, written
    epochId := d.tmb.epochId
    hidx := d.hrk.index
    firstHt := (runs.map Run.ht).foldl min (match runs with | [] => ht | r :: _ => r.ht)
    lastHt := (runs.map Run.ht).foldl max (if runs = [] then ht else 0)
    writeHt := d.tmb.ht }
  let d := addRec r d
  (id, if written then journalBoth cell id d else d)

/-- Give a head the epoch and hierarchy index of the HTs in it, where they are not the present ones (R163). -/
def headAs (epochId hidx : Nat) (p : Nat × Dev) : Dev := updRec p.1 (fun r => { r with epochId, hidx }) p.2

/-- One anchor entry is appended for a book as it is programmed (R172). -/
def appendAnchor (k : Book) (r : Rec) (d : Dev) : Dev :=
  { d with flash := { d.flash with anchors := d.flash.anchors ++ [{
      block := k.block, seqNo := k.seqNo, sealHt := k.sealHt, recordId := k.recordId, segment := r.segment, cell := r.cell
      target := r.target, position := r.position, stripeSeq := Tab.get 0 (getBlk d r.block).stripeSeqs r.position }] } }

/-- Rotation-window state of 32 bytes (Table 9.13). -/
def windowFrom (bs : List Byte) : Window :=
  let at_ := fun o n => ofBytes ((bs.drop o).take n)
  { wb := at_ 0 1, wp := at_ 1 1, sinceShift := at_ 2 1, deferred := at_ 3 1 % 2 = 1, payloadMib := at_ 4 4
    shifts := at_ 8 8, stripeSeq := at_ 16 8 }

/-- The unit header that a port has programmed in segment 0 of a unit, where its MAGIC and CRC check (Table 9.3, R177):
an image may be laid down through the ports, of another format version too (R175). -/
def portHeader (e : (Nat × Nat × Nat × Nat) × Tab Byte) : Option FUnit :=
  let (c, t, u, s) := e.1
  let bs := (List.range 256).map (fun i => Tab.get 0 e.2 i)
  let at_ := fun o n => ofBytes ((bs.drop o).take n)
  if s = 0 && at_ 0 4 = 0x54554E31 && at_ 252 4 = (crc32c (bs.take 252)).toNat then
    some { cell := c, target := t, position := u, verMajor := at_ 4 1, cells := at_ 11 1, epochId := at_ 12 4
           stripeSeq := at_ 16 8, openHt := at_ 24 8, serial := at_ 32 8, hidx := at_ 40 2 % 512
           window := windowFrom (bs.drop 48) }
  else none

/-- The newest unit header of a block's pSLC units. -/
def newestUnit (d : Dev) (b : Nat) : Option FUnit :=
  ((d.flash.units ++ d.flash.segments.filterMap portHeader).filter (fun u => u.cell / 8 = b && u.position < 200)).foldl (fun m u =>
    match m with
    | some n => if n.stripeSeq < u.stripeSeq then some u else m
    | none => some u) none

/-- HT range of a list's entries, as its header gives it (Table 9.8). -/
def CallList.firstHt (l : CallList) : Nat :=
  (l.range.map Prod.fst).getD ((l.entries.map ListEntry.ht).foldl min ((l.entries.map ListEntry.ht).headD 0))
def CallList.lastHt (l : CallList) : Nat := (l.range.map Prod.snd).getD ((l.entries.map ListEntry.ht).foldl max 0)

/-- The rotation-window state as BOOT reads it: of the pSLC unit header with the largest STRIPE_SEQ (R174). -/
def windowFromImage (d : Dev) (b : Nat) (k : Blk) : Blk :=
  match newestUnit d b with
  | some u => { k with
      wb := u.window.wb, wp := u.window.wp, sinceShift := u.window.sinceShift, shiftDeferred := u.window.deferred
      shifts := u.window.shifts, stripeSeq := u.window.stripeSeq }
  | none => k

/-- Pages of an extent whose newest held data is its own: held still, or kept as clean (R272). -/
def ownPages (d : Dev) (x : Extent) : List Nat :=
  (pagesOf x.caddr x.pages).filter (fun p => (getPage d p).eid = x.eid
    && ((getPage d p).kind = .held || (getPage d p).kind = .clean))
def ownUnstaged (d : Dev) (x : Extent) : List Nat :=
  (ownPages d x).filter (fun p => (getPage d p).unstaged)

/-! ### The index's segments (R271, R273, R276) -/

/-- Slots of a block's index reserve (R273). -/
def idxSlots (d : Dev) : Nat := d.board.moduleGib * gib / 128 / 32

/-- The entries of the index: the segments of a fenced block have gone with it (R281). -/
def indexed (d : Dev) : List Extent := d.exts.filter (fun x => !(getBlk d (blockOf x.caddr)).fenced)

/-- Entries in a block's segments; one that waits in the insertion queue is not placed yet (R275). -/
def idxEntries (d : Dev) (b : Nat) : Nat :=
  ((indexed d).filter (fun x => blockOf x.caddr = b && !d.idx.insq.contains x.eid)).length

/-- The sort key of R271. -/
def Extent.key (x : Extent) : Nat := ((x.tag * 2 ^ 40 + x.caddr % 2 ^ 40) * 512 + x.hidx % 512) * 2 ^ 32 + x.seq

/-- GAPPED in force for a function (IDX_FN_CFG.MODE_EFF), and its N (GAP_EFF). -/
def idxGapped (d : Dev) (f : Nat) : Bool := bit (getFn d f).idxCfg 10
def gapEvery (d : Dev) (f : Nat) : Nat :=
  match field (getFn d f).idxCfg 12 2 with
  | 0 => 8
  | 1 => 16
  | _ => 32

/-- Gaps are yielded below 1/32 of free slots until above 1/16 (R276). -/
def updateYield (d : Dev) : Dev :=
  let free := fun b => idxSlots d - idxEntries d b
  { d with idx := { d.idx with yielded := (blockList d).filter (fun b =>
      if d.idx.yielded.contains b then free b * 16 ≤ idxSlots d else free b * 32 < idxSlots d) } }

/-- Insertions into a block keep gaps for this function: GAPPED in force, the block's gaps not yielded. -/
def keepsGaps (d : Dev) (f b : Nat) : Bool := idxGapped d f && !d.idx.yielded.contains b

def entryKey (d : Dev) (e : Nat) : Nat := ((d.exts.find? (fun x => x.eid = e)).map Extent.key).getD 0

/-- Slot of a bucket to which an entry of key `k` goes: behind the last smaller one. -/
def slotFor (d : Dev) (k : Nat) (b : List (Option Nat)) : Nat :=
  (b.reverse.dropWhile (fun o => match o with | some e => k ≤ entryKey d e | none => true)).length

/-- Bucket of a segment to which an entry of key `k` goes. -/
def bucketFor (d : Dev) (k : Nat) (bs : List (List (Option Nat))) : Nat :=
  (bs.takeWhile (fun b => ((b.filterMap id).head?.map (entryKey d)).getD 0 < k)).length - 1

/-- GAPPED insertion at slot `p`: entries move up to the next gap, at most `n`; at a bucket's end a gap is left behind
`n` entries. A full run moves them as in SHIFT, and the second answer asks for a re-spread (R276). -/
def gappedPut (n p e : Nat) (b : List (Option Nat)) : List (Option Nat) × Bool :=
  let h := b.take p
  let t := b.drop p
  let ahead := (t.takeWhile Option.isSome).length
  let run := ahead + (h.reverse.takeWhile Option.isSome).length
  if ahead ≤ n && ahead < t.length then (h ++ some e :: t.eraseIdx ahead, false)
  else if ahead = t.length && run < n then
    (h ++ some e :: t ++ (if run + 1 = n && b.length + 2 ≤ 512 then [none] else []), false)
  else (h ++ some e :: t, true)

/-- An insertion into the segments (R276): a full bucket is split into two half-full ones first. -/
def placeEntry (x : Extent) (d : Dev) : Dev :=
  let b := blockOf x.caddr
  let s := getFn d x.fn
  let bs := Tab.get [] s.segs b
  let i := bucketFor d x.key bs
  let bk := bs.getD i []
  let full := 512 ≤ bk.length
  let bs := if full then bs.take i ++ [bk.take 256, bk.drop 256] ++ bs.drop (i + 1) else bs
  let marks := if full then s.respreads.map (fun m => if m / 65536 = b && i < m % 65536 then m + 1 else m) else s.respreads
  let i := bucketFor d x.key bs
  let bk := bs.getD i []
  let p := slotFor d x.key bk
  let (bk, again) := if keepsGaps d x.fn b then gappedPut (gapEvery d x.fn) p x.eid bk
    else (bk.take p ++ some x.eid :: bk.drop p, false)
  updFn x.fn (fun s => { s with
    segs := Tab.set s.segs b (if bs = [] then [bk] else bs.set i bk)
    respreads := if again && !marks.contains (65536 * b + i) then (65536 * b + i) :: marks else marks }) d

/-- Entries that left the index leave a gap in GAPPED, and in SHIFT those behind move down (R276). The table of a
function being rebuilt stands until the rebuild ends (R280). -/
def FnSt.unplace (live : Nat → Bool) (s : FnSt) : FnSt :=
  if s.rebuilding then s
  else { s with segs := Tab.mapVals (fun bs => bs.map (fun (bk : List (Option Nat)) =>
    if bit s.idxCfg 10 then bk.map (fun o => o.filter live) else bk.filter (fun o => o.any live))) s.segs }

/-- An entry has its slot, or waits in the insertion queue. -/
def entryPlaced (d : Dev) (x : Extent) : Bool :=
  d.idx.insq.contains x.eid
    || (Tab.get [] (getFn d x.fn).segs (blockOf x.caddr)).any (fun bk => bk.contains (some x.eid))

/-- An entry not placed yet is placed, or queued while its function's table is rebuilt (R280). The queue is the
engine's insertion queue, DEDUCED (log entry 169). -/
def insertEntry (d : Dev) (x : Extent) : Dev :=
  if entryPlaced d x then d
  else if (getFn d x.fn).rebuilding then { d with idx := { d.idx with insq := d.idx.insq ++ [x.eid] } }
  else placeEntry x d

/-- The insertion queue is full, and no hold commits (R275). -/
def insqFull (d : Dev) : Bool := 8192 ≤ d.idx.insq.length

/-- The segments follow the entries: those gone are taken out, those new are placed (R272, R276). A move ends within
the step in which it began, so no LOOKUP finds a bucket under a move (R277). -/
def syncIndex (d : Dev) : Dev :=
  let live := fun e => (indexed d).any (fun x => x.eid = e)
  let d := updateYield { d with
    fns := Tab.mapVals (FnSt.unplace live) d.fns, idx := { d.idx with insq := d.idx.insq.filter live } }
  updateYield ((indexed d).foldl insertEntry d)

/-- A bucket of entries with a gap behind every `n`. -/
def withGaps (n : Nat) (es : List Nat) : List (Option Nat) :=
  es.zipIdx.flatMap (fun e => if (e.2 + 1) % n = 0 then [some e.1, none] else [some e.1])

/-- Entries of a segment laid out anew in the mode in force. -/
def layOut (d : Dev) (f b : Nat) (es : List Nat) : List (List (Option Nat)) :=
  let n := gapEvery d f
  let size := if keepsGaps d f b then 512 / (n + 1) * n else 512
  (List.range ((es.length + size - 1) / size)).map (fun i =>
    let es := (es.drop (i * size)).take size
    if keepsGaps d f b then withGaps n es else es.map some)

/-- A function's table laid out anew from its entries in key order, queued changes in it (R278, R280). -/
def layOutFn (f : Nat) (d : Dev) : Dev :=
  let d := { d with idx := { d.idx with insq := d.idx.insq.filter (fun e => !d.exts.any (fun x => x.eid = e && x.fn = f)) } }
  let segs := (blockList d).map (fun b => (b, layOut d f b
    ((sortBy Extent.key ((indexed d).filter (fun x => x.fn = f && blockOf x.caddr = b))).map Extent.eid)))
  updFn f (fun s => { s with segs := segs.filter (fun e => e.2 ≠ []), respreads := [] }) d

/-- A rebuild is abandoned: its queued changes are applied, the table that encore replaces is whole (R281). -/
def abandonRebuilds (d : Dev) : Dev :=
  (fnNumbers.filter (fun f => (getFn d f).rebuilding)).foldl (fun d f =>
    layOutFn f (updFn f (fun s => { s with rebuilding := false }) d)) d

/-- Extents with no page left leave the index (R272); a legacy extent that lost its page at equal HT
was entered with none (R138). -/
def prune (d : Dev) : Dev :=
  syncIndex { d with exts := d.exts.filter (fun x => x.legacy || (ownPages d x) ≠ []) }

/-- Bytes of an index entry (Table 15.1). -/
def Extent.entryBytes (d : Dev) (x : Extent) : List Byte :=
  let ps := ownPages d x
  let all := fun (g : Page → Bool) => ps.all (fun p => g (getPage d p))
  let any := fun (g : Page → Bool) => ps.any (fun p => g (getPage d p))
  leBytes 8 x.tag
    ++ leBytes 8 (x.caddr % 2 ^ 40 + (x.pages - 1) * 2 ^ 40 + 2 ^ 48 * boolNat (all (fun g => g.kind = .clean))
        + 2 ^ 49 * boolNat (any Page.untrusted) + 2 ^ 50 * boolNat (any Page.keyPending))
    ++ leBytes 8 x.ht ++ leBytes 4 x.seq ++ leBytes 2 ps.length ++ leBytes 2 (x.hidx % 512 + x.cls % 16 * 4096)

/-- The entries of a block's segments, function by function in key order. -/
def indexBytes (d : Dev) (b : Nat) : List Byte :=
  fnNumbers.flatMap (fun f => (sortBy Extent.key ((indexed d).filter (fun x => x.fn = f && blockOf x.caddr = b))).flatMap
    (Extent.entryBytes d))

/-- Every module enters self-refresh, its refresh debt paid first (R305). -/
def enterSelfRefresh (d : Dev) : Dev :=
  let d := (blockList d).foldl (fun e b => countBlk b 16 (getBlk d b).refDebt e) d
  { d with blk := Tab.mapVals (fun (k : Blk) => { k with selfRefresh := true, refDebt := 0 }) d.blk }

/-- Every module leaves self-refresh with 8 all-bank refreshes (R305). -/
def leaveSelfRefresh (d : Dev) : Dev :=
  let on := (blockList d).filter (fun b => (getBlk d b).dramOn && (getBlk d b).selfRefresh)
  let d := on.foldl (fun e b => countBlk b 16 8 e) d
  { d with blk := Tab.mapVals (fun (k : Blk) => { k with selfRefresh := false }) d.blk }

/-- Unstaged bytes of a block and of a function (R77). -/
def unstagedB (d : Dev) (b : Nat) : Nat :=
  pageBytes * (d.pages.filter (fun e => e.2.unstaged && blockOf (pageAddr e.1) = b)).length
def unstagedF (d : Dev) (f : Nat) : Nat :=
  pageBytes * (d.pages.filter (fun e => e.2.unstaged && e.2.fn = f)).length
def unstagedAll (d : Dev) : Nat := sumNat ((blockList d).map (unstagedB d))

/-- Held extents with an unstaged page in a block, oldest commit first. -/
def unstagedExts (d : Dev) (b : Nat) : List Extent :=
  sortBy Extent.ht (d.exts.filter (fun x => blockOf x.caddr = b && (ownUnstaged d x) ≠ []))

/-- Consecutive page numbers grouped into (first, count) runs. -/
def groupRuns : List Nat → List (Nat × Nat)
  | [] => []
  | p :: ps =>
    match groupRuns ps with
    | (q, n) :: rest => if p + 1 = q then (p, n + 1) :: rest else (p, 1) :: (q, n) :: rest
    | [] => [(p, 1)]

/-- The run descriptors of an extent for the pages given (R164). -/
def runsOf (x : Extent) (ps : List Nat) (unack : Bool) (descId : Nat) : List Run :=
  (groupRuns ps).map (fun g => {
    ht := x.ht, tag := x.tag, caddr := x.caddr, extPages := x.pages
    runStart := g.1 - pageOf x.caddr, runPages := g.2, seq := x.seq, cls := x.cls, unack, descId })

def runPageList (r : Run) : List Nat := pagesOf (r.caddr + r.runStart * pageBytes) r.runPages

/-- A record is live in the pSLC log: it has no TLC copy, or one not yet verified (R99). -/
def Rec.onSlc (r : Rec) : Bool := !(r.tlc.isSome && r.tlcVerified)

/-- The pSLC copy of a record decodes and authenticates. -/
def Rec.slcReads (d : Dev) (r : Rec) : Bool := r.slc && r.readable && r.authentic && copyReads d r.cell r.target

/-- Some copy of the record decodes and authenticates: the pSLC copy is tried first, then a verified TLC
copy (R138, R139). -/
def Rec.reads (d : Dev) (r : Rec) : Bool :=
  r.slcReads d || (r.tlc.isSome && r.tlcVerified && r.tlcReadable && r.tlcAuthentic && copyReads d r.tlcCell r.tlcTarget)

/-- The cell that a read of the record goes to (R138). -/
def Rec.readCell (d : Dev) (r : Rec) : Nat :=
  if r.tlc.isSome && r.tlcVerified && !r.slcReads d then r.tlcCell else r.cell

/-- A book is live while it is one of its block's two newest (R170). -/
def liveBook (d : Dev) (r : Rec) : Bool :=
  r.kind = .book && (((d.flash.books.filter (fun k => k.block = r.home)).map Book.recordId).reverse.take 2).contains r.id

/-- A list that no RETIRE record names yet (R169). -/
def liveList (d : Dev) (r : Rec) : Bool :=
  r.kind = .list && !(d.flash.records.any (fun q => q.kind = .retire && q.written && q.ref = r.ref))

/-- A record carries the newest data of some page that is held or kept as clean (R96). -/
def recLive (d : Dev) (id : Nat) : Bool :=
  d.flash.xferRecs.contains id ||
  d.pages.any (fun e => e.2.record = some id && (e.2.kind = .held || e.2.kind = .clean))

/-- A record's body keeps its stripe: it is live or not yet written, a live book, or a list still to be
resolved, which the spec does not name among what cleaning keeps. DESIGN CHOICE (log entry 132). -/
def bodyStands (d : Dev) (r : Rec) : Bool := recLive d r.id || !r.written || liveBook d r || liveList d r

def livePayload (d : Dev) (b : Nat) (tlc : Bool) : Nat :=
  sumNat ((d.flash.records.filter (fun r =>
    r.block = b && r.written && (r.onSlc != tlc) && recLive d r.id)).map Rec.bytes)

/-- The content of pages as they stand in DRAM, and their poisoned lines (R22, R89). -/
def pagesContent (m : List Host.Cell) (ps : List Nat) : List Cell :=
  ps.flatMap (fun p => memSlice m (pageAddr p) pageBytes)
def pagesPoison (d : Dev) (ps : List Nat) : List Nat :=
  d.drc.poison.filter (fun a => ps.contains (pageOf a))

/-- The slot that enciphers a function's records: the loaded slot that names it (R287). -/
def slotOf (d : Dev) (f : Nat) : Option Nat :=
  (List.range 64).find? (fun s => (getSlot d s).loaded && (getSlot d s).fn = f)

/-- The slot that can encipher a function's records now: not under NONCE_UNKNOWN (R292). -/
def encryptSlot (d : Dev) (f : Nat) : Option Nat :=
  match slotOf d f with
  | some s => if (getSlot d s).nonceUnknown || (getSlot d s).erasing then none else some s
  | none => none

/-- A slot is key-pending: its function waits at encore for one of its keys (R146, R290). -/
def slotKeyPending (d : Dev) (s : Nat) : Bool :=
  (getSlot d s).bound && (getFn d (getSlot d s).fn).keyPending

/-- Take one invocation counter value of a slot (R165, R291). -/
def takeInvocation (s : Nat) (d : Dev) : Nat × Dev :=
  let c := (getSlot d s).ctr
  (c, updSlot s (fun k => { k with ctr := c + 1, hwm := c }) d)

/-- A generation of a slot still has a queued request in some block (R289). -/
def genActive (d : Dev) (s g : Nat) : Bool :=
  d.blk.any (fun e => e.2.cipherActive.any (fun a => a.2.1 = s && a.2.2 = g))

def slotActive (d : Dev) (s : Nat) : Bool :=
  d.blk.any (fun e => e.2.cipherActive.any (fun a => a.2.1 = s))

/-- Every generation of a slot's key is zeroised (R293 step 1), in the store and in its copy. -/
def wipeSlot (s : Nat) (d : Dev) : Dev :=
  let d := updSlot s (fun k => { k with
    bound := false, loaded := false, key := 0, kcv := 0, nonceUnknown := false, oldKey := none, older := []
    erasing := false }) d
  { d with cip := { d.cip with copy := Tab.drop d.cip.copy s } }

/-- After a request ends: the old generation's key is zeroised once no request is pinned to it
(R289), and an erase that waited for the slot's requests is carried out (R294). -/
def settleSlot (s : Nat) (d : Dev) : Dev :=
  let k := getSlot d s
  let d := match k.oldKey with
    | some (g, _) =>
      if genActive d s g then d
      else trace 0x5002 79 (s + g * 256 + k.fn * 65536) k.kcv (updSlot s (fun k => { k with oldKey := none }) d)
    | none => d
  if k.erasing && !slotActive d s then wipeSlot s d else d

/-- The cipher request of record `id` in a block's queue finishes (R282). -/
def cipherDone (b id : Nat) (d : Dev) : Dev :=
  match (getBlk d b).cipherActive.find? (fun a => a.1 = id) with
  | none => d
  | some (_, s, _) =>
    settleSlot s (updBlk b (fun k => { k with
      cipherActive := k.cipherActive.filter (fun a => a.1 ≠ id), cipherDone := satAdd 32 k.cipherDone 1 }) d)

/-- Index and epoch under which the device commits now. -/
def originNow (d : Dev) : Nat × Nat := (d.hrk.index, d.tmb.epochId)

/-- Start a record of page content in the log of `b`'s flow: room, credit, nonce, content as read
now; `origin` is the hierarchy index and epoch of its commits (R163). Nothing where the log has no room or the function no key. -/
def startRecord (m : List Host.Cell) (b : Nat) (kind : RKind) (f : Nat) (runs : List Run)
    (amend : Bool) (handle : Nat) (origin : Nat × Nat) (d : Dev) : Option (Nat × Dev) :=
  let ps := runs.flatMap runPageList
  let bytes := ps.length * pageBytes
  let lb := logOf d b
  match encryptSlot d f, takeRoom lb (peekId d lb) bytes (headLen runs (pagesPoison d ps)) d with
  | some s, some ((c, t, pos, seg), d) =>
    let (inv, d) := takeInvocation s d
    let (id, d) := newId lb d
    let r : Rec := {
      id, block := lb, home := b, kind, fn := f, slot := s, gen := (getSlot d s).gen, inv
      pfx := (getSlot d s).pfx, hidx := origin.1, epochId := origin.2, runs
      poison := pagesPoison d ps, body := pagesContent m ps, amend
      firstHt := (runs.map Run.ht).foldl min (match runs with | [] => 0 | r :: _ => r.ht)
      lastHt := (runs.map Run.ht).foldl max 0, bytes, cell := c, target := t, position := pos, segment := seg
      ckey := (getSlot d s).key, handle }
    let d := updBlk lb (fun k => { k with cipherActive := k.cipherActive ++ [(id, s, (getSlot d s).gen)] }) d
    some (id, countBlk lb 11 1 (drawCredit lb bytes (addRec r d)))
  | _, _ => none

/-- The pages of a record that it stages: held, unstaged, and still of the extent whose commit HT
the run carries (R77, R89). -/
def stagesPage (d : Dev) (r : Run) (p : Nat) : Bool :=
  let g := getPage d p
  g.unstaged && g.kind = .held && d.exts.any (fun x => x.eid = g.eid && x.ht = r.ht)

/-- A page record written: its pages leave the unstaged counts and name it as live record. -/
def markStaged (r : Rec) (d : Dev) : Dev :=
  r.runs.foldl (fun d run =>
    (runPageList run).foldl (fun d p =>
      if stagesPage d run p then
        updPage p (fun g => { g with unstaged := false, record := some r.id, restage := false, remainder := false }) d
      else d) d) d

/-- A record counts written (R20, R161): its head in two journals, its content read back. -/
def countWritten (r : Rec) (d : Dev) : Dev :=
  let d := updRec r.id (fun r => { r with written := true, writeHt := d.tmb.ht }) d
  let d := countCell r.cell 1 (segmentsOf r.bytes) d
  let d := trace 0x2001 (64 + r.block) r.id r.bytes (countBlk r.block 0 1 d)
  closeUnits (journalBoth r.cell r.id (markStaged r (cipherDone r.block r.id d)))

/-! ### Exposure marks (R385) -/

/-- Mask of the functions set up (R248). -/
def setUp (d : Dev) (f : Nat) : Bool := (getFn d f).sq.any (fun e => e.2.en)
def setUpMask (d : Dev) : Nat :=
  sumNat ((fnNumbers.filter (setUp d)).map (fun f => 2 ^ f))

/-- The newest exposure mark of a block's log, as its kind. -/
def newestMark (d : Dev) (b : Nat) : Option RKind :=
  ((d.flash.records.filter (fun r => r.home = b && (r.kind = .expose || r.kind = .safe))).getLast?).map
    Rec.kind


/-- A block can program its log: it is populated and in admission, a cell works, and so does its path. -/
def logWorks (d : Dev) (b : Nat) : Bool :=
  populated d b && !blkOut d b && !(getBlk d b).pathFailed && (workingCells d b) ≠ []

/-- The block whose log takes block `b`'s list: its own, its partner's, or the lowest-numbered
working block's (R111). -/
def listLog (d : Dev) (b : Nat) : Option Nat :=
  if logWorks d b then some b
  else if logWorks d (partner b) then some (partner b)
  else (blockList d).find? (logWorks d)

/-- The block whose log takes a block's exposure marks: its own while a cell of it works, else the one that would
take its list. -/
def markLog (d : Dev) (b : Nat) : Option Nat := if (workingCells d b) ≠ [] then some b else listLog d b

/-- Blocks that carry marks: populated and not fenced. -/
def markBlocks (d : Dev) : List Nat :=
  (blockList d).filter (fun b => !(getBlk d b).fenced && !(getBlk d b).heldOut)

/-- A block's exposure mark is programmed. -/
def mark (kind : RKind) (mask b : Nat) (d : Dev) : Dev :=
  match markLog d b with
  | some lb => (headOnly lb b kind 0 [] d.tmb.ht mask true d).2
  | none => d

/-- Every block programs an EXPOSE record of the functions set up. -/
def exposeAll (d : Dev) : Dev := (markBlocks d).foldl (fun d b => mark .expose (setUpMask d) b d) d

/-- A block with nothing unstaged programs a SAFE record, unless its newest mark is one. -/
def safeMark (b : Nat) (d : Dev) : Dev :=
  if unstagedB d b = 0 ∧ newestMark d b ≠ some .safe ∧ (markBlocks d).contains b then mark .safe 0 b d else d

/-! ### Curtain call lists (R47, R111, R168) -/

/-- The held entries of a block's list: one for each extent with an unstaged page, by commit HT. -/
def heldEntries (d : Dev) (b : Nat) : List ListEntry :=
  (unstagedExts d b).map (fun x => {
    ht := x.ht, caddr := x.caddr, pages := x.pages, fn := x.fn, unack := false, amend := false
    tag := x.tag, seq := x.seq, descId := 0, cls := x.cls })

/-- Entry pages of a list, and the pages of each record of its chain: at most 64 segments (R168). -/
def entryPages (n : Nat) : Nat := (n + 126) / 127
def partPages (pages : Nat) : List Nat :=
  List.replicate (pages / 1024) 1024 ++ (if pages % 1024 = 0 then [] else [pages % 1024])

/-- The entries in part `i` of a chain; the first part's first page is the header. -/
def partEntries (es : List ListEntry) (i : Nat) : List ListEntry :=
  if i = 0 then es.take (127 * 1023) else (es.drop (127 * (1024 * i - 1))).take (127 * 1024)

/-- One LIST record of a chain, written. -/
def writePart (lb : Nat) (l : CallList) (part : Nat × Nat) (d : Dev) : Dev :=
  let bytes := part.1 * pageBytes
  match takeRoom lb (peekId d lb) bytes 128 d with
  | none => d
  | some ((c, t, pos, seg), d) =>
    let (id, d) := newId lb d
    let hts := (partEntries l.entries part.2).map ListEntry.ht
    let r : Rec := {
      id, block := lb, home := l.block, kind := .list, ref := l.listId, list := if part.2 = 0 then some l else none
      part := part.2, bytes, cell := c, target := t, position := pos, segment := seg, written := true
      epochId := d.tmb.epochId, hidx := d.hrk.index, amend := l.baseList ≠ 0
      firstHt := hts.foldl min (hts.headD l.triggerHt), lastHt := hts.foldl max 0, writeHt := d.tmb.ht }
    closeUnits (journalBoth c id (drawCredit lb bytes (addRec r d)))

/-- Write a list of the entries given for a block: a chain of LIST records in the erased run. -/
def writeEntries (b trigger triggerHt : Nat) (entries : List ListEntry) (listed base : Nat) (d : Dev) : Dev :=
  match listLog d b with
  | none => d
  | some lb =>
    let l : CallList := {
      listId := peekId d lb, trigger, block := b, triggerHt, entries, listedBytes := listed, baseList := base }
    let e := ((partPages (1 + entryPages entries.length)).zipIdx).foldl (fun d p => writePart lb l p d) d
    if e.flash.records.any (fun r => r.id = l.listId) then
      { e with cur := { e.cur with lists := e.cur.lists ++ [l] } }
    else d

/-- Write a block's list of its unstaged extents and UNACK entries. -/
def writeList (b trigger triggerHt : Nat) (unack : List ListEntry) (base : Nat) (d : Dev) : Dev :=
  writeEntries b trigger triggerHt (heldEntries d b ++ unack) (unstagedB d b) base d

/-- The lists of R47 at a pack loss or an entry to WRITE_THROUGH: one for each block with data
unstaged. -/
def writeLists47 (trigger : Nat) (d : Dev) : Dev :=
  let ht := d.tmb.ht
  (blockList d).foldl (fun d b =>
    if unstagedB d b = 0 then d else writeList b trigger ht [] 0 d) d

/-! ### The image's stamps (R51, R60, R61) -/

/-- A record names extents of the running order: in its runs, or as the entries of a list. -/
def Rec.ordered (r : Rec) : Bool :=
  match r.kind with
  | .stage | .curtain | .unack | .releaseNote | .lossNote => r.runs ≠ []
  | .list => r.list.any (fun l => l.entries ≠ [])
  | .retire | .book | .test | .expose | .safe => false

/-- The newest commit HT that a record carries: of its runs, or of the held entries of a list. -/
def Rec.newestCommit (r : Rec) : Nat :=
  match r.kind with
  | .stage | .curtain | .releaseNote | .lossNote => r.lastHt
  | .list => (r.list.map (fun l => ((l.entries.filter (fun e => !e.unack)).map ListEntry.ht).foldl max 0)).getD 0
  | .unack | .retire | .book | .test | .expose | .safe => 0

/-- The image's newest commit HT or seal HT of the present epoch: what R51 and R61 compare HT with. -/
def epochNewest (d : Dev) : Nat :=
  max ((d.flash.records.filter (fun r => r.written && r.epochId = d.tmb.epochId)).map Rec.newestCommit |>.foldl max 0)
    (((d.flash.books.filter (fun b => b.epochId = d.tmb.epochId)).map Book.sealHt).foldl max 0)

/-- The newest HT that stands anywhere in the image (R60): in heads, lists, books, unit headers and
directories, journal word lines and vault entries. -/
def imageNewest (d : Dev) : Nat :=
  let recs := d.flash.records.map (fun r =>
    max (max r.lastHt r.writeHt) ((r.list.map (fun l => (l.entries.map ListEntry.ht).foldl max l.triggerHt)).getD 0))
  let books := d.flash.books.map (fun b => (b.msHt.map Prod.snd).foldl max b.sealHt)
  let units := d.flash.units.map (fun u => max u.openHt (u.closeHt.getD 0))
  let lines := d.flash.journals.map (fun j => (j.2.lines.map JLine.writeHt).foldl max 0)
  let vault := (d.cip.vault.filter Vault.written).map (fun v => max v.loadHt v.eraseHt)
  (recs ++ books ++ units ++ lines ++ vault).foldl max 0

/-- HT above every stamp of the image and above the value that R60 set (R61). At the first boot of an
image with no stamp R60 sets HT 0, which bars nothing. -/
def aboveImage (d : Dev) : Bool :=
  epochNewest d < d.tmb.ht && (d.tmb.restartHt < d.tmb.ht || d.tmb.restartHt = 0)
    || (epochNewest d = 0 && d.tmb.restartHt = 0)

/-- HT, or what a follower's cues steer it to, is not yet above the image's stamps, before the first commit
after BOOT (R61). -/
def belowStamps (d : Dev) : Bool := !d.tmb.bootCommit && (d.tmb.belowImage || !aboveImage d)

end Sys2Proof.Machine
end

