-- ==== Sys2Proof/Machine/Budget.lean ====
section
/-!
DEFINITION. Admission (chapter 4): the budget and its shares, the test at commit, the four waiting
queues, shortfall and reclaim, and the settled mode with the rows of Table 2.3 that a change of
budget or of a derating reason takes.
-/

namespace Sys2Proof.Machine

/-- Data-sheet figures by population (Table 1.8): e_byte in fJ/B, E_fixed in mJ, rate in MB/s. -/
def dsEByte (n : Nat) : Nat := if n = 1 then 2440000 else if n = 2 then 1920000 else if n = 4 then 1660000 else 1530000
def dsEFixed (n : Nat) : Nat := if n = 1 then 22000 else if n = 2 then 35000 else if n = 4 then 60000 else 110000
def dsRate (n : Nat) : Nat := 22500 * n

/-- Blocks in the sums of R69: populated and not fenced. -/
def sumBlocks (d : Dev) : List Nat := (blockList d).filter (fun b => !blkOut d b)

def rateSum (d : Dev) : Nat := sumNat ((sumBlocks d).map (rateB d))
/-- E_seal_reserve in mJ (Table 4.1). -/
def sealReserve (d : Dev) : Nat := sumNat ((sumBlocks d).map d.adm.reserve)
/-- ADM_P_CURTAIN: e_byte × rate_ref in mW (R69). -/
def pCurtain (d : Dev) : Nat := d.adm.eByteFj * d.adm.rateRef / 1000000
/-- E_avail_cons in mJ: the estimator's, or zero with no pack behind a closed switch (R76). -/
def eAvailNow (d : Dev) : Nat :=
  if d.pins.packPresN || !d.pkb.switchClosed then 0 else d.est.eCons
/-- The energy above E_fixed and the seal reserve, in mJ. -/
def eFree (d : Dev) : Nat := eAvailNow d - d.adm.eFixed.toNat - sealReserve d
/-- e_eff of R69 in fJ/B. With no rate in any block the rule divides by zero: e_byte is shown, and the shares
are zero, DESIGN CHOICE (log entry 159). -/
def eEff (d : Dev) : Nat :=
  if rateSum d = 0 then d.adm.eByteFj else d.adm.eByteFj * (d.adm.rateRef * 1000) / rateSum d
/-- Bytes that the free energy carries at rate `r` kB/s of the device's share (R69): the quotient is
taken once, so no rounding enters before it. Log entry 16. -/
def energyBytes (d : Dev) (r : Nat) : Nat :=
  if d.adm.eByteFj * d.adm.rateRef = 0 then 0
  else eFree d * 10 ^ 12 * r / (d.adm.eByteFj * (d.adm.rateRef * 1000))
/-- e_share_b: e_term × rate_b ÷ rate_sum (R69). -/
def shareB (d : Dev) (b : Nat) : Nat :=
  if rateSum d = 0 then 0 else energyBytes d (rateB d b)
def blkBudgetNow (d : Dev) (b : Nat) : Nat := min (shareB d b) (spaceB d b)

/-- A value is traced 100 ms after it last was, or at once where it moved by 1 % or more (R346). -/
def traceDue (ht last was now : Nat) : Bool :=
  last = 0 || last + 400000000 ≤ ht || (was ≠ now && was ≤ 100 * (max was now - min was now))

/-- The recompute event, as often as R346 lets it. -/
def traceBudget (d : Dev) : Dev :=
  if traceDue d.tmb.ht d.obs.recompTraced d.obs.budgetTraced d.adm.budget then
    trace 0x1001 82 d.adm.budget (unstagedAll d)
      { d with obs := { d.obs with recompTraced := d.tmb.ht, budgetTraced := d.adm.budget } }
  else d

/-- recompute() of R69: every term read once, the results held from this cycle on (R74, R75). -/
def recompute (d : Dev) : Dev :=
  let bs := sumBlocks d
  traceBudget { d with adm := { d.adm with
    eAvail := eAvailNow d
    packZero := d.pins.packPresN || !d.pkb.switchClosed
    eEff := eEff d, rateSum := rateSum d / 1000
    eTerm := energyBytes d (rateSum d)
    blkShare := bs.map (fun b => (b, shareB d b))
    blkSpace := bs.map (fun b => (b, spaceB d b))
    blkBudget := bs.map (fun b => (b, blkBudgetNow d b))
    budget := sumNat (bs.map (blkBudgetNow d))
    recalcHt := d.tmb.ht } }

def blkBudget (d : Dev) (b : Nat) : Nat := Tab.get 0 d.adm.blkBudget b
def blkShare (d : Dev) (b : Nat) : Nat := Tab.get 0 d.adm.blkShare b
def blkSpace (d : Dev) (b : Nat) : Nat := Tab.get 0 d.adm.blkSpace b

/-! ### Shares (R82) -/

def sharing (d : Dev) : List Nat := fnNumbers.filter (fun f => setUp d f && fnEnabled d f)
def share (d : Dev) (f : Nat) : Nat :=
  if (sharing d).contains f then
    d.adm.budget * d.adm.weight f / sumNat ((sharing d).map d.adm.weight)
  else 0
def borrowed (d : Dev) (f : Nat) : Nat := unstagedF d f - share d f

/-! ### The test at commit (R78, R84, R85) -/

/-- What a test answers: commit, or the status it fails with; `block` and `quota` say which later
holds a failure blocks. -/
inductive Verdict where
  | commit
  | failBlock (status : Nat)
  | failQuota (status : Nat)
  deriving DecidableEq, Repr

/-- Payload of a block's WRITE_THROUGH holds being staged (R85). -/
def stagingB (d : Dev) (b : Nat) : Nat :=
  sumNat ((d.descs.filter (fun x => x.phase = .staging && x.block = b)).map Desc.bytesLen)

/-- HT so near the wrap that every HOLD and COMMIT is refused (R50). -/
def htNearWrap (d : Dev) : Bool := 0xFFFF000000000000 ≤ d.tmb.ht

/-- No HOLD or COMMIT commits (R50, R61, R195): HT is near its wrap or not above the image, or a manager
waits for its children's responses. -/
def commitBarred (d : Dev) : Bool := htNearWrap d || belowStamps d || d.hrk.waitResponses

def admitTest (d : Dev) (x : Desc) : Verdict :=
  let b := x.block
  let l := x.bytesLen
  if d.chp.mode = .writeThrough then
    (if unstagedB d b + stagingB d b + l ≤ blkSpace d b then .commit else .failBlock stSpace)
  else if blkBudget d b < unstagedB d b + l then
    .failBlock (if blkShare d b ≤ blkSpace d b then stEnergy else stSpace)
  else if unstagedF d x.fn + l ≤ share d x.fn then
    (if d.adm.shortE then .failBlock stEnergy else .commit)
  else if d.adm.borrow x.fn && !d.adm.reclaim.contains x.fn then
    (if d.adm.shortE then .failBlock stEnergy else .commit)
  else .failQuota stQuota

/-- A status that a waiting hold of the same or a higher class passes to a later hold (R80): by home
block, or by function. -/
structure Blocks where
  blocks : List (Nat × Nat) := []
  fns : List (Nat × Nat) := []

def Blocks.find (k : Blocks) (x : Desc) : Option Nat :=
  match k.blocks.find? (fun e => e.1 = x.block) with
  | some e => some e.2
  | none => (k.fns.find? (fun e => e.1 = x.fn)).map Prod.snd

def Blocks.add (k : Blocks) (x : Desc) : Verdict → Blocks
  | .commit => k
  | .failBlock s => { k with blocks := k.blocks ++ [(x.block, s)] }
  | .failQuota s => { k with fns := k.fns ++ [(x.fn, s)] }

/-- The verdict of a hold behind the blocks of those before it. -/
def judge (d : Dev) (k : Blocks) (x : Desc) : Verdict :=
  match k.find x with
  | some s => .failBlock s
  | none => admitTest d x

/-- Commit a hold (R1, R28, R53): commit HT and class, the extent, its pages. `record` is the record
that already carries them (WRITE_THROUGH), or none when they become unstaged. -/
def commitHold (x : Desc) (record : Option Nat) (d : Dev) : Dev :=
  let cls := commitClass d
  let (ht, d) := stamp d
  let eid := d.nextEid
  let ext : Extent := {
    eid, fn := x.fn, tag := x.entry.tag, caddr := x.entry.caddr, pages := x.entry.pages, ht, cls
    seq := x.seq, hidx := d.hrk.index, epochId := d.tmb.epochId }
  let d := updPages (pagesOf x.entry.caddr x.entry.pages) (fun _ => {
    kind := .held, eid, fn := x.fn, unstaged := record.isNone, record }) d
  let d := prune { d with
    exts := d.exts ++ [ext], nextEid := eid + 1
    tmb := { d.tmb with epochCommitted := true, bootCommit := true } }
  let delay := if x.waited then max 1 (usBetween x.readyHt ht) else 0
  countFn x.fn 7 x.bytesLen
    (finish x stSuccess 0 0 (if x.waited then 1 else 0) delay ht d)

/-- Place of a function behind the ordering point's round-robin pointer, which advances by one function
each cycle (R28). The rule gives neither its start nor whether absent functions have a place: it starts at
function 1 and steps through all 63, DESIGN CHOICE (log entry 158). -/
def turnOf (d : Dev) (f : Nat) : Nat := (f + 64 - (1 + d.tmb.cycles % 63)) % 63

/-- Waiting holds of a class, in order of readiness (R80); those ready at one HT reached the ordering point
in one cycle and stand in its round-robin order (R28). Of one function the spec gives no order there: the
model takes the order of fetch, DESIGN CHOICE (log entry 131). -/
def waitingOf (d : Dev) (cls : Nat) : List Desc :=
  sortBy (fun x => x.readyHt * 64 + turnOf d x.fn) (d.descs.filter (fun x => x.phase = .waiting && x.cls = cls))

def waitingAll (d : Dev) : List Desc :=
  waitingOf d 3 ++ waitingOf d 2 ++ waitingOf d 1 ++ waitingOf d 0

/-- What the holds already waiting, of the hold's own or a higher class, block (R80). -/
def blocksBefore (d : Dev) (cls : Nat) : Blocks :=
  (waitingAll d).foldl (fun k x =>
    if x.cls < cls then k
    else if (k.find x).isSome then k
    else k.add x (admitTest d x)) {}

/-! ### Shortfall, reclaim, pressure (R83, R84, R92) -/

def shortB (d : Dev) (b : Nat) : Nat := unstagedB d b - blkBudget d b

def updateShortfall (d : Dev) : Dev :=
  let bs := (sumBlocks d).filter (fun b => 0 < shortB d b)
  let total := sumNat (bs.map (shortB d))
  let was := d.adm.shortfall
  let d := { d with adm := { d.adm with
    shortfall := total
    shortE := bs.any (fun b => blkShare d b ≤ blkSpace d b)
    shortS := bs.any (fun b => blkSpace d b < blkShare d b) } }
  if was = 0 ∧ total ≠ 0 then postEvent 5 0 [1, total] (trace 0x1004 82 total 1 d)
  else if was ≠ 0 ∧ total = 0 then postEvent 5 0 [0, 0] (trace 0x1004 82 0 0 d)
  else d

/-- The functions against which reclaim is active (R83). -/
def reclaimNow (d : Dev) : List Nat :=
  if !d.chp.mode.admits then []
  else
    let lenders := (waitingAll d).filter (fun x =>
      (match admitTest d x with | .failBlock _ => true | _ => false)
        && unstagedF d x.fn + x.bytesLen ≤ share d x.fn)
    let any := fun f => lenders.any (fun x => x.fn ≠ f) || 0 < d.adm.shortfall
    fnNumbers.filter (fun f => 0 < borrowed d f && any f)

def maskOf (fs : List Nat) : Nat := sumNat (fs.map (fun f => 2 ^ f))

def updateReclaim (d : Dev) : Dev :=
  let now := reclaimNow d
  let was := d.adm.reclaim
  let d := { d with adm := { d.adm with reclaim := now } }
  if was = [] ∧ now ≠ [] then postEvent 4 0 [1, maskOf now] (trace 0x1005 82 (maskOf now) 1 d)
  else if was ≠ [] ∧ now = [] then postEvent 4 0 [0, maskOf was] (trace 0x1005 82 (maskOf was) 0 d)
  else d

/-- Evaluate waiting holds in their order, committing each that passes (R80); reclaim is told anew before
each test (R83), and a stamp that has come to the bound of R50 commits no further one; while the index's insertion queue
is full a hold stays ready (R275). In WRITE_THROUGH a hold that passes waits for its staging to begin (R85). -/
def evaluate : List Desc → Blocks → Dev → Dev
  | [], _, d => d
  | x :: xs, k, d =>
    let d := updateReclaim d
    if commitBarred d then evaluate xs k (refuse x stMode d)
    else match judge d k x with
    | .commit => evaluate xs k (if d.chp.mode.admits && !insqFull d then commitHold x none d else d)
    | v =>
      let s := match v with
        | .failBlock s => s
        | .failQuota s => s
        | .commit => 0
      evaluate xs (if (k.find x).isSome then k else k.add x v)
        (updDesc x.handle (fun y => { y with failed := s }) d)

/-- Evaluation until reclaim stands still: a lender's commit can end the reclaim that held others back. -/
def evaluateAll : Nat → Dev → Dev
  | 0, d => d
  | n + 1, d =>
    let d := updateReclaim d
    let e := updateReclaim (evaluate (waitingAll d) {} d)
    if e.adm.reclaim = d.adm.reclaim then e else evaluateAll n e

/-- Every waiting hold is refused: no commit is taken (R50, R61, R195). -/
def refuseWaiting (d : Dev) : Dev := updateReclaim ((waitingAll d).foldl (fun d x => refuse x stMode d) d)

/-- Evaluation happens in the modes that admit, and in WRITE_THROUGH; the drain of SERVICE_ENTER delays
holds (R40). -/
def evaluateWaiting (d : Dev) : Dev :=
  if !((d.chp.mode.admits || d.chp.mode = .writeThrough) && !d.svc.drain) then updateReclaim d
  else if commitBarred d then refuseWaiting d
  else evaluateAll ((waitingAll d).length + 1) d

/-- Pressure from 90 % of the block's budget until below 80 % (R92). -/
def updatePressure (d : Dev) : Dev :=
  (blockList d).foldl (fun d b =>
    let u := unstagedB d b
    let g := blkBudget d b
    let p := u ≠ 0 && (if (getBlk d b).pressure then g * 80 ≤ u * 100 else g * 90 ≤ u * 100)
    updBlk b (fun k => { k with pressure := p }) d) d

/-- Pressure where nothing is unstaged ends, whatever the budget (R92). -/
def pressureOver (d : Dev) : Dev :=
  { d with blk := d.blk.map (fun e => (e.1, { e.2 with pressure := e.2.pressure && unstagedB d e.1 ≠ 0 })) }

/-! ### Derating and the settled mode (R34, R35) -/

/-- 3σ exceeds EST_DERATE_BOUND, in hundredths of a percent of design energy, or a rest point is overdue
under policy DENY (R205, R211). -/
def uncertaintyHigh (d : Dev) : Bool :=
  clamp 50 1000 (field d.est.derateBound 0 16) * d.est.design < d.est.sigma3 * 10000
    || (d.est.restDue && !bit d.est.ctl 0)

/-- CHP_MODE.DERATE, bits 0 to 4 for bits 8 to 12 of the register (Table 2.2). -/
def derateBits (d : Dev) : Nat :=
  boolNat (uncertaintyHigh d)
    + 2 * boolNat ((blockList d).any (fun b => rateBlock d b < 22500000))
    + 4 * boolNat ((blockList d).any (fun b => (getBlk d b).crossSave))
    + 8 * boolNat ((blockList d).any (blkOut d))
    + 16 * boolNat ((List.range 64).any (fun s =>
        (getSlot d s).bound && (getSlot d s).fn ≠ 0
          && ((getSlot d s).nonceUnknown || 2 ^ 64 - 2 ^ 32 ≤ (getSlot d s).ctr)))

/-- The first line of settle(): no usable pack, or the drain of host loss. -/
def packHolds (d : Dev) : Bool :=
  d.pins.packPresN || !d.pkb.switchClosed || d.adm.hostLossDrain || d.pkb.bay = .draining

/-- The budget is what holds the device in WRITE_THROUGH (R34). -/
def budgetHolds (d : Dev) : Bool := !packHolds d && d.adm.budget < mib

/-- settle() of R34. An orderly removal holds WRITE_THROUGH while it drains (R224). Log entry 27. -/
def settleMode (d : Dev) : Mode :=
  if packHolds d then .writeThrough
  else if d.adm.budget < mib then .writeThrough
  else if derateBits d ≠ 0 then .derated
  else .armed

/-! ### Entering and leaving the modes of this chapter -/

/-- The rehearsal area's units (Table 18.2) of every live target are to be erased again before the next
rehearsal (R38). They are kept with the foreign units. -/
def soilArea (d : Dev) : Dev :=
  if d.reh.written = [] then d
  else
    let units := (blockList d).flatMap (fun b => (workingCells d b).flatMap (fun c =>
      ((List.range 8).filter (fun t => !(getCell d c).deadTargets.contains t)).flatMap (fun t =>
        [(c, t, 338), (c, t, 339)])))
    { d with flash := { d.flash with foreign := units ++ d.flash.foreign } }

/-- Every populated block has its rehearsal area erased. -/
def areaErased (d : Dev) : Bool := !(d.flash.foreign.any (fun u => 338 ≤ u.2.2 && u.2.2 ≤ 339))

/-- A rehearsal ends without its result (R39): its test records are abandoned and e_byte stands. A
REHEARSE in flight completes with REFUSED_MODE, or is abandoned at a FAIL (R265). -/
def abortRehearsal (answer : Bool) (d : Dev) : Dev :=
  if d.chp.mode ≠ .rehearsal then d
  else
    let h := d.reh.handle
    let d := soilArea d
    let d := { d with flash := { d.flash with records := d.flash.records.filter (fun r => r.kind ≠ RKind.test || r.written) } }
    let d := { d with reh := { d.reh with handle := 0, key := 0, written := [], burstBytes := 0,
                                          burstUj := 0, burstRate := 0 } }
    match findDesc d h with
    | some x => if answer then endWith x stMode 0 0 d else dropDesc h d
    | none => d

/-- Entry to WRITE_THROUGH: the transition, the lists of R47 where data is still unstaged, SAFE
marks elsewhere, and the end of reclaim. -/
def enterWriteThrough (cause trigger : Nat) (d : Dev) : Dev :=
  let d := abortRehearsal true d
  let d := transition .writeThrough cause d
  let d := writeLists47 trigger d
  let d := (blockList d).foldl (fun d b => safeMark b d) d
  updateReclaim { d with
    pages := Tab.mapVals (fun (p : Page) => { p with remainder := p.unstaged }) d.pages
    adm := { d.adm with wtGood := 0, wtBudget := budgetHolds d } }

/-- Entry to a mode that admits, from one that does not: EXPOSE before admission resumes (R385). -/
def enterAdmitting (m : Mode) (cause : Nat) (d : Dev) : Dev :=
  exposeAll (transition m cause d)

/-- A frequency change that waited for a settled mode is made (R306). -/
def resumeFsp (d : Dev) : Dev :=
  if d.drc.fspState ≠ 4 then d
  else trace 0x4003 79 2 0 { d with drc := { d.drc with fspState := 2 } }

/-- Entry to the settled mode with a cause (rows 8, 15, 23, 25). -/
def enterSettled (cause : Nat) (d : Dev) : Dev :=
  resumeFsp (match settleMode d with
    | .writeThrough => enterWriteThrough cause 5 d
    | m => enterAdmitting m cause d)

/-- A device in WRITE_THROUGH because of its budget leaves it only after its run of good cadence
recomputations (R34). Log entry 17. -/
def wtMayLeave (d : Dev) : Bool := !d.adm.wtBudget || 11 ≤ d.adm.wtGood

/-- Rows 16 to 19 of Table 2.3 for the budget, the pack and the derating reasons. Cause 0x0E is a
pack removal; a switch that a fault has opened leaves no energy, cause 0x10 as for the budget; 0x08 is host
loss. -/
def modeRows (d : Dev) : Dev :=
  if d.chp.mode.admits then
    if d.pins.packPresN then enterWriteThrough 0x0E 5 d
    else if d.adm.budget < mib || !d.pkb.switchClosed then enterWriteThrough 0x10 5 d
    else if d.adm.hostLossDrain then enterWriteThrough 0x08 5 d
    else if d.chp.mode = .armed && derateBits d ≠ 0 then transition .derated 0x11 d
    else if d.chp.mode = .derated && derateBits d = 0 then transition .armed 0x12 d
    else d
  else if d.chp.mode = .writeThrough then
    (match settleMode d with
     | .armed => if wtMayLeave d then enterAdmitting .armed 0x0F d else d
     | .derated => if wtMayLeave d then enterAdmitting .derated 0x0F d else d
     | _ => d)
  else d

/-- The count of successive cadence recomputations that found the budget at 2 MiB or more (R34);
event-driven ones do not count, and any that finds less restarts it. -/
def countGood (cadence : Bool) (d : Dev) : Dev :=
  { d with adm := { d.adm with
      wtGood := if d.adm.budget < 2 * mib then 0
        else if cadence then d.adm.wtGood + 1 else d.adm.wtGood
      wtBudget := d.chp.mode = .writeThrough && (d.adm.wtBudget || budgetHolds d) } }

/-! ### Learning and its floor (R214, R215) -/

/-- The floor test of R215 fails: a block's share falls below 1.25 times its unstaged bytes. -/
def learnFloor (d : Dev) : Bool :=
  d.est.learning && (d.est.learnPhase = 3)
    && (sumBlocks d).any (fun b => blkShare d b * 4 < unstagedB d b * 5)

/-- EST_LEARN_STATUS. -/
def learnStatus (e : Est) : Nat :=
  e.learnPhase % 16 * 2 ^ 28 + e.learnResult % 16 * 2 ^ 24 + e.learnCause % 256 * 2 ^ 16 + boolNat e.learnNew

def traceLearn (d : Dev) : Dev := trace 0x8004 80 (learnStatus d.est) 0 d

/-- A learning cycle ends as non-qualifying with a cause; phase 5 only recharges, and its end changes
no result (R214). -/
def endLearning (cause : Nat) (d : Dev) : Dev :=
  if !d.est.learning then d
  else if d.est.learnPhase = 5 then traceLearn { d with est := { d.est with learning := false, learnPhase := 0, shareMa := 0 } }
  else
    let d := { d with est := { d.est with
      learning := false, learnPhase := 0, shareMa := 0, learnResult := 2, learnCause := cause } }
    traceLearn (postEvent 0x10 0 [learnStatus d.est] d)

/-- The discharge of a learning cycle ends at once where the floor test fails (R215). -/
def floorTest (d : Dev) : Dev := if learnFloor d then endLearning 7 d else d

/-- What a change of an unstaged count or of the budget brings (R80, R83, R84, R92, R215): pressure is told
before the holds that it lets commit, and after them. -/
def countsChanged (d : Dev) : Dev :=
  floorTest (updatePressure (updateShortfall (evaluateWaiting (updatePressure (updateShortfall d)))))

/-- Rows 16 to 19 where a reason of theirs changed; a change of mode forces a recomputation of its own. -/
def reasonsChanged (d : Dev) : Dev :=
  let e := modeRows d
  if e.chp.mode = d.chp.mode then e else countsChanged (recompute e)

/-- Everything a recomputation brings (R75): the budget, the shortfall, the waiting holds, reclaim,
pressure, and the settled mode. -/
def reevaluate (cadence : Bool) (d : Dev) : Dev := reasonsChanged (countsChanged (countGood cadence (recompute d)))

/-- The modes in which a recomputation runs: the ordering point must be powered (Table 1.6). -/
def orderingPowered (d : Dev) : Bool :=
  d.chp.mode ≠ .dark && d.chp.mode ≠ .intermission && d.chp.mode ≠ .sealed

/-- The islands of a block are powered (Table 1.6): not those of a fenced block, but in the modes of an
encore. -/
def blockOn (d : Dev) (b : Nat) : Bool :=
  populated d b && orderingPowered d
    && (!(getBlk d b).fenced || d.chp.mode = .boot || d.chp.mode = .encore || d.chp.mode = .reconcile)

/-- An event of Table 4.2: the budget is recomputed at once wherever the ordering point is on. -/
def recomputeNow (d : Dev) : Dev := if orderingPowered d then reevaluate false d else d

end Sys2Proof.Machine
end

