-- ==== Sys2Proof/Machine/Links.lean ====
section
/-!
DEFINITION. Harka frames (R181, R182): routing, sending, acknowledgement, and the directory entries
of R187. The commands of the hierarchy are in Hierarchy.lean.
-/

namespace Sys2Proof.Machine

/-- The Harka island is on and has not failed (R340): it is powered with the time base, in CURTAIN
only on a manager or worker (Table 1.6). -/
def harkaOn (d : Dev) : Bool :=
  d.tmb.powered && !d.chp.fatalIslands.contains 77 && (d.chp.mode ≠ .curtain || d.hrk.role ≠ 0)

def getPort (d : Dev) (p : Nat) : Port := Tab.get {} d.hrk.ports p

/-- The uplink port (R182): HK0, the standby port after a switch (R193), and on a waiting manager its link
to worker 1 (R195). -/
def uplink (d : Dev) : Nat :=
  if d.hrk.inWaiting then ((d.hrk.ports.find? (fun e => e.2.trained && e.2.peer = 1)).map Prod.fst).getD 0
  else if d.hrk.onStandby then d.hrk.standbyPort else 0

/-- Index of the lead: 0, or 1 after a takeover (R180). -/
def leadIndex (d : Dev) : Nat := if d.hrk.takeover then 1 else 0

/-- The device's own index as SRC: 0xFFFF before ASSIGN (Table 10.2). -/
def ownIndex (d : Dev) : Nat := if d.hrk.role = 0 then 0xFFFF else d.hrk.index

/-- Port toward a destination (R182): the downlink learned for it, else the uplink. -/
def portTo (d : Dev) (dst : Nat) : Nat :=
  match d.hrk.routes.find? (fun e => e.1 = dst) with
  | some (_, p) => p
  | none => uplink d

/-- Ports that are trained, and the downlinks among them. -/
def trainedPorts (d : Dev) : List Nat := (List.range 9).filter (fun p => (getPort d p).trained)
def downlinks (d : Dev) : List Nat := (trainedPorts d).filter (fun p => (getPort d p).dir = 1)

/-- Ports toward the devices below: the downlinks, and from worker 1 as lead the link to the waiting manager
(R195). -/
def belowPorts (d : Dev) : List Nat :=
  downlinks d ++ (if d.hrk.lead && d.hrk.takeover && (getPort d 0).trained then [0] else [])

/-- The downlinks and the link to a waiting manager over which frames for every device below go: not one that only
serves a standby port, which carries cues and ACKs (R179). -/
def treePorts (d : Dev) : List Nat := (belowPorts d).filter (fun p => p = 0 || (getPort d p).tree)

/-- Put a frame on a port, if the port carries frames. -/
def putFrame (f : Frame) (d : Dev) (p : Nat) : Dev :=
  if !(harkaOn d && (getPort d p).trained) then d
  else countPort p 6 (wireLen f.payload) (countPort p 0 1 (emit (.frame p f f.bytes) d))

/-- A frame of this device, with its next SEQ (Table 10.2). -/
def newFrame (type dst : Nat) (ackReq : Bool) (payload : List Byte) (d : Dev) : Frame × Dev :=
  ({ type, src := ownIndex d, dst, seq := d.hrk.frameSeq, ackReq, payload },
    { d with hrk := { d.hrk with frameSeq := (d.hrk.frameSeq + 1) % 2 ^ 32 } })

/-- Send a frame on a port, if it is trained; one with ACK_REQ stays until acknowledged, on a lost port too, where
it fails after its repeats (R182, R196). -/
def sendOn (p type dst : Nat) (ackReq : Bool) (payload : List Byte) (d : Dev) : Dev :=
  if !(harkaOn d && (ackReq || (getPort d p).trained)) then d
  else
    let (f, d) := newFrame type dst ackReq payload d
    putFrame f { d with hrk := { d.hrk with
      unacked := if ackReq then d.hrk.unacked ++ [(p, 0, f)] else d.hrk.unacked } } p

def sendFrame (type dst : Nat) (ackReq : Bool) (payload : List Byte) (d : Dev) : Dev :=
  sendOn (portTo d dst) type dst ackReq payload d

/-- One frame to every device below the sender (DST 0xFFFF). -/
def sendDown (type : Nat) (payload : List Byte) (d : Dev) : Dev :=
  if !harkaOn d || treePorts d = [] then d
  else
    let (f, d) := newFrame type 0xFFFF false payload d
    (treePorts d).foldl (putFrame f) d

/-- The frame that came in, as it goes on: unchanged, its SRC that of the sender (R182). -/
def onward (h : FrameIn) (type : Nat) (payload : List Byte) : Frame :=
  { type, src := h.src, dst := h.dst, seq := h.seq, ackReq := h.ackReq, retry := h.retry, payload }

/-- A frame comes in at a port that carries frames: one whose HCRC or payload CRC fails is dropped and
counted (R181). -/
def arrive (h : FrameIn) (payload : List Byte) (f : Dev → Dev) (d : Dev) : Dev :=
  if !(harkaOn d && (getPort d h.port).trained) then d
  else if !h.intact then
    countPort h.port 2 1 (updPort h.port (fun q => { q with crcErr := satAdd 16 q.crcErr 1 }) d)
  else f (countPort h.port 7 (wireLen payload) (countPort h.port 1 1 d))

/-- ACK (Table 10.3). Its STATUS byte has no stated meaning and is sent as a free value. -/
def sendAck (p dst seq : Nat) (d : Dev) : Dev :=
  let (v, d) := fresh d
  sendOn p 0x0F dst false (ackBytes seq (v % 256)) d

/-- What a destination does with a frame from `who` (R182): one with ACK_REQ is acknowledged, and a SEQ
already acknowledged is discarded. -/
def acked (h : FrameIn) (who : Nat) (f : Dev → Dev) (d : Dev) : Dev :=
  let back := if h.src = 0xFFFF then 0xFFFE else h.src
  if !h.ackReq then f d
  else if d.hrk.seenSeqs.contains (h.port, who, h.seq) then sendAck h.port back h.seq d
  else f (sendAck h.port back h.seq { d with hrk := { d.hrk with
    seenSeqs := ((h.port, who, h.seq) :: d.hrk.seenSeqs).take 4096 } })

/-- A frame is taken by its destination, passed to every device below, or forwarded (R182). -/
def routed (h : FrameIn) (type : Nat) (payload : List Byte) (f : Dev → Dev) (d : Dev) : Dev :=
  let g := onward h type payload
  if h.dst = 0xFFFF then f (((treePorts d).filter (· ≠ h.port)).foldl (putFrame g) d)
  else if h.dst = 0xFFFE || h.dst = ownIndex d then f d
  else putFrame g d (portTo d h.dst)

/-- A frame other than a cue, its response or an ACK has come over a port. A standby uplink carries none until the
switch (R179). Below, the port is a tree link; and worker 1 as lead learns there the way to a device that has come over
by its standby port, to which no ASSIGN led. DEDUCED (log entry 176). -/
def overTree (h : FrameIn) (f : Dev → Dev) (d : Dev) : Dev :=
  if (getPort d h.port).dir = 2 then d
  else
    let d := updPort h.port (fun q => { q with tree := q.tree || q.dir = 1 }) d
    f (if d.hrk.lead && d.hrk.takeover && (getPort d h.port).dir = 1 && h.src < 512
        && !(d.hrk.routes.any (fun e => e.1 = h.src)) then
      { d with hrk := { d.hrk with routes := (h.src, h.port) :: d.hrk.routes } } else d)

/-- A frame of the routed types comes in. -/
def receive (h : FrameIn) (type : Nat) (payload : List Byte) (f : Dev → Dev) (d : Dev) : Dev :=
  arrive h payload (overTree h (routed h type payload (acked h h.src f))) d

/-- A device that reports to another lead: a worker, or a manager in waiting. -/
def subordinate (d : Dev) : Bool := !d.hrk.lead && (d.hrk.role = 2 || d.hrk.inWaiting)

/-- The device acts as lead of a hierarchy (R180, R195). -/
def actsLead (d : Dev) : Bool := d.hrk.lead && d.hrk.role ≠ 0 && !d.hrk.waitResponses

/-- JOIN (R180): serial, stored index or 0xFFFF, populated mask, TAKEOVER_EN, epoch. -/
def sendJoin (d : Dev) : Dev :=
  sendOn 0 3 (leadIndex d) true (joinBytes {
    serial := d.board.serial, storedIdx := d.flash.hidx.getD 0xFFFF, populated := 2 ^ d.board.blocks - 1
    takeoverEn := bit d.hrk.ctl 10, epochId := d.tmb.epochId })
    { d with hrk := { d.hrk with joining := true, joins := [] } }

/-- The Harka island loses power: its links, what they carried, and the lead's view of other devices. -/
def harkaDown (d : Dev) : Dev :=
  { d with hrk := { d.hrk with
    ports := Tab.mapVals (fun (p : Port) => { p with
      trained := false, following := false, dir := 3, responses := 0, peer := 0, tree := false }) d.hrk.ports
    unacked := [], seenSeqs := [], joining := false, joins := [], t4 := [], nodes := [], routes := []
    onStandby := false, sawTakeover := false } }

/-- A switch to the standby port ends: HK0 is the uplink again (R193). -/
def endStandby (d : Dev) : Dev :=
  if !d.hrk.onStandby then d
  else
    let d := updPort d.hrk.standbyPort (fun q => { q with dir := if q.trained then 2 else q.dir, following := false }) d
    let d := updPort 0 (fun q => { q with dir := if q.trained then 0 else q.dir }) d
    { d with hrk := { d.hrk with onStandby := false } }

/-- What a boot ends in the hierarchy: a deposed state (R194), a switch to standby (R193), the lead and
floor of a takeover (R59, R192), and a transfer under way (R191). Worker 1 then joins again. -/
def hierarchyBoot (d : Dev) : Dev :=
  let back := d.hrk.role = 2 && d.hrk.lead
  let d := endStandby d
  let d := { d with
    hrk := { d.hrk with
      deposed := false, lead := d.hrk.lead && !back, takeover := d.hrk.takeover && !back
      nodes := if back then [] else d.hrk.nodes
      xferState := if 1 ≤ d.hrk.xferState && d.hrk.xferState ≤ 3 then 5 else d.hrk.xferState }
    tmb := { d.tmb with floorU := 0, follower := d.tmb.follower || back } }
  if back then sendJoin d else d

/-- After every restart of its time base a manager waits for its children's responses (R195). -/
def awaitResponses (d : Dev) : Dev :=
  if d.hrk.role = 1 then
    { d with hrk := { d.hrk with
      waitResponses := true, respGm1 := false, inWaiting := false
      ports := Tab.mapVals (fun (p : Port) => { p with responses := 0 }) d.hrk.ports } }
  else d

/-! ### Status (R185, Table 10.5) -/

/-- TMB_STATUS.STATE: a grandmaster is FREE, and a follower with no bound UNBOUNDED. -/
def timeState (d : Dev) : Nat :=
  if roleOpen d then d.tmb.state
  else if (uncertainty d).isNone then 5
  else if !d.tmb.follower then 0
  else d.tmb.state

/-- Warmest working pack sensor, in 0.1 °C. -/
def warmest (d : Dev) : Int :=
  match d.est.ntc1Bad, d.est.ntc2Bad with
  | true, false => d.est.ntc2
  | false, true => d.est.ntc1
  | _, _ => max d.est.ntc1 d.est.ntc2

/-- The gauge in 0.01 % (R212). -/
def gauge (d : Dev) : Nat := (d.est.gauge / 10 ^ 11).toNat

def ownStatus (d : Dev) : StatusFrame :=
  { hidx := d.hrk.index, mode := d.chp.mode.code, derate := derateBits d
    timeByte := commitClass d + 16 * timeState d
    flags := boolNat (!d.pins.packPresN) + 2 * boolNat d.est.learning + 4 * boolNat d.chp.rehearsePend
      + 8 * boolNat d.adm.eByteMeasured + 16 * boolNat d.hrk.onStandby + 32 * boolNat d.hrk.deposed
      + 64 * boolNat (d.hrk.ports.any (fun e => e.2.lost))
    blocks := 2 ^ d.board.blocks - 1
    heldOut := maskOf ((blockList d).filter (fun b => (getBlk d b).heldOut))
    eAvail := d.adm.eAvail, pCurtain := pCurtain d, budget := d.adm.budget, unstaged := unstagedAll d
    shortfall := d.adm.shortfall, rehHt := d.reh.lastHt, sentHt := d.tmb.ht
    packTemp := ((warmest d).emod 65536).toNat, gauge := gauge d }

/-- STATUS goes to the lead; the lead's own goes to every device below it, since R150 and R192 act on
it. Log entry 30. -/
def sendStatus (d : Dev) : Dev :=
  let w := statusBytes (ownStatus d)
  if subordinate d then sendFrame 5 (leadIndex d) false w d
  else if d.hrk.role = 0 then d
  else sendDown 5 w d

/-- The summary with mode INTERMISSION on every trained link before I9 (R124). -/
def sendStatusAll (d : Dev) : Dev :=
  if d.hrk.role = 0 then d
  else ((trainedPorts d).filter (fun p => p = uplink d || (treePorts d).contains p)).foldl (fun d p =>
    sendOn p 5 (if p = uplink d then leadIndex d else 0xFFFF) false (statusBytes (ownStatus d)) d) d

/-! ### Directory (R187) -/

/-- A block holds data of a function (Table 10.6): in its pages, or in records of a block held out or of
one that a transfer filled, whose pages no encore has placed. -/
def fnInBlock (d : Dev) (f b : Nat) : Bool :=
  d.pages.any (fun e => e.2.fn = f && blockOf (pageAddr e.1) = b && (e.2.kind = .held || e.2.kind = .clean))
    || d.flash.records.any (fun r => r.fn = f && r.block = b && r.written && (r.kind = .stage || r.kind = .curtain)
        && ((getBlk d b).heldOut || d.flash.xferRecs.contains r.id))
def fnBlocks (d : Dev) (f : Nat) : Nat := sumNat (((blockList d).filter (fnInBlock d f)).map (fun b => 2 ^ b))

/-- Custody of a function's key: 1 host-held. -/
def fnCustody (d : Dev) (f : Nat) : Nat :=
  boolNat ((List.range 64).any (fun s => (getSlot d s).bound && (getSlot d s).fn = f && (getSlot d s).hostHeld))

/-- The device's own entry of a function; `moved` is 4 or 5 after a transfer. -/
def ownEntry (d : Dev) (f moved : Nat) : DirEntry :=
  let blocks := fnBlocks d f
  { serial := d.board.serial, hidx := d.hrk.index, fn := f, blocks
    state := if moved ≠ 0 then moved
      else if (getFn d f).keyPending then 2
      else if blocks = 0 then 0
      else if (blockList d).any (fun b => bit (BitVec.ofNat 8 blocks) b && (getBlk d b).heldOut) then 3
      else 1
    custody := fnCustody d f, updates := Tab.get 0 d.hrk.ownUpdates f }

/-- The two 8-byte words of an entry (HRK_DIR_RESULT0 and 1). -/
def dirWord1 (e : DirEntry) : Nat :=
  e.hidx % 2 ^ 16 + e.fn % 256 * 2 ^ 16 + e.blocks % 256 * 2 ^ 24 + e.state % 256 * 2 ^ 32
    + e.custody % 256 * 2 ^ 40 + e.updates % 65536 * 2 ^ 48

/-- Store entries in the lead's directory, keyed by serial and function. -/
def storeDir (es : List DirEntry) (d : Dev) : Dev :=
  { d with hrk := { d.hrk with
    dir := es.foldl (fun l e => l.filter (fun o => !(o.serial = e.serial && o.fn = e.fn)) ++ [e]) d.hrk.dir } }

/-- The lead forwards every update to worker 1, which keeps the mirror. -/
def forwardDir (es : List DirEntry) (d : Dev) : Dev :=
  if d.hrk.index ≠ 1 && (Tab.get {} d.hrk.nodes 1).present then sendFrame 6 1 true (es.flatMap dirBytes) d else d

/-- Own entries sent: every device keeps its own; the lead forwards them, another device sends a
DIR_UPDATE frame toward the lead. -/
def sendDir (es : List DirEntry) (d : Dev) : Dev :=
  if es = [] then d
  else
    let d := storeDir es d
    if d.hrk.lead then forwardDir es d
    else if subordinate d then sendFrame 6 (leadIndex d) true (es.flatMap dirBytes) d
    else d

/-- A change of a function's entry (R187): its UPDATES count advances and the entry is sent. -/
def dirChanged (f moved : Nat) (d : Dev) : Dev :=
  let d := { d with hrk := { d.hrk with
    ownUpdates := Tab.upd 0 d.hrk.ownUpdates f (fun n => (n + 1) % 65536) } }
  sendDir [ownEntry d f moved] d

/-- A block is held out: the entries of the functions with data in it change (R187). -/
def dirHeldOut (b : Nat) (d : Dev) : Dev :=
  (fnNumbers.filter (fun f => fnInBlock d f b)).foldl (fun d f => dirChanged f 0 d) d

/-- Every function with data, or set up, sends its entry (at JOIN and at the end of RECONCILE). -/
def sendAllDir (d : Dev) : Dev :=
  sendDir ((fnNumbers.filter (fun f => setUp d f || fnBlocks d f ≠ 0)).map (fun f => ownEntry d f 0)) d

/-! ### Reconcile frames of a device (R188) -/

/-- The running-order entries of a device: its restore list but for UNACK entries (R63, R142). -/
def runEntries (d : Dev) : List OrderEntry := d.enc.order.filter (fun e => !e.unack)

/-- The sort key of R63. -/
def orderKeyNat (k : OrderKey) : Nat :=
  ((k.ht * 512 + k.hidx % 512) * 256 + k.fn % 256) * 2 ^ 32 + k.seq % 2 ^ 32

/-- Merge keys of the device's running-order entries in the order of R63; the local index is the place in
the restore list. -/
def ownKeys (d : Dev) : List OrderKey :=
  sortBy orderKeyNat ((runEntries d).zipIdx.map (fun e => {
    ht := e.1.ht, seq := e.1.seq, hidx := e.1.hidx, fn := e.1.fn, cls := e.1.cls, epochId := e.1.epochId
    localIdx := e.2 }))

/-- Frames of up to 170 keys each; `n` bounds the frames. -/
def sendKeyFrames : Nat → Nat → List OrderKey → Dev → Dev
  | 0, _, _, d => d
  | n + 1, first, ks, d =>
    if ks = [] then d
    else
      let now := ks.take 170
      sendKeyFrames n (first + now.length) (ks.drop 170)
        (sendFrame 9 (leadIndex d) true (keysBytes first now) d)

/-- C2 (R150): HT is past the image; a worker then streams its keys to the lead. -/
def tryC2 (d : Dev) : Dev :=
  if d.chp.mode ≠ .reconcile || Tab.get 0 d.enc.rcnHt 2 ≠ 0 || belowStamps d then d
  else
    let d := trace 0x042 79 (2 ^ d.board.blocks - 1) 0
      { d with enc := { d.enc with rcnHt := Tab.set d.enc.rcnHt 2 d.tmb.ht } }
    if subordinate d then sendKeyFrames (d.enc.order.length + 1) 0 (ownKeys d) d else d

end Sys2Proof.Machine
end

