-- ==== Sys2Proof/Machine/Staging.lean ====
section
/-!
DEFINITION. Shadow staging, log cleaning, compaction and scrub (chapter 5) and the admission
commands (chapter 4).
-/

namespace Sys2Proof.Machine

/-! ### What is staged, and when (R86 to R88) -/

/-- An extent's stage delay has passed (R87). -/
def eligible (d : Dev) (x : Extent) : Bool := x.ht + d.stageDelayTicks ≤ d.tmb.ht

/-- Extents of functions that borrow. -/
def borrowers (d : Dev) (xs : List Extent) : List Extent :=
  xs.filter (fun x => d.adm.reclaim.contains x.fn)

/-- A hold waits within its share in this block (Table 5.1, reclaim row). -/
def lenderWaits (d : Dev) (b : Nat) : Bool :=
  d.adm.reclaim ≠ [] && (waitingAll d).any (fun x => x.block = b
    && unstagedF d x.fn + x.bytesLen ≤ share d x.fn)

/-- Pages that a part's loss returned are staged again at once, whatever the stage delay (R97, R101). -/
def dueNow (d : Dev) (x : Extent) : Bool := eligible d x || (ownUnstaged d x).any (fun p => (getPage d p).restage)

/-- The extents a block stages next, in the order of the highest row of Table 5.1 that applies; the drain of
SERVICE_ENTER takes every one, whatever the delay (R40). -/
def stagingOrder (d : Dev) (b : Nat) : List Extent :=
  let xs := unstagedExts d b
  let shortfall := blkBudget d b < unstagedB d b
  if d.chp.mode = .writeThrough then xs
  else if shortfall then
    (if d.adm.reclaim ≠ [] then borrowers d xs ++ xs.filter (fun x => !d.adm.reclaim.contains x.fn) else xs)
  else if lenderWaits d b then
    borrowers d xs ++ (xs.filter (fun x => !d.adm.reclaim.contains x.fn && (d.svc.drain || dueNow d x)))
  else if d.svc.drain || (getBlk d b).pressure then xs
  else xs.filter (dueNow d)

/-- The leading extents that one record can carry: whole extents of one function, index and epoch, at most
4 MiB (R88). -/
def packPrefix (d : Dev) (f : Nat) (origin : Nat × Nat) (room : Nat) : List Extent → List Extent
  | [] => []
  | x :: xs =>
    let n := pageBytes * (ownUnstaged d x).length
    if x.fn = f ∧ (x.hidx, x.epochId) = origin ∧ n ≤ room then x :: packPrefix d f origin (room - n) xs else []

/-- Extents already in a record not yet counted written are not taken twice. -/
def inFlight (d : Dev) (x : Extent) : Bool :=
  d.flash.records.any (fun r => !r.written && r.kind ≠ .releaseNote
    && r.runs.any (fun g => g.ht = x.ht && g.caddr = x.caddr))

/-- Stage the next record of a block's held extents. -/
def stageHeld (m : List Host.Cell) (b : Nat) (kind : RKind) (xs : List Extent) (d : Dev) : Dev :=
  match xs.filter (fun x => !inFlight d x && (encryptSlot d x.fn).isSome) with
  | [] => d
  | x :: rest =>
    let chosen := sortBy Extent.ht (packPrefix d x.fn (x.hidx, x.epochId) (4 * mib) (x :: rest))
    let runs := chosen.flatMap (fun x => runsOf x (ownUnstaged d x) false 0)
    match startRecord m b kind x.fn runs false 0 (x.hidx, x.epochId) d with
    | some (_, d) => d
    | none => d

/-- The first WRITE_THROUGH hold of a block that passes its space test behind its blocks (R85). -/
def nextWtHold (d : Dev) (b : Nat) : List Desc → Blocks → Option Desc
  | [], _ => none
  | x :: xs, k =>
    match judge d k x with
    | .commit => if x.block = b then some x else nextWtHold d b xs k
    | v => nextWtHold d b xs (if (k.find x).isSome then k else k.add x v)

/-- Begin staging a WRITE_THROUGH hold: its record carries the pages as they stand now. -/
def stageWtHold (m : List Host.Cell) (x : Desc) (d : Dev) : Dev :=
  let run : Run := {
    ht := 0, tag := x.entry.tag, caddr := x.entry.caddr, extPages := x.entry.pages, runStart := 0
    runPages := x.entry.pages, seq := x.seq, cls := 0, unack := false, descId := 0 }
  match startRecord m x.block .stage x.fn [run] false x.handle (originNow d) d with
  | some (id, d) => updDesc x.handle (fun y => { y with phase := .staging, recs := [id] }) d
  | none => d

/-- The modes in which staging runs (Table 2.6, R43, R40). -/
def stagingRuns (d : Dev) : Bool :=
  d.chp.mode.admits || d.chp.mode = .writeThrough || d.chp.mode = .service

/-- A block can stage: populated, not fenced or held out, its own or its partner's path working. -/
def canStage (d : Dev) (b : Nat) : Bool :=
  populated d b && !(getBlk d b).fenced && !(getBlk d b).heldOut
    && (!(getBlk d b).pathFailed || (getBlk d b).crossSave)

/-- Extents of a block with a page unstaged since before the entry to WRITE_THROUGH (R85). -/
def remainderExts (d : Dev) (b : Nat) : List Extent :=
  (unstagedExts d b).filter (fun x => (ownUnstaged d x).any (fun p => (getPage d p).remainder))

/-- STAGING_RECORD_START (R87): in WRITE_THROUGH the remainder, then the hold that passes its space test,
then whatever else is unstaged. -/
def stagingStart (b : Nat) (m : List Host.Cell) (d : Dev) : Dev :=
  if !(stagingRuns d && canStage d b) then d
  else
    let d := updateShortfall d
    if d.chp.mode = .writeThrough ∧ !d.svc.drain then
      (if remainderExts d b ≠ [] then stageHeld m b .stage (remainderExts d b) d
       else match nextWtHold d b (waitingAll d) {} with
         | some x => stageWtHold m x d
         | none => stageHeld m b .stage (stagingOrder d b) d)
    else stageHeld m b .stage (stagingOrder d b) d

/-! ### A record counts written (R20) -/

/-- Complete the descriptors whose last note this record is. -/
def noteWritten (id : Nat) (d : Dev) : Dev :=
  let hit := d.descs.filter (fun x => x.recs.contains id && x.phase = .noted)
  hit.foldl (fun d x =>
    let rest := x.recs.filter (· ≠ id)
    if rest = [] then endWith x stSuccess x.result x.bytes d
    else updDesc x.handle (fun y => { y with recs := rest }) d) d

/-- The record of a WRITE_THROUGH hold that has ended without a commit carries no extent: nothing of it is
restored (R1). Log entry 133. -/
def emptyRecord (id : Nat) (d : Dev) : Dev := updRec id (fun r => { r with runs := [], poison := [] }) d

/-- A WRITE_THROUGH hold commits as its record counts written, with its commit HT taken then (R85); it is
refused where no commit may be taken (R50, R61, R195), and waits, to be staged again, while the index's insertion queue is
full (R275). -/
def wtCommit (r : Rec) (d : Dev) : Dev :=
  match (findDesc d r.handle).filter (fun x => x.phase = .staging) with
  | some x =>
    if commitBarred d then refuse x stMode (emptyRecord r.id d)
    else if insqFull d then updDesc x.handle (fun y => { y with phase := .waiting, waited := true, recs := [] }) (emptyRecord r.id d)
    else
      let ht := d.tmb.ht
      let cls := commitClass d
      let d := updRec r.id (fun r => { r with
        runs := r.runs.map (fun g => { g with ht, cls }), firstHt := ht, lastHt := ht }) d
      commitHold { x with waited := true } (some r.id) d
  | none => emptyRecord r.id d

/-- The bytes that a record saves in a curtain: of CURTAIN records, and of staging records in flight at the FAIL
(SPW_CURTAIN_SAVED, UNACK SAVED). -/
def curtainSaved (r : Rec) (d : Dev) : Dev :=
  match r.kind with
  | .curtain | .stage =>
    if d.chp.mode ≠ .curtain || r.handle ≠ 0 then d
    else countBlk r.home 2 r.bytes { d with cur := { d.cur with
      saved := d.cur.saved + r.bytes, savedB := Tab.upd 0 d.cur.savedB r.home (· + r.bytes) } }
  | .unack => { d with cur := { d.cur with unackSaved := d.cur.unackSaved + r.runs.length } }
  | _ => d

/-- A program to a cell or target that has gone cannot count written. -/
def placeWorks (d : Dev) (c t : Nat) : Bool := !(getCell d c).failed && !(getCell d c).deadTargets.contains t

/-- A copy under way counts written: it is now the record's place, its source freed (R96). -/
def copyWritten (r : Rec) (p : Nat × Nat × Nat × Nat) (d : Dev) : Dev :=
  let d := updRec r.id (fun r => { r with
    cell := p.1, target := p.2.1, position := p.2.2.1, segment := p.2.2.2, moving := none
    slc := true, readable := true, authentic := true, tlc := none, tlcVerified := false }) d
  closeUnits (journalBoth p.1 r.id d)

/-- RECORD_COUNTED_WRITTEN (R20): of a record being written, or of the copy of one that cleaning or the
scrub relocates. -/
def recordWritten (id : Nat) (d : Dev) : Dev :=
  match findRec d id with
  | none => d
  | some r =>
    if r.written then
      (match r.moving with
       | some p => if p.2.2.1 < 200 && placeWorks d p.1 p.2.1 then countsChanged (copyWritten r p d) else d
       | none => d)
    else if !placeWorks d r.cell r.target && r.bytes ≠ 0 then d
    else
      let d := curtainSaved r (countWritten r d)
      let d := if r.handle = 0 then d else wtCommit r d
      let d := noteWritten id d
      let d := if d.chp.mode = .writeThrough then (blockList d).foldl (fun d b => safeMark b d) d else d
      countsChanged d

/-- Retire a unit: it takes no further program (R314). -/
def retireUnit (c t pos : Nat) (d : Dev) : Dev :=
  { d with flash := { d.flash with retired := (c, t, pos) :: d.flash.retired } }

/-- Cells of a failed program in the order of its re-issue (R20): its own, then the next of its block. -/
def reissueCells (d : Dev) (c : Nat) : List (List Nat) :=
  ((List.range 8).map (fun i => 8 * (c / 8) + (c + i) % 8)).filter (fun k => !(getCell d k).failed) |>.map (fun k => [k])

/-- Room for a program issued again: another target of the same cell than the failed one, else the next cell. -/
def reissueRoom (r : Rec) (c t : Nat) (d : Dev) : Option ((Nat × Nat × Nat × Nat) × Dev) :=
  (reissueCells d c).findSome? (fun k => takeRoomOn k (fun u => u ≠ (c, t)) (c / 8) r.id r.bytes r.headLen d)

/-- The UNACK entry of a ready hold (R108). -/
def unackEntry (d : Dev) (x : Desc) : ListEntry :=
  { ht := if x.readyHt = 0 then d.tmb.ht else x.readyHt, caddr := x.entry.caddr, pages := x.entry.pages
    fn := x.fn, unack := true, amend := false, tag := x.entry.tag, seq := x.seq
    descId := x.entry.descId, cls := commitClass d }

/-- A body that cannot be programmed any more is given up: its pages stay unstaged. A WRITE_THROUGH hold waits
again; once admission has stopped it is one that has not committed: refused with the link kept (R41), else
one of the ready holds (R108). -/
def giveUp (r : Rec) (d : Dev) : Dev :=
  let d := cipherDone r.block r.id { d with flash := { d.flash with records := d.flash.records.filter (fun q => q.id ≠ r.id) } }
  match (findDesc d r.handle).filter (fun x => x.phase = .staging) with
  | none => d
  | some x =>
    if d.chp.mode = .curtain && d.cur.linkKept then refuse x stMode d
    else if d.chp.mode = .curtain || d.chp.mode = .intermission then
      dropDesc x.handle { d with int := { d.int with ready := sortBy ListEntry.ht (d.int.ready ++ [unackEntry d x]) } }
    else updDesc x.handle (fun y => { y with phase := .waiting, recs := [] }) d

/-- The program of a record, or of a copy of it, is issued again elsewhere (R20). A head-only record takes
the next working cell's journal. A copy into TLC is abandoned (R99), and one that finds no room given up: its
source stays live. -/
def reissue (id : Nat) (d : Dev) : Dev :=
  match findRec d id with
  | none => d
  | some r =>
    match r.moving with
    | some p =>
      (match (if p.2.2.1 < 200 then reissueRoom r p.1 p.2.1 d else none) with
       | some (q, d) => drawCredit (p.1 / 8) r.bytes (updRec id (fun r => { r with moving := some q }) d)
       | none => updRec id (fun r => { r with moving := none }) d)
    | none =>
      if r.bytes = 0 then updRec id (fun r => { r with cell := nextWorking d r.cell }) d
      else match reissueRoom r r.cell r.target d with
        | some (q, d) =>
          let d := updRec id (fun r => { r with cell := q.1, target := q.2.1, position := q.2.2.1, segment := q.2.2.2 }) d
          let d := drawCredit (q.1 / 8) r.bytes (if r.written then journalBoth q.1 id d else d)
          (match d.flash.books.find? (fun k => k.recordId = id) with
           | some k => appendAnchor k { r with cell := q.1, target := q.2.1, position := q.2.2.1, segment := q.2.2.2 } d
           | none => d)
        | none => if r.written then d else giveUp r d

/-- The unit that a failing program of the record was in: of its copy, of its TLC copy not yet verified, or of the
record itself while it is being written. A list or a book counts written in the step that writes it, so the
failure of its program or of its read-back (R113) is told after it. -/
def failingUnit (r : Rec) : Option (Nat × Nat × Nat) :=
  match r.moving with
  | some p => some (p.1, p.2.1, p.2.2.1)
  | none =>
    if !r.written then some (r.cell, r.target, r.position)
    else if r.tlc.isSome && !r.tlcVerified then some (r.tlcCell, r.tlcTarget, 200 + r.tlc.getD 0)
    else if r.kind = .list || r.kind = .book then some (r.cell, r.target, r.position)
    else none

/-- PROGRAM_FAIL (R20, R314): the unit is retired and the record issued again; a TLC copy is abandoned
(R99), and so is TLC cleaning's. A failure in a curtain sets STATUS.FAULT (R120). -/
def programFail (id : Nat) (d : Dev) : Dev :=
  match findRec d id with
  | none => d
  | some r =>
    match failingUnit r with
    | none => d
    | some (c, t, pos) =>
      let d := countCell c 6 1 d
      let d := if r.bytes = 0 then d else retireUnit c t pos d
      let d := updCell c (fun k => { k with fails := Tab.upd 0 k.fails t (fun n => satAdd 16 n 1) }) d
      let d := if d.chp.mode = .curtain then { d with cur := { d.cur with faultFlag := true } } else d
      let d := raiseFault {
        code := 0x0103, level := 1, island := c, severity := 1, target := t, unit := pos } d
      recomputeNow (
        if pos < 200 then reissue id d
        else updRec id (fun r => { r with moving := none, tlc := if r.tlcVerified then r.tlc else none }) d)

/-- PROGRAM_FAIL (R20, R314). -/
def execProgramFail (id : Nat) (s : State) : Answer := onDev (programFail id) s

/-! ### Wear credit (R91) -/

/-- One millisecond's fill: debt is repaid first, the rest fills the bucket up to 256 GB. A fall of the debt
lowers the mark of its last event, `warn` bytes a step. -/
def fillBlock (warn : Nat) (k : Blk) : Blk :=
  let repay := min 100000 k.debt
  { k with
    debt := k.debt - repay, credit := min 256000000000 (k.credit + 100000 - repay)
    debtMark := min k.debtMark ((k.debt - repay - 1) / warn) }

def wearFill (d : Dev) : Dev :=
  (blockList d).foldl (fun d b => updBlk b (fillBlock d.debtWarnBytes)
    (countBlk b 9 (boolNat (getBlk d b).pressure) (countBlk b 10 (boolNat (0 < shortB d b)) d))) d

/-- WEAR_CREDIT_FILL (R91). -/
def execWearCreditFill (s : State) : Answer := onDev wearFill s

def storeWear (d : Dev) : Dev :=
  (blockList d).foldl (fun d b =>
    updBlk b (fun k => { k with storedCredit := k.credit, storedDebt := k.debt }) d) d

/-- WEAR_STATE_STORE (R91): in ARMED, DERATED, WRITE_THROUGH, REHEARSAL and SERVICE. -/
def execWearStateStore (s : State) : Answer :=
  onDev (fun d => if stagingRuns d then storeWear d else d) s

/-! ### The log ring -/

/-- Whether a stripe position holds a body that must stand. -/
def positionLive (d : Dev) (b p : Nat) : Bool :=
  d.flash.records.any (fun r => r.block = b && r.bytes ≠ 0
    && ((r.position = p && r.slc && r.onSlc && bodyStands d r) || r.moving.any (fun q => q.2.2.1 = p)))

/-- The shift waits: the leaving position is live or holds WP (R94). The pool position that would enter must be
erased before it does; of a shift due while it is not R94 says nothing: the model defers it as well, DESIGN
CHOICE (log entry 161). -/
def shiftWaits (d : Dev) (b : Nat) : Bool :=
  let k := getBlk d b
  positionLive d b k.wb || k.wp = k.wb || !stripeErased d b ((k.wb + 192) % 200)

/-- WINDOW_SHIFT (R94): a shift that falls due, or that was deferred. Stripe writes count on from the one
that made it due, and a deferral is counted once. -/
def windowShift (b : Nat) (d : Dev) : Dev :=
  let k := getBlk d b
  if !(64 ≤ k.sinceShift || k.shiftDeferred) || !populated d b || d.chp.mode = .curtain || d.chp.mode = .intermission
      || d.chp.mode = .encore then d
  else
    let since := if k.shiftDeferred then k.sinceShift else k.sinceShift - 64
    if shiftWaits d b then
      trace 0x2002 (64 + b) (b + k.wb * 256 + k.wp * 65536) 1
        (updBlk b (fun k => { k with
          sinceShift := since, shiftDeferred := true
          shiftDeferrals := satAdd 16 k.shiftDeferrals (boolNat (!k.shiftDeferred)) }) d)
    else
      trace 0x2002 (64 + b) (b + k.wb * 256 + k.wp * 65536) 0
        (countBlk b 6 1 (updBlk b (fun k => { k with
          sinceShift := since, shiftDeferred := false, wb := (k.wb + 1) % 200
          shifts := k.shifts + 1 }) d))

/-- WINDOW_SHIFT (R94). -/
def execWindowShift (b : Nat) (s : State) : Answer := onDev (windowShift b) s

/-- The modes of cleaning, compaction and scrub (R96, R98, R100). -/
def cleaningRuns (d : Dev) : Bool := d.chp.mode.settled || d.chp.mode = .service

/-- The stripe that cleaning works on (R96): the leaving position of a deferred shift first (R94), else the
first written one after the erased run. -/
def oldestStripe (k : Blk) : Option Nat :=
  if k.shiftDeferred && k.wb ≠ k.wp && Tab.get .erased k.stripes k.wb = .written then some k.wb
  else (positionsAfter k).find? (fun p => Tab.get .erased k.stripes p = .written)

/-- A pool position still written, to be erased before it re-enters the window (R94). -/
def poolDirty (k : Blk) : Option Nat :=
  ((List.range 8).map (fun i => (k.wb + 192 + i) % 200)).find? (fun p => Tab.get .erased k.stripes p = .written)

/-- More than 85 % of the window's payload is live pSLC payload: compaction at any age (R98). -/
def forcedCompact (d : Dev) (b : Nat) : Bool :=
  192 * stripePayload d b * 85 < livePayload d b false * 100

/-- A copy of a record is programmed at WP, unchanged; the source stays live until it counts written. -/
def relocate (b : Nat) (r : Rec) (d : Dev) : Dev :=
  match takeRoom b r.id r.bytes r.headLen d with
  | some (p, d) =>
    countBlk b 4 r.bytes (drawCredit b r.bytes (updRec r.id (fun r => { r with moving := some p }) d))
  | none => d

/-- One record of the stripe being cleaned: to the compaction queue at the compaction age, else
rewritten unchanged at WP (R96). Books (R170) and unresolved lists are always rewritten there. -/
def cleanRecord (b : Nat) (r : Rec) (d : Dev) : Dev :=
  let old := recLive d r.id && (d.compactAgeTicks ≤ d.tmb.ht - r.writeHt || forcedCompact d b)
  let full := 64 ≤ (getBlk d b).compactQ.length && !forcedCompact d b
  if r.moving.isSome || !r.written || r.tlc.isSome || (getBlk d b).compactQ.contains r.id then d
  else if old && !full then updBlk b (fun k => { k with compactQ := k.compactQ ++ [r.id] }) d
  else relocate b r d

/-- Mode of a unit as FLC_ADDR numbers modes: TLC for the stripes of the TLC region. -/
def unitMode (pos : Nat) : Nat := boolNat (200 ≤ pos && pos < 328)

/-- An erase starts on a unit whose intent stands. -/
def eraseNow (c t pos mode : Nat) (port : Bool) (d : Dev) : Dev :=
  trace 0x3001 c (c + t * 256 + pos * 65536) 0
    (updCell c (fun k =>
      { k with erases := Tab.set k.erases t { unit := pos, mode, port, seq := Tab.get 0 d.flash.journalSeq c } }) d)

/-- A unit is to be erased: its intent is journalled (R323) and the erase starts, or waits for the one under
way on its target. Units are named by ring position (0 to 199), 200 plus the TLC stripe, or unit number
from 328 on. -/
def startErase (c t pos mode : Nat) (port : Bool) (d : Dev) : Dev :=
  let seq := Tab.get 0 d.flash.journalSeq c + 1
  let d := { d with flash := { d.flash with
    intents := (c, t, pos) :: d.flash.intents.filter (fun i => i ≠ (c, t, pos)), journalSeq := Tab.set d.flash.journalSeq c seq } }
  if (getCell d c).erases.any (fun e => e.1 = t) then d else eraseNow c t pos mode port d

/-- Commands of a port that read, and that program. -/
def opReads (op : Nat) : Bool := op = 1 || op = 2 || op = 3 || op = 4 || op = 5
def opPrograms (op : Nat) : Bool := op = 0x10 || op = 0x11

/-- FLC_ADDR.TARGET. -/
def aTarget (a : W64) : Nat := field a 0 3

/-- The address that a port's executing command works on. -/
def workAddr (k : CellSt) : W64 := if (k.op = 4 || k.op = 5) && k.index ≠ 0 then k.nextAddr else k.addr

/-- A read of the target waits at the port; it is served before a pending erase (R19). -/
def portReads (d : Dev) (c t : Nat) : Bool :=
  let k := getCell d c
  (k.port = .queued || k.port = .executing) && opReads k.op && aTarget (workAddr k) = t

/-- Intents whose erase has not started, on targets that can take one; none new under WARN (R105), nor one behind
a read that is pending. -/
def waitingIntents (d : Dev) (b : Nat) : List (Nat × Nat × Nat) :=
  if d.spw.warn then []
  else d.flash.intents.filter (fun i => i.1 / 8 = b && placeWorks d i.1 i.2.1
    && !(getCell d i.1).erases.any (fun e => e.1 = i.2.1) && !portReads d i.1 i.2.1)

/-- Start them, the oldest first on each target. -/
def resumeIntents (b : Nat) (d : Dev) : Dev :=
  ((waitingIntents d b).reverse).foldl (fun d i =>
    if (getCell d i.1).erases.any (fun e => e.1 = i.2.1) then d else eraseNow i.1 i.2.1 i.2.2 (unitMode i.2.2) false d) d

def eraseUnitsOf (b pos : Nat) (d : Dev) : Dev :=
  (workingCells d b).foldl (fun d c =>
    (List.range 8).foldl (fun d t =>
      if !placeWorks d c t || d.flash.retired.contains (c, t, pos) then d
      else startErase c t pos (unitMode pos) false d) d) d

/-- A record that must stand has its body, or a copy under way, in the unit. -/
def unitHolds (d : Dev) (u : Nat × Nat × Nat) : Bool :=
  d.flash.records.any (fun r => r.bytes ≠ 0 && bodyStands d r
    && ((r.cell = u.1 && r.target = u.2.1 && r.onSlc && r.slc && r.position = u.2.2)
      || (r.tlcCell = u.1 && r.tlcTarget = u.2.1 && r.tlc.map (· + 200) = some u.2.2)
      || r.moving.any (fun p => p.1 = u.1 && p.2.1 = u.2.1 && p.2.2.1 = u.2.2)))

/-- Foreign units of a block whose erase has not started: the device erases them again before it uses
them (R320), once no record that encore has read from them stands there alone; not in SERVICE, in which the host
fills them. Log entry 180. -/
def foreignUnits (d : Dev) (b : Nat) : List (Nat × Nat × Nat) :=
  (d.flash.foreign.eraseDups).filter (fun u => u.1 / 8 = b && !d.flash.intents.contains u
    && d.chp.mode ≠ .service && !unitHolds d u)

/-- Records with a body in the pSLC stripe at a position. -/
def bodiesAt (d : Dev) (b p : Nat) : List Rec :=
  d.flash.records.filter (fun r => r.block = b && r.position = p && r.slc && r.bytes ≠ 0)

/-- A stripe with no body that must stand is erased: what lay there alone is gone, and a record with a
verified TLC copy stands there alone. -/
def eraseStripe (b p : Nat) (d : Dev) : Dev :=
  let at_ := fun (r : Rec) => r.block = b && r.position = p && r.slc && r.bytes ≠ 0
  let d := dropRecs (fun r => at_ r && r.onSlc) d
  let d := { d with flash := { d.flash with records := d.flash.records.map (fun r =>
      if at_ r then { r with slc := false } else r) } }
  eraseUnitsOf b p (updBlk b (fun k => { k with stripes := Tab.set k.stripes p .erasing }) d)

/-- The work of LOG_CLEANING on one stripe: relocate or queue what must stand; once nothing is left, journal
the intents and start the erase. -/
def cleanStripe (b p : Nat) (d : Dev) : Dev :=
  let stand := (bodiesAt d b p).filter (fun r => r.onSlc && bodyStands d r)
  let d := stand.foldl (fun d r => cleanRecord b r d) d
  if positionLive d b p || d.spw.warn then d else eraseStripe b p d

/-- LOG_CLEANING (R96): intents that wait, foreign units (R320) and dirty pool positions (R94) are erased
first; then the oldest stripe is worked on. No new erase starts while WARN is asserted (R105). -/
def logClean (b : Nat) (d : Dev) : Dev :=
  if !(cleaningRuns d && canStage d b) then d
  else if waitingIntents d b ≠ [] then resumeIntents b d
  else if foreignUnits d b ≠ [] && !d.spw.warn then
    (foreignUnits d b).foldl (fun d u => startErase u.1 u.2.1 u.2.2 (unitMode u.2.2) false d) d
  else match poolDirty (getBlk d b) with
  | some p => countsChanged (cleanStripe b p d)
  | none =>
    match oldestStripe (getBlk d b) with
    | none => d
    | some p => recomputeNow (cleanStripe b p d)

/-- LOG_CLEANING (R96). -/
def execLogCleaning (b : Nat) (s : State) : Answer := onDev (logClean b) s

/-- A unit erased: what a port had put there is gone and it is programmed from its first segment. -/
def clearUnit (c t u : Nat) (d : Dev) : Dev :=
  let d := dropRecs (fun r => r.kind = RKind.test && r.cell = c && r.target = t && r.position = u) d
  { d with flash := { d.flash with
    segments := d.flash.segments.filter (fun e => !(e.1.1 = c && e.1.2.1 = t && e.1.2.2.1 = u))
    unitNext := d.flash.unitNext.filter (fun e => e.1 ≠ (c, t, u))
    units := d.flash.units.filter (fun e => !(e.cell = c && e.target = t && e.position = u))
    foreign := d.flash.foreign.filter (fun e => e ≠ (c, t, u)) } }

/-- A stripe is erased when none of its units has an intent left. -/
def stripeDone (b pos : Nat) (d : Dev) : Dev :=
  if d.flash.intents.any (fun e => e.1 / 8 = b && e.2.2 = pos) then d
  else if 328 ≤ pos then d
  else if 200 ≤ pos then updBlk b (fun k => { k with tlcStripes := Tab.set k.tlcStripes (pos - 200) .erased }) d
  else if Tab.get .erased (getBlk d b).stripes pos = .erasing then
    recomputeNow (updBlk b (fun k => { k with stripes := Tab.set k.stripes pos .erased }) d)
  else d

/-- A port answers where its block is populated and its islands are not powered down by a fence (R26, R30). -/
def portPresent (d : Dev) (c : Nat) : Bool :=
  populated d (c / 8) && (!(getBlk d (c / 8)).fenced || blockOn d (c / 8))

/-- An erase ends (R323). The cells of a fenced block, powered down, end none. -/
def eraseComplete (c t : Nat) (d : Dev) : Dev :=
  match (if portPresent d c then getCell d c else {}).erases.find? (fun e => e.1 = t) with
  | none => d
  | some e =>
    if e.2.suspended then d
    else
      let u := e.2.unit
      let d := updCell c (fun k => { k with
        erases := Tab.drop k.erases t
        port := if e.2.port then .done else k.port
        result := if e.2.port then 1 else k.result }) d
      let d := { d with flash := { d.flash with
        intents := d.flash.intents.filter (fun i => i ≠ (c, t, u)) } }
      let d := clearUnit c t u d
      let d := if e.2.port && u < 328 then { d with flash := { d.flash with foreign := (c, t, u) :: d.flash.foreign } } else d
      let d := trace 0x3004 c (c + t * 256 + u * 65536) 3000 (countCell c 2 1 d)
      stripeDone (c / 8) u (if orderingPowered d && d.chp.mode ≠ .curtain then resumeIntents (c / 8) d else d)

/-! #### What a port programs (R317, R318) -/

def aUnit (a : W64) : Nat := field a 4 9
def aSegment (a : W64) : Nat := field a 16 10
def aMode (a : W64) : Nat := field a 26 2
def aLen (a : W64) : Nat := field a 48 16

/-- FLC_ADDR with another target and segment. -/
def aMove (a : W64) (t s : Nat) : W64 :=
  (a &&& ~~~(0x03FF0007 : W64)) ||| BitVec.ofNat 64 (t + s * 65536)

/-- The name of a unit in the journal of this model: ring position, 200 plus TLC stripe, or itself. -/
def unitName (u : Nat) : Nat := if u < 192 then u else if u < 320 then u + 8 else if u < 328 then u - 128 else u

/-- A segment counts as programmed: content, next segment, and the foreign mark outside the shelf
(R320). -/
def putSegment (c : Nat) (a : W64) (w : Tab Byte) (d : Dev) : Dev :=
  let key := (c, aTarget a, unitName (aUnit a), aSegment a)
  let unit := (c, aTarget a, unitName (aUnit a))
  let d := countCell c 1 1 d
  { d with flash := { d.flash with
    segments := (key, w) :: d.flash.segments.filter (fun e => e.1 ≠ key)
    unitNext := (unit, aSegment a + 1) :: d.flash.unitNext.filter (fun e => e.1 ≠ unit)
    foreign := if aUnit a < 328 then unit :: d.flash.foreign else d.flash.foreign } }

/-- LOAD_TLC: the first two pages of a word line wait in the page buffer and are programmed with the
third (R318). -/
def putTlc (c : Nat) (a : W64) (d : Dev) : Dev :=
  let s := aSegment a
  let unit := (c, aTarget a, unitName (aUnit a))
  let pages := (getCell d c).tlcPages ++ [(s, (getCell d c).window)]
  if s % 3 ≠ 2 then
    updCell c (fun k => { k with tlcPages := pages })
      { d with flash := { d.flash with
        unitNext := (unit, s + 1) :: d.flash.unitNext.filter (fun e => e.1 ≠ unit) } }
  else
    updCell c (fun k => { k with tlcPages := [] })
      (pages.foldl (fun d p => putSegment c (aMove a (aTarget a) p.1) p.2 d) d)

/-- Port programs executing are finished (R115, R331). -/
def finishPrograms (d : Dev) : Dev :=
  (d.cells.map Prod.fst).foldl (fun d c =>
    let k := getCell d c
    if k.port ≠ .executing then d
    else if k.op = 0x10 then putSegment c k.addr k.window d
    else if k.op = 0x11 then putTlc c k.addr d
    else d) d

/-- Port commands cut off (R331): RESULT ABANDONED, for those queued, or for every one; the program that one
has begun is finished. -/
def abandonPorts (all : Bool) (d : Dev) : Dev :=
  let d := if all then finishPrograms d else d
  { d with cells := Tab.mapVals (fun (c : CellSt) =>
      if c.port = .queued || (all && (c.port = .executing || c.port = .reading)) then
        { c with port := .done, result := 13, ready := false, left := 0, tlcPages := [] }
      else c) d.cells }

/-! ### Compaction (R98, R99) -/

def tlcErased (d : Dev) (b p : Nat) : Bool :=
  Tab.get .erased (getBlk d b).tlcStripes p = .erased
    && !(d.flash.foreign.any (fun e => e.1 / 8 = b && e.2.2 = 200 + p))
def tlcErasedCount (d : Dev) (b : Nat) : Nat :=
  ((List.range 128).filter (tlcErased d b)).length

/-- Room for a TLC copy of record `id`: in the open TLC stripe, else in the next erased one, which opens. -/
def tlcRoom (b : Nat) (r : Rec) (d : Dev) : Option ((Nat × Nat × Nat × Nat) × Dev) :=
  let k := getBlk d b
  let segs := segmentsOf r.bytes
  match (if Tab.get .erased k.tlcStripes k.tlcOpen = .written then roomAt b (200 + k.tlcOpen) r.id segs r.headLen (cellsInTurn d b) (fun _ => true) d
    else none) with
  | some x => some x
  | none =>
    match ((List.range 128).map (fun i => (k.tlcOpen + i) % 128)).find? (tlcErased d b) with
    | none => none
    | some p =>
      let d := updBlk b (fun k => { k with
        tlcOpen := p, tlcSeq := k.tlcSeq + 1, tlcSeqs := Tab.set k.tlcSeqs p (k.tlcSeq + 1)
        tlcStripes := Tab.set k.tlcStripes p .written }) d
      roomAt b (200 + p) r.id segs r.headLen (cellsInTurn d b) (fun _ => true) d

/-- Records with a copy in a TLC stripe. -/
def tlcBodies (d : Dev) (b p : Nat) : List Rec := d.flash.records.filter (fun r => r.block = b && r.tlc = some p)

/-- A TLC stripe of no live record is erased. -/
def eraseTlc (b p : Nat) (d : Dev) : Dev :=
  let d := dropRecs (fun r => r.block = b && r.tlc = some p && !r.slc) d
  let d := { d with flash := { d.flash with records := d.flash.records.map (fun r =>
      if r.block = b && r.tlc = some p then { r with tlc := none, tlcVerified := false } else r) } }
  eraseUnitsOf b (200 + p) (updBlk b (fun k => { k with tlcStripes := Tab.set k.tlcStripes p .erasing }) d)

/-- With fewer than 4 TLC stripes erased, one gives its live records to the open stripe and, once none is
left, is erased (R98). The spec does not name it: the model takes the lowest-numbered written one but the
open one. DESIGN CHOICE (log entry 134). -/
def tlcClean (b : Nat) (d : Dev) : Dev :=
  let k := getBlk d b
  if 4 ≤ tlcErasedCount d b then d
  else match (List.range 128).find? (fun p => p ≠ k.tlcOpen && Tab.get .erased k.tlcStripes p = .written) with
  | none => d
  | some p =>
    let live := (tlcBodies d b p).filter (fun r => recLive d r.id)
    if live = [] then (if d.spw.warn then d else eraseTlc b p d)
    else live.foldl (fun d r =>
      if r.moving.isSome || !r.tlcVerified then d
      else match tlcRoom b r d with
        | some (q, d) => updRec r.id (fun r => { r with moving := some q }) d
        | none => d) d

/-- COMPACTION_COPY (R98): TLC cleaning where it is due, then the first queued record is copied into the open
TLC stripe, unchanged; its source stays live until the group verifies. With no room it stays queued. -/
def compactCopy (b : Nat) (d : Dev) : Dev :=
  if !(cleaningRuns d && canStage d b) then d
  else
    let d := tlcClean b d
    match (getBlk d b).compactQ with
    | [] => d
    | id :: rest =>
      let next := fun d => updBlk b (fun k => { k with compactQ := rest }) d
      match findRec d id with
      | none => next d
      | some r =>
        if !recLive d id || r.tlc.isSome || r.moving.isSome then next d
        else match tlcRoom b r d with
          | none => d
          | some (q, d) =>
            countBlk b 5 r.bytes (next (updRec id (fun r => { r with
              tlc := some (q.2.2.1 - 200), tlcCell := q.1, tlcTarget := q.2.1, tlcSegment := q.2.2.2
              tlcVerified := false, tlcReadable := true, tlcAuthentic := true }) d))

/-- COMPACTION_COPY (R98). -/
def execCompactionCopy (b : Nat) (s : State) : Answer := onDev (compactCopy b) s

/-- A TLC copy of the record, not yet verified, is in the unit. -/
def Rec.openTlc (r : Rec) (u : FUnit) : Bool := 200 ≤ u.position && r.programs u

/-- After an abandoned copy the unit goes on with its next word-line group of 12 pages: those of the interrupted
one are never used (R99). -/
def skipGroup (d : Dev) (u : FUnit) : FUnit :=
  if d.flash.records.any (fun r => r.openTlc u) then
    { u with
      next := (u.next + 11) / 12 * 12, full := u.full || unitSegs u.position ≤ u.next + 11
      bodies := u.bodies.filter (fun x => !(d.flash.records.any (fun r => r.id = x.1 && r.openTlc u))) }
  else u

/-- TLC copies not yet verified are abandoned; their sources stay live (R99, R102). -/
def abandonCompaction (d : Dev) : Dev :=
  { d with flash := { d.flash with
      units := d.flash.units.map (skipGroup d)
      records := d.flash.records.map (fun r =>
        { r with
          tlc := if r.tlcVerified then r.tlc else none
          moving := r.moving.filter (fun p => p.2.2.1 < 200) }) } }

/-- Copies that cleaning or the scrub has not seen written are given up too, as when the curtain flow starts
(R102). -/
def abandonCopies (d : Dev) : Dev :=
  let d := abandonCompaction d
  { d with flash := { d.flash with records := d.flash.records.map (fun r => { r with moving := none }) } }

/-- TLC_GROUP_VERIFIED (R99): the copy stands, its head journalled; the source is freed. -/
def tlcVerified (id : Nat) (d : Dev) : Dev :=
  match findRec d id with
  | none => d
  | some r =>
    let done := fun d => closeUnits (trace 0x2003 (64 + r.block) id 0 d)
    match r.moving.filter (fun p => 200 ≤ p.2.2.1) with
    | some p =>
      if placeWorks d p.1 p.2.1 then
        done (journalBoth p.1 id (updRec id (fun r => { r with
          moving := none, tlc := some (p.2.2.1 - 200), tlcCell := p.1, tlcTarget := p.2.1, tlcSegment := p.2.2.2
          tlcVerified := true, tlcReadable := true, tlcAuthentic := true }) d))
      else d
    | none =>
      if r.tlc.isSome && !r.tlcVerified && placeWorks d r.tlcCell r.tlcTarget then
        done (journalBoth r.tlcCell id (updRec id (fun r => { r with tlcVerified := true }) d))
      else d

/-- TLC_GROUP_VERIFIED (R99): the pSLC source of the record is freed. -/
def execTlcGroupVerified (id : Nat) (s : State) : Answer := onDev (tlcVerified id) s

/-! ### Scrub (R100, R101) -/

/-- Held pages whose live record is lost go back to the unstaged counts for re-staging; clean pages
lose their record and stay readable (R97, R101). A page whose data is not in DRAM yet reads as R139 says. -/
def returnPages (lostRec : Nat → Bool) (d : Dev) : Dev :=
  { d with pages := d.pages.map (fun e =>
      match e.2.record with
      | some id =>
        if lostRec id then
          (if e.2.restorePend || d.int.pendingGranules.contains (pageAddr e.1 / 16777216) then
            (if e.2.kind = .held then (e.1, { e.2 with untrusted := true }) else (e.1, {}))
           else if e.2.kind = .held then (e.1, { e.2 with record := none, unstaged := true, restage := true })
           else (e.1, { e.2 with record := none }))
        else e
      | none => e) }

/-- The copy of a record that is in force lies in TLC (R99). -/
def Rec.inTlc (r : Rec) : Bool := r.tlc.isSome && r.tlcVerified

/-- SCRUB_READ (R100, R101) of the copy in force. The scrub of a key-pending function judges by DATA_CRC alone
(R146, R166), and nothing is read or rewritten for a block out of admission (R24). -/
def scrubRead (id load : Nat) (readable authentic : Bool) (d : Dev) : Dev :=
  match findRec d id with
  | none => d
  | some r =>
    if !(cleaningRuns d && recLive d id) || blkOut d r.block || blkOut d r.home then d
    else
      let b := r.block
      let authentic := authentic || slotKeyPending d r.slot
      let c := if r.inTlc then r.tlcCell else r.cell
      let d := countBlk b 7 1 (countCell c 0 (segmentsOf r.bytes) d)
      if !readable || !authentic then
        let d := updRec id (fun r =>
          if r.inTlc then { r with tlcReadable := readable, tlcAuthentic := authentic } else { r with readable, authentic }) d
        let d := returnPages (· = id) d
        let d := updBlk b (fun k => { k with scrubRefresh := satAdd 16 k.scrubRefresh 1 }) d
        let d := if readable then d
          else raiseFault { code := 0x0102, level := 1, island := c, severity := 0 } d
        let d := postEvent 7 0 [b, boolNat r.inTlc, if r.inTlc then r.tlc.getD 0 else r.position, id]
          (trace 0x2004 (64 + b) id 1 d)
        countsChanged d
      else if d.scrubThresh < load && r.moving.isNone then
        match takeRoom b r.id r.bytes r.headLen d with
        | some (p, d) =>
          let d := updBlk b (fun k => { k with scrubRefresh := satAdd 16 k.scrubRefresh 1 }) d
          trace 0x2004 (64 + b) id 0 (drawCredit b r.bytes (updRec id (fun r => { r with moving := some p }) d))
        | none => d
      else d

/-- SCRUB_READ (R100, R101). -/
def execScrubRead (id load : Nat) (readable authentic : Bool) (s : State) : Answer :=
  onDev (scrubRead id load readable authentic) s

/-! ### Admission commands -/

/-- A pending PACK_PARAM_COMMIT ends without effect (Table 11.4): with a status, or with none where it
is abandoned. -/
def dropCommit (outcome : Nat) (status : Option Nat) (keepShadow : Bool) (d : Dev) : Dev :=
  if d.est.pending = 0 then d
  else
    let h := d.est.pending
    let d := { d with est := { d.est with
      pending := 0, outcome, shadow := if keepShadow then d.est.shadow else none } }
    match findDesc d h, status with
    | some x, some st => endWith x st 0 0 d
    | some x, none => dropDesc x.handle d
    | none, _ => d

/-- What FAIL ends in the estimator and the bay (R206, R214, R217, R223, R224). -/
def packFail (d : Dev) : Dev :=
  let d := dropCommit 3 none false (endLearning 1 d)
  let d := { d with est := { d.est with probing := false, shareMa := 0, restWindow := false, restCharge := false } }
  match d.pkb.bay with
  | .window => { d with pkb := { d.pkb with bay := .inService, cancels := satAdd 4 d.pkb.cancels 1 } }
  | .draining => { d with pkb := { d.pkb with bay := .inService } }
  | _ => d

/-- ADMISSION_RECOMPUTE (R75). -/
def admissionRecompute (cadence : Bool) (d : Dev) : Dev :=
  if !orderingPowered d then d else reevaluate cadence d


/-- Make a hold ready and test it (R78 to R80): commit, wait, or refuse a hold that may not wait. -/
def makeReady (x : Desc) (d : Dev) : Dev :=
  let limit := if bit x.entry.flags 0 then 0
    else min 10000 (if x.entry.deadline = 0 then d.adm.deadline100us else x.entry.deadline)
  let x := { x with phase := .waiting, readyHt := d.tmb.ht, deadline := limit }
  let put := fun d => updDesc x.handle (fun _ => x) d
  if !(d.chp.mode.admits || d.chp.mode = .writeThrough) then
    (if orderingPowered d && d.chp.mode ≠ .curtain then refuse x stMode (put d) else put d)
  else if commitBarred d then refuse x stMode (put d)
  else
    let v := judge d (blocksBefore d x.cls) x
    match v with
    | .commit =>
      if d.chp.mode.admits && !d.svc.drain && !insqFull d then countsChanged (commitHold x none (put d))
      else updDesc x.handle (fun _ => { x with waited := true }) d
    | .failBlock st | .failQuota st =>
      let x := { x with failed := st, waited := true }
      let d := updDesc x.handle (fun _ => x) d
      if limit = 0 then refuse x st d
      else updateReclaim (trace 0x1002 82 (x.fn * 2 ^ 40 + x.entry.caddr) st d)

def holdArrived (h : Nat) (d : Dev) : Dev :=
  match findDesc d h with
  | none => d
  | some x =>
    if x.isHold && x.entry.opcode = 1 && x.phase = .reading && x.needReads = []
        && !(d.ept.tags.any (fun e => e.2.handle = h && !e.2.quarantined)) && x.readError = 0
    then makeReady x d else d

/-- HOLD_DATA_ARRIVED (R78): a HOLD's data has fully arrived. -/
def execHoldDataArrived (h : Nat) (s : State) : Answer := onDev (holdArrived h) s

/-- HOLD_DEADLINE_EXPIRY (R79): refused by the test the hold failed last, or, where HT is at a bound that bars every
commit, with REFUSED_MODE (R50, R61). Of a WRITE_THROUGH hold that has
failed none and whose staging has not begun the spec names no status: the model takes REFUSED_SPACE, the
one term that mode applies. DESIGN CHOICE (log entry 135). -/
def holdExpiry (h : Nat) (d : Dev) : Dev :=
  match findDesc d h with
  | none => d
  | some x =>
    if x.phase ≠ .waiting then d
    else if d.svc.drain || commitBarred d then refuse x stMode d
    else countsChanged (refuse x (if x.failed = 0 then stSpace else x.failed) d)

/-- HOLD_DEADLINE_EXPIRY (R79). -/
def execHoldDeadlineExpiry (h : Nat) (s : State) : Answer := onDev (holdExpiry h) s

end Sys2Proof.Machine
end

