-- ==== Sys2Proof/Machine/Power.lean ====
section
/-!
DEFINITION. What power does to the state: the time base stopping and restarting by the dark counter
(R60), loss of the retention island (R386), loss of DRAM content, the endpoint's defaults (R244),
the passage to DARK and the power-on of row 12.
-/

namespace Sys2Proof.Machine

/-- A command that can take power from the DRAM: its content is gone where a loss was counted. -/
def onPower (f : Dev → Dev) (s : State) : Answer :=
  let d := f s.dev
  if d.drc.losses ≠ s.dev.drc.losses then .next { s with dev := d, dram := [] }
  else .next { s with dev := d }

/-- A pack is there, its switch closed. -/
def packUsable (d : Dev) : Bool := !d.pins.packPresN && d.pkb.switchClosed

/-- The faulted islands that change how a curtain ends (Table 19.7). -/
def Dev.fatalIndex (d : Dev) : Bool := d.chp.fatalIslands.contains 81
def Dev.fatalRetention (d : Dev) : Bool := d.chp.fatalIslands.contains 83

/-- DRAM is powered off: its content, its poison marks and the index in it are lost. -/
def loseDram (d : Dev) : Dev :=
  { d with
    pages := [], exts := [], idx := { d.idx with insq := [] }
    fns := Tab.mapVals (fun (f : FnSt) => { f with segs := [], respreads := [] }) d.fns
    int := { d.int with pendingGranules := [] }
    drc := { d.drc with poison := [], losses := d.drc.losses + 1 }
    chp := { d.chp with sealRetained := false }
    blk := Tab.mapVals (fun (e : Blk) => { e with dramOn := false, selfRefresh := false, pressure := false }) d.blk }

/-- A FAIL or a curtain abandons training steps and suspends a change that waited for one (R306,
R308). -/
def abandonTraining (d : Dev) : Dev :=
  { d with
    blk := Tab.mapVals (fun (e : Blk) => { e with training := false, trainAgain := false }) d.blk
    drc := { d.drc with fspState := if d.drc.fspState = 1 then 4 else d.drc.fspState } }

/-- The time base stops, and the Harka island with it (Table 1.6): HT and u are kept, and the dark counter
runs from here (R60). -/
def stopTime (d : Dev) : Dev :=
  if !d.tmb.powered then d
  else
    let u := match uncertainty d with
      | some u => u
      | none => 0
    let d := harkaDown d
    { d with tmb := { d.tmb with powered := false, stopHt := d.tmb.ht, darkUs := 0, darkRan := true,
                                 stopU := if (uncertainty d).isSome then u else 2 ^ 64 } }

/-- HT as R60 sets it: by the dark counter, else 4,000,000 ticks above the image's newest HT; on an image
with no stamp HT 0 is the instant of the first boot (R51). -/
def restartValue (d : Dev) : Nat :=
  if d.tmb.darkRan then d.tmb.stopHt + d.tmb.darkUs * 4000
  else if imageNewest d = 0 then 0 else imageNewest d + 4000000

/-- The time base restarts (R60); a follower acquires anew (R57). -/
def restartTime (d : Dev) : Dev :=
  if d.tmb.powered then d
  else
  let d := awaitResponses d
  let ht := restartValue d
  { d with tmb := { d.tmb with
    powered := true, ht, restartHt := ht, slot := 0, lag := 0, held := false, everCue := false, goodCues := 0
    delays := [], prevCue := none, state := 1
    uAcq := if d.tmb.darkRan ∧ d.tmb.stopU < 2 ^ 64 then
        some (d.tmb.stopU + (200000 * d.tmb.darkUs + 999999) / 1000000)
      else none } }

/-- The retention island is powered (R386). -/
def retentionOn (d : Dev) : Bool :=
  8000 ≤ d.pins.vinMv || (!d.pins.packPresN && !d.pkb.released)

/-- The mode changes and fault records that the retention island keeps for the event ring (R33, R333). -/
def keptEvents (d : Dev) : List Event := d.mrg.waiting.filter (fun e => e.type = 1 || e.type = 2)

/-- The retention island's content is lost: trace tail, retained fault records, loss notes, the
dark counter's count, the copies of R114 and R125. -/
def loseRetention (d : Dev) : Dev :=
  { d with
    obs := { d.obs with tail := [], telemetry := [] }
    err := { d.err with retained := [], notes := [] }
    mrg := { d.mrg with waiting := [] }
    cip := { d.cip with copy := [] }
    tmb := { d.tmb with darkRan := false, darkUs := 0 } }

/-- Loss of the retention island's content in DARK once neither source powers it. -/
def checkRetention (d : Dev) : Dev :=
  if d.chp.mode = .dark && !retentionOn d then loseRetention d else d

/-- The endpoint island's defaults (R244, R384): configuration, link, tags, EPT fields but RWS and
the counts kept, rings, MSI-X, windows; CIP_WRAP_KEY is zeroised (R286). -/
def endpointDefaults (d : Dev) : Dev :=
  { d with
    fns := Tab.mapVals (fun (e : FnSt) => { e with
      sq := [], cq := [], dbErrors := 0, cfgError := false, resetting := false, busMaster := false
      d3hot := false, msix := [], devCtl := 0x2810, devCtl2 := 0, memEn := false, bars := []
      msixCtl := 0, aer := [], cqWait := [], rr := [], wrrLeft := 0 }) d.fns
    mrg := { d.mrg with rings := [], dbHi := 0, stateHiLatch := 0 }
    cip := { d.cip with wrapKey := [], wrapWritten := false }
    halfLatch := []
    ept := { d.ept with
      link := .down, rate := 0, width := 0, lanes := 0
      fnCountNow := clamp 1 63 (field d.ept.fnCount 0 6)
      fnDisable := 0, tags := [], late := 0, timeouts := 0, unmapped := 0, discard := 0, unmappedLog := 0
      winSizeNow := Tab.mapVals (fun (e : W32) => min 6 (field e 0 3)) d.ept.winSize
      winFn := [], winFnActive := [], winEntry := [], winActive := [], winBusy := false, winVersion := 0
      winResult := 0, winErr := 0, winHeld := [], tlpHeld := [], linkCtl := 0, l1ss := 0, ptmEn := false } }

/-- A transfer's source that goes dark tells its peer so while its Harka island still runs (Table 10.7,
cause 3). XFER_ABORT is given no layout: it carries the status, and 3 for this one. Log entry 141. -/
def abortSource (d : Dev) : Dev :=
  if d.hrk.xferSource && 1 ≤ d.hrk.xferState && d.hrk.xferState ≤ 3 then
    sendFrame 0x14 d.hrk.xferPeer false (words [3])
      { d with hrk := { d.hrk with xferState := 5, xferCause := 3 } }
  else d

/-- A unit's directory was programmed at this HT: whether that was done before power went is a free bit, the heads
standing in journals meanwhile (Table 9.14). Log entry 174. -/
def tornDirs (d : Dev) : Dev :=
  d.flash.units.foldl (fun d u =>
    if u.closeHt = some d.tmb.ht && u.bodies.all (fun x => 2 ≤ journalCopies d (fun _ => true) x.1) then
      let (v, d) := fresh d
      if v % 2 = 0 then d
      else updUnit u.cell u.target u.position (fun u => { u with closeHt := none, torn := true }) d
    else d) d

/-- Entry to DARK: islands lose power, DRAM its content; erases in progress stay open in the
journal (R326); uncommitted work is gone. -/
def goDark (d : Dev) : Dev :=
  let d := loseDram (stopTime (tornDirs (abortSource d)))
  let d := { d with
    descs := []
    mrg := { d.mrg with waiting := keptEvents d }
    cip := { d.cip with slots := [], vault := d.cip.vault.filter Vault.written }
    cells := Tab.mapVals (fun (e : CellSt) => { e with
      erases := [], port := .idle, arm := .disarmed, ready := false, left := 0, window := [], tlcPages := [] }) d.cells
    flash := { (abandonCopies d).flash with records := (abandonCopies d).flash.records.filter Rec.written }
    chp := { d.chp with rehearsePend := false }
    spw := { d.spw with qualRunning := false, qualified := false, onPack := false, intTimerRunning := false
                        holdRunning := false }
    pins := { d.pins with ppsOut := false } }
  checkRetention { d with ept := { d.ept with link := .down, tags := [] } }

/-- PERST_N released with VAUX3 present: the link trains once the endpoint is on (R244). -/
def startLink (d : Dev) : Dev :=
  if d.pins.vaux3 && d.pins.perstN && d.ept.link = .down then { d with ept := { d.ept with link := .training } } else d

/-- Every block's window state as BOOT reads it. -/
def windowsRead (d : Dev) : Tab Blk := d.blk.map (fun e => (e.1, windowFromImage d e.1 e.2))

/-- The identities of every block's LPCAMM2 and TSM-1, as BOOT found them (R71). -/
def modulesFound (d : Dev) : List (Nat × Nat) :=
  (blockList d).map (fun b => ((getBlk d b).moduleId, (getBlk d b).tsmFound))

/-- Row 12: power-on (R13, B1). Every register and every count since power-on takes its Reset value;
the flash image, the board, the pins, the retention island and the service area stand. -/
def powerOn (d : Dev) : Dev :=
  let fresh : Dev := {}
  let n := d.board.blocks
  let keepE := d.reh.storedPop = n ∧ d.reh.storedModules = modulesFound d
  let (eb, rr, meas) := match d.reh.storedEByte with
    | some (e, r) => if keepE then (e, r, true) else (dsEByte n * 12 / 10, dsRate n, false)
    | none => (dsEByte n * 12 / 10, dsRate n, false)
  let d1 : Dev := { fresh with
    board := d.board
    pins := { d.pins with ppsOut := false }
    flash := d.flash
    freeCtr := d.freeCtr, nextHandle := d.nextHandle, nextEid := d.nextEid, outbox := d.outbox
    obs := { fresh.obs with tail := d.obs.tail, telemetry := d.obs.telemetry }
    err := { fresh.err with retained := d.err.retained, notes := d.err.notes }
    mrg := { fresh.mrg with
      waiting := d.mrg.waiting.zipIdx.map (fun e => { e.1 with seq := e.2 }), eventSeq := d.mrg.waiting.length }
    reh := { d.reh with handle := 0, written := [], burstBytes := 0, burstUj := 0, burstRate := 0 }
    rom := { d.rom with booted := false, modulesOk := false, flashReady := false, playbill := false }
    enc := { fresh.enc with orderStore := d.enc.orderStore, resolved := [] }
    drc := { fresh.drc with mapNow := d.drc.mapNext, mapNext := d.drc.mapNext }
    cip := { fresh.cip with vault := d.cip.vault, slots := d.cip.copy }
    adm := { fresh.adm with
      eFixed := BitVec.ofNat 32 (dsEFixed n), eByteFj := eb, rateRef := rr, eByteMeasured := meas
      eEff := eb, rateSum := dsRate n }
    blk := Tab.mapVals (fun (e : Blk) => { ({} : Blk) with
      wb := e.wb, wp := e.wp, sinceShift := e.sinceShift, shiftDeferred := e.shiftDeferred
      shifts := e.shifts, stripeSeq := e.stripeSeq, stripes := e.stripes, stripeSeqs := e.stripeSeqs
      tlcSeq := e.tlcSeq, tlcSeqs := e.tlcSeqs
      tlcStripes := e.tlcStripes, tlcOpen := e.tlcOpen
      credit := e.storedCredit, debt := e.storedDebt
      debtMark := (e.storedDebt - 1) / fresh.debtWarnBytes
      storedCredit := e.storedCredit, storedDebt := e.storedDebt
      serialNext := e.serialNext, moduleId := e.moduleId, tsmSerial := e.tsmSerial, tsmFound := e.tsmFound
      moduleGib := e.moduleGib, dramOn := false }) (windowsRead d)
    hrk := { fresh.hrk with index := d.flash.hidx.getD 0 }
    pkb := { fresh.pkb with bay := if d.pins.packPresN then .absent else .debouncing }
    tmb := { fresh.tmb with
      powered := false, ht := d.tmb.ht, stopHt := d.tmb.stopHt, darkUs := d.tmb.darkUs, darkRan := d.tmb.darkRan
      stopU := d.tmb.stopU, epochId := (d.flash.epoch.map Prod.fst).getD 0
      epochNs := (d.flash.epoch.map Prod.snd).getD 0, epochCommitted := d.tmb.epochCommitted }
    cur := { fresh.cur with seqNo := d.cur.seqNo } }
  let d1 := restartTime d1
  let d1 := { d1 with chp := { fresh.chp with modeHt := d1.tmb.ht } }
  startLink { d1 with ept := { d1.ept with winSizeNow := [], fnCountNow := 63 } }

/-- Row 11, or the REBOOT of row 25: BOOT with what R13 and R114 keep. An endpoint that had been
abandoned comes up at its defaults; copies of cleaning and compaction under way are given up (R99); the change
of mode recomputes the budget (R75). Log entry 18. -/
def goBoot (cause : Nat) (d : Dev) : Dev :=
  let abandoned := d.ept.link = .abandoned
  let d := if d.chp.mode = .sealed then
      { d with cip := { d.cip with slots := d.cip.copy, copy := [] } } else d
  let d := abandonCopies (abandonPorts true (hierarchyBoot (transition .boot cause (restartTime (abandonRebuilds d)))))
  let d := { d with
    tmb := { d.tmb with bootCommit := false }
    rom := { d.rom with booted := false, modulesOk := false, flashReady := false, playbill := false }
    descs := if abandoned then [] else d.descs
    chp := { d.chp with fatalIslands := [] }
    fns := Tab.mapVals (fun (f : FnSt) => { f with rebuildStopped := false, rebuilds := 0 }) d.fns
    spw := { d.spw with qualRunning := false, qualified := false, holdRunning := false }
    enc := { ({} : Enc) with first := d.enc.first, orderStore := d.enc.orderStore }
    adm := { d.adm with budget := 0, blkBudget := [], reclaim := [], shortfall := 0, shortE := false, shortS := false }
    blk := Tab.mapVals (fun (e : Blk) => { e with
      logKnown := false, fenced := false, pathFailed := false, crossSave := false, pressure := false
      credit := e.storedCredit, debt := e.storedDebt
      debtMark := (e.storedDebt - 1) / d.debtWarnBytes }) (windowsRead d) }
  let d := if abandoned then endpointDefaults { d with
      mrg := { d.mrg with orphans := [] }
      ept := { d.ept with hostLossState := 1, linkLostHt := d.tmb.ht } } else d
  recomputeNow (startLink { d with ept := { d.ept with tlpsCut := false } })

end Sys2Proof.Machine
end

