-- ==== Sys2Proof/Machine/Curtain.lean ====
section
/-!
DEFINITION. Curtain: its start, milestones M1 to M10, projection, prompt books (chapter 6).
-/

namespace Sys2Proof.Machine

/-- A HOLD whose data is all in, or a COMMIT that has started, and that has not committed (R108). -/
def readyHold (d : Dev) (x : Desc) : Bool :=
  x.isHold && (x.phase = .waiting
    || (x.entry.opcode = 1 && x.phase = .reading && x.needReads = [] && x.readError = 0
        && !(d.ept.tags.any (fun e => e.2.handle = x.handle && !e.2.quarantined)))
    || (x.entry.opcode = 2 && x.phase = .running))

/-- Milestone `m` reached: its HT, the register and the trace. -/
def milestone (m : Nat) (d : Dev) : Dev :=
  trace (0x010 + m) 79 (2 ^ d.board.blocks - 1) 0
    { d with cur := { d.cur with milestone := m, msHt := Tab.set d.cur.msHt m d.tmb.ht } }

/-- listed_b of every block now (R110). -/
def listedNow (d : Dev) : Tab Nat := (blockList d).map (fun b => (b, unstagedB d b))

/-- The endpoint goes to electrical idle and is powered down (M4, I4): completions waiting are lost
for a curtain; events wait (R45, R33). -/
def abandonLink (keepCpls : Bool) (d : Dev) : Dev :=
  let d := if keepCpls then d else
    { d with
      fns := Tab.mapVals (fun (f : FnSt) => { f with cqWait := [] }) d.fns
      mrg := { d.mrg with orphans := [] } }
  trace 0x7001 76 7 0 { d with ept := { d.ept with link := .abandoned, tags := [], tlpHeld := [] } }

/-- From M3 or I3 the endpoint discards TLPs, those it holds back among them (R109). -/
def cutTlps (d : Dev) : Ept :=
  { d.ept with tlpsCut := true, discardRun := satAdd 32 d.ept.discardRun d.ept.tlpHeld.length, tlpHeld := [] }

/-- M3 with the link abandoned (R45, R108): ready holds are kept for the lists, WRITE_THROUGH holds
with a record in flight stay, everything else is abandoned without a completion. -/
def cutHost (d : Dev) : Dev :=
  let ready := (d.descs.filter (readyHold d)).map (unackEntry d)
  let gone := d.descs.filter (fun x => !(readyHold d x) && x.phase ≠ .staging && x.fn ≠ 0)
  { d with
    int := { d.int with
      ready := sortBy ListEntry.ht ready
      abandoned := gone.map (fun x => (x.fn, x.seq)) }
    descs := d.descs.filter (fun x => x.phase = .staging)
    ept := { cutTlps d with tags := [] } }

/-- M3 with the link kept (R41): every uncommitted descriptor of a cache function completes with
REFUSED_MODE; the admin ring stays served. -/
def refuseAll (d : Dev) : Dev :=
  let d := { d with ept := cutTlps d }
  (d.descs.filter (fun x => x.fn ≠ 0 && x.phase ≠ .staging)).foldl (fun d x =>
    refuse x stMode d) { d with int := { d.int with ready := [], abandoned := [] } }

/-- What of a curtain its trigger decides (Table 6.1). -/
structure CurtainKind where
  cause : Nat
  linkKept : Bool
  planned : Bool := false
  protective : Bool := false
  after : Nat := 0
  handle : Nat := 0

/-- A curtain from M1 (rows 4, 5, 20, 21): admission and fetch stop, the host is cut off, the link is
abandoned or kept; a probe pulse ends (R48), and copies of compaction not yet verified are given up (R99); those of
cleaning count if they are written before M5 (R102, R115). The change of mode is an event of Table 4.2. -/
def startCurtain (k : CurtainKind) (d : Dev) : Dev :=
  let d := abandonPorts (!k.planned) (abandonTraining (endLearning 1 (abortRehearsal k.linkKept d)))
  let d := abandonCompaction { d with est := { d.est with probing := false, shareMa := 0 } }
  let drainX := findDesc d d.svc.entering
  let d := match drainX with
    | some x => if k.linkKept then endWith x stMode 0 0 d else dropDesc x.handle d
    | none => d
  let d := { d with svc := { d.svc with entering := 0, drain := false } }
  let ht := d.tmb.ht
  let d := transition .curtain k.cause d
  let d := updateReclaim { d with
    cur := { ({} : Curtain) with
      linkKept := k.linkKept, after := k.after
      plannedFlag := k.planned, protectiveFlag := k.protective, seqNo := (d.cur.seqNo + 1) % 256
      failHt := ht, energyAtFail := d.est.eCons, handle := k.handle, listedB := listedNow d }
    chp := { d.chp with planned := k.planned, halt := d.chp.halt || k.protective || (k.planned && (k.after = 0 || k.after = 3)) } }
  let d := countChip 13 1 (milestone 1 d)
  let d := if d.spw.onPack then milestone 2 d else d
  recomputeNow (if k.linkKept then milestone 3 (refuseAll d)
    else milestone 4 (abandonLink false (milestone 3 (cutHost d))))

/-- A FAIL in a planned or protective curtain (R107): M2 and, with the link kept, M4 at once, the
admin ring's commands abandoned, the curtain marked unplanned. -/
def failInCurtain (d : Dev) : Dev :=
  let ht := d.tmb.ht
  if !d.cur.linkKept then
    { d with cur := { d.cur with
      plannedFlag := false
      msHt := if Tab.get 0 d.cur.msHt 2 = 0 then Tab.set d.cur.msHt 2 ht else d.cur.msHt } }
  else
    let d := abandonLink false { d with
      descs := d.descs.filter (fun x => x.phase = .staging)
      cur := { d.cur with linkKept := false, plannedFlag := false, handle := 0 } }
    { d with cur := { d.cur with msHt := Tab.set (Tab.set d.cur.msHt 2 ht) 4 ht } }

/-- In-flight page records are finished and count written (R102, M5, I5). -/
def finishInFlight (d : Dev) : Dev :=
  (d.flash.records.filter (fun r => !r.written)).foldl (fun d r => recordWritten r.id d) d

/-- Every port finishes the program that it is performing, and gives up whatever else it does (R115, R331). -/
def settlePorts (d : Dev) : Dev :=
  let e := finishPrograms d
  { e with cells := Tab.mapVals (fun (c : CellSt) =>
      if c.port = .executing && (c.op = 0x10 || c.op = 0x11) then { c with port := .done, result := 1 }
      else if c.port = .executing || c.port = .reading then
        { c with port := .done, result := 13, ready := false, left := 0, tlcPages := [] }
      else c) e.cells }

/-- Every erase in progress is suspended (R115); a port's is abandoned (R331). -/
def suspendErases (d : Dev) : Dev :=
  { d with cells := Tab.mapVals (fun (c : CellSt) => { c with
      port := if c.erases.any (fun e => e.2.port) then .done else c.port
      result := if c.erases.any (fun e => e.2.port) then 13 else c.result
      erases := Tab.mapVals (fun (e : Erase) => { e with suspended := true, frozen := true }) c.erases }) d.cells }

/-- What the cells do at M5 and I5: programs are finished, copies of cleaning not counted written are given up,
erases suspended (R102, R115). -/
def quiesceFlash (d : Dev) : Dev := settlePorts (suspendErases (abandonCopies (finishInFlight d)))

/-- FLASH_DRAM_PREPARED (M5; R115, R116). -/
def flashPrepared (d : Dev) : Dev :=
  if d.chp.mode ≠ .curtain || 5 ≤ d.cur.milestone then d
  else
    let d := quiesceFlash (abandonRebuilds d)
    milestone 5 { d with cur := { d.cur with
      bytes := if d.cur.listed6 then sumNat (d.cur.listedB.map Prod.snd) else d.cur.bytes } }
def execFlashDramPrepared (s : State) : Answer := onDev flashPrepared s

def unackOf (d : Dev) (b : Nat) : List ListEntry := d.int.ready.filter (fun e => blockOf e.caddr = b)

/-- Blocks that take part in the save: populated and not fenced. -/
def saveBlocks (d : Dev) : List Nat :=
  (blockList d).filter (fun b => !(getBlk d b).fenced && !(getBlk d b).heldOut)

/-- The save streams: M6 reached, or M5 on the lists of I6, and M7 not yet (R131). -/
def streams (d : Dev) : Bool :=
  d.chp.mode = .curtain && (d.cur.milestone = 6 || (d.cur.milestone = 5 && d.cur.listed6))

/-- CURTAIN_LISTS_WRITTEN (M6; R111). -/
def listsWritten (d : Dev) : Dev :=
  if d.chp.mode ≠ .curtain || d.cur.milestone ≠ 5 || d.cur.listed6 then d
  else
    let d := (saveBlocks d).foldl (fun d b =>
      writeEntries b (if d.cur.protectiveFlag then 2 else 1) d.cur.failHt (heldEntries d b ++ unackOf d b)
        (Tab.get 0 d.cur.listedB b) 0 d) d
    milestone 6 { d with cur := { d.cur with bytes := sumNat (d.cur.listedB.map Prod.snd) } }
def execCurtainListsWritten (s : State) : Answer := onDev listsWritten s

/-- Power is lost while lists are being written (M5 to M6): which of their pages stand the spec leaves open. For
each block a free value gives the number of list pages written: none, the header and some entry pages, or
all of them (R119, R177). Log entry 139. -/
def tornLists (d : Dev) : Dev :=
  if d.chp.mode ≠ .curtain || d.cur.milestone ≠ 5 || d.cur.listed6 then d
  else (saveBlocks d).foldl (fun d b =>
    let (v, d) := fresh d
    let es := heldEntries d b ++ unackOf d b
    let n := v % (entryPages es.length + 2)
    if n = 0 then d
    else
      let d := writeEntries b (if d.cur.protectiveFlag then 2 else 1) d.cur.failHt es (Tab.get 0 d.cur.listedB b) 0 d
      if n = entryPages es.length + 1 then d
      else { d with flash := { d.flash with records := d.flash.records.map (fun r =>
          { r with list := r.list.map (fun l =>
              if l.block = b && l.triggerHt = d.cur.failHt then { l with torn := some (n - 1) } else l) }) } }) d

/-- A record carries this UNACK entry's data. -/
def carries (e : ListEntry) (r : Rec) : Bool :=
  r.kind = .unack && r.fn = e.fn && r.runs.any (fun g => g.ht = e.ht && g.caddr = e.caddr)

/-- UNACK entries of a block whose record has not been started. -/
def unackLeft (d : Dev) (b : Nat) : List ListEntry :=
  (unackOf d b).filter (fun e => !(d.flash.records.any (carries e)))

/-- Bytes of a block not yet saved: held unstaged data and UNACK entries (R118). -/
def leftB (d : Dev) (b : Nat) : Nat :=
  unstagedB d b + sumNat (((unackOf d b).filter (fun e =>
    !(d.flash.records.any (fun r => r.written && carries e r)))).map (fun e => e.pages * pageBytes))

/-- Time still allotted, in ms (Table 6.2): to the M7 reserve, M8 and M9 while streaming, then to M8 and M9, less
what is used of the reserve or of M8's allotment. -/
def fixedLeftMs (used : Nat) (d : Dev) : Nat :=
  if streams d then 335 - min used 200 else 135 - min used 130

/-- The curtain power for the longest of the blocks' streaming times and `ms` more, in µJ: a block's time is
left_b ÷ rate_b and is not rounded (R118, R123). -/
def saveUj (d : Dev) (ms : Nat) : Nat :=
  ((saveBlocks d).map (fun b => if rateB d b = 0 then 0 else pCurtain d * leftB d b / rateB d b)).foldl max 0 + pCurtain d * ms

/-- CURTAIN_PROJECTION, projection() of R118: every 1 ms on the pack from M6 to M8, against the estimator's
conservative figure. Streaming can be stopped only while it runs. `used` is the time used of the M7 reserve, or
of M8's allotment. -/
def projection (used : Nat) (d : Dev) : Dev :=
  if !(streams d || (d.chp.mode = .curtain && d.cur.milestone = 7)) || !d.spw.onPack then d
  else
    let live := d.est.eCons * 1000
    let reserve := sealReserve d * 1000
    { d with cur := { d.cur with
      short := d.cur.short || live < saveUj d (fixedLeftMs used d) + reserve
      stopped := d.cur.stopped || (streams d && live ≤ reserve + pCurtain d * 135) } }
def execCurtainProjection (used : Nat) (s : State) : Answer := onDev (projection used) s

/-- An amendment of a block's list names this extent, and what it has still to save is what a fault returned
(R120). -/
def amends (d : Dev) (b : Nat) (x : Extent) : Bool :=
  (ownUnstaged d x).all (fun p => (getPage d p).restage)
    && ((d.cur.lists.filter (fun l => l.block = b)).flatMap CallList.entries).any (fun e =>
      e.ht = x.ht && e.caddr = x.caddr && e.amend)

/-- Start the next CURTAIN record of a block: held extents oldest first, then amendments (R112). Extents whose
function's key cannot encipher now are passed over (R292). -/
def streamHeld (m : List Host.Cell) (b : Nat) (d : Dev) : Option (Nat × Dev) :=
  let todo := (unstagedExts d b).filter (fun x => !inFlight d x && (encryptSlot d x.fn).isSome)
  let start := fun (amend : Bool) (xs : List Extent) =>
    match xs with
    | [] => none
    | x :: _ =>
      startRecord m b .curtain x.fn ((packPrefix d x.fn (x.hidx, x.epochId) (4 * mib) xs).flatMap (fun x =>
        runsOf x (ownUnstaged d x) false 0)) amend 0 (x.hidx, x.epochId) d
  match todo.filter (fun x => !amends d b x) with
  | [] => start true todo
  | xs => start false xs

/-- Start the record of a block's next UNACK entry, of a group of its own (R112). -/
def streamUnack (m : List Host.Cell) (b : Nat) (d : Dev) : Option (Nat × Dev) :=
  match (unackLeft d b).filter (fun e => (encryptSlot d e.fn).isSome) with
  | [] => none
  | e :: _ =>
    let run : Run := {
      ht := e.ht, tag := e.tag, caddr := e.caddr, extPages := e.pages, runStart := 0
      runPages := e.pages, seq := e.seq, cls := e.cls, unack := true, descId := e.descId }
    startRecord m b .unack e.fn [run] false 0 (originNow d) d

/-- A block's next record of the save: held extents first, then UNACK entries. -/
def streamNext (m : List Host.Cell) (b : Nat) (d : Dev) : Option (Nat × Dev) :=
  if !canStage d b then none
  else match streamHeld m b d with
    | some p => some p
    | none => streamUnack m b d

/-- Stream the rest of a block, each record counted written; `n` bounds the records. -/
def streamBlock (m : List Host.Cell) (b : Nat) : Nat → Dev → Dev
  | 0, d => d
  | n + 1, d =>
    match streamNext m b d with
    | some (id, d) => streamBlock m b n (recordWritten id d)
    | none => d

/-- STAGING_RECORD_START (R88; R112 between M6 and M7 of a curtain, while the projection lets it). -/
def execStagingRecordStart (b : Nat) (s : State) : Answer :=
  onDevReading (fun m d =>
    if streams d ∧ !d.cur.stopped ∧ (saveBlocks d).contains b then
      (match streamNext m b d with
       | some (_, d) => d
       | none => d)
    else stagingStart b m d) s

/-- DATA_STREAMED (M7; R112): the records in progress are written, and every working block has
streamed what its list names unless the projection stopped it; UNACK entries without a record are
counted dropped. -/
def dataStreamed (m : List Host.Cell) (d : Dev) : Dev :=
  if !streams d then d
  else
    let d := finishInFlight d
    let d := if d.cur.stopped then d
      else (saveBlocks d).foldl (fun d b => streamBlock m b (d.exts.length + d.int.ready.length + 1) d) d
    milestone 7 { d with cur := { d.cur with
      unackDropped := (d.int.ready.filter (fun e => !(d.flash.records.any (carries e)))).length } }
def execDataStreamed (s : State) : Answer := onDevReading dataStreamed s

/-- SPW_CURTAIN_STATUS as it stands. -/
def curtainStatus (c : Curtain) : Nat :=
  c.milestone + 16 * boolNat c.fromInt + 32 * boolNat (c.plannedFlag) + 64 * boolNat c.protectiveFlag
    + 128 * boolNat c.stopped + 256 * boolNat c.short + 512 * boolNat c.faultFlag
    + 1024 * boolNat c.packLost + 2048 * boolNat c.listPartial + 2 ^ 24 * (c.seqNo % 256)

/-- The books of a block, oldest first. -/
def booksOf (d : Dev) (b : Nat) : List Book := d.flash.books.filter (fun k => k.block = b)

/-- Nonce high-water entries of the slots in use (Table 9.11). -/
def nonceEntries (d : Dev) : List (Nat × Nat × Nat × Nat × Nat) :=
  ((List.range 64).filter (fun s => (getSlot d s).bound)).map (fun s =>
    let k := getSlot d s
    (s, k.gen, k.fn, k.pfx, k.hwm))

/-- The FAIL, or other trigger, from which a curtain's book takes its fault records (R113). -/
def faultsSince (d : Dev) : Nat := if d.cur.fromInt then d.int.entryHt else d.cur.failHt

/-- The list, listed, saved and lost figures of each populated block that a book carries; LIST_ID 0 for one
without a list. -/
def bookLists (d : Dev) : List (Nat × Nat × Nat × Nat × Nat) :=
  (blockList d).map (fun b =>
    let l := d.cur.lists.find? (fun l => l.block = b && l.baseList = 0)
    (b, (l.map CallList.listId).getD 0, (l.map CallList.listedBytes).getD 0, Tab.get 0 d.cur.savedB b, Tab.get 0 d.cur.lostB b))

/-- Seal one block's prompt book (R113, R170): REASON 1 for a curtain, 2 for SERVICE entry. -/
def sealBook (reason sealHt b : Nat) (d : Dev) : Dev :=
  let bytes := 131072
  match takeRoom b (peekId d b) bytes 128 d with
  | none => d
  | some ((c, t, pos, seg), d) =>
    let (id, d) := newId b d
    let prev := (booksOf d b).getLast?
    let k := getBlk d b
    let book : Book := {
      block := b, seqNo := (prev.map (fun p => p.seqNo + 1)).getD 1, recordId := id
      prevBook := (prev.map Book.recordId).getD 0, sealHt, status := curtainStatus d.cur, reason
      hidx := d.hrk.index, epochId := d.tmb.epochId, epochNs := d.tmb.epochNs, msHt := d.cur.msHt
      credit := k.credit, debt := k.debt, window := windowOf d b
      populated := 2 ^ d.board.blocks - 1, serial := d.board.serial, lists := bookLists d
      nonces := nonceEntries d, unknown := (List.range 64).filter (fun s => (getSlot d s).nonceUnknown)
      indexSealed := !d.fatalIndex, index := if d.fatalIndex then [] else indexBytes d b
      faults := (d.err.retained.filter (fun r => reason ≠ 1 || faultsSince d ≤ r.ht)).take 64, trace := if d.fatalRetention then [] else d.obs.tail
      failHt := d.cur.failHt, bytes := d.cur.bytes, saved := d.cur.saved, lost := d.cur.lost
      energyMj := d.cur.energyMj, unackDropped := d.cur.unackDropped, unackSaved := d.cur.unackSaved
      durUs := 0, readable := true }
    let r : Rec := {
      id, block := b, home := b, kind := .book, bytes, cell := c, target := t, position := pos, segment := seg
      written := true, epochId := d.tmb.epochId, hidx := d.hrk.index, ref := book.prevBook
      firstHt := sealHt, lastHt := sealHt, writeHt := d.tmb.ht }
    let d := closeUnits (journalBoth c id (addRec r (drawCredit b bytes d)))
    appendAnchor book r { d with flash := { d.flash with books := d.flash.books ++ [book] } }

/-- Blocks able to seal: the working blocks of R113, one whose data path has failed not among them. DEDUCED
(log entry 152). -/
def sealBlocks (d : Dev) : List Nat := (blockList d).filter (logWorks d)

/-- Seal every working block's book under one seal HT, and store the wear state (R91, R113). -/
def sealBooks (reason : Nat) (d : Dev) : Dev :=
  let (ht, d) := stamp d
  let d := (sealBlocks d).foldl (fun d b => sealBook reason ht b d) d
  storeWear { d with cur := { d.cur with sealHt := ht } }

/-- Pages that the save did not reach read LOST_AT_CURTAIN from here on; they leave the counts. -/
def markLost (d : Dev) : Dev :=
  { d with pages := Tab.mapVals (fun (p : Page) =>
      if p.unstaged then { p with unstaged := false, kind := .lost, record := none } else p) d.pages }

/-- What is still unstaged at M8 is lost, and recorded so in the books (R118). -/
def loseUnstaged (d : Dev) : Dev :=
  pressureOver (markLost { d with cur := { d.cur with
    lost := d.cur.lost + unstagedAll d
    lostB := (blockList d).map (fun b => (b, Tab.get 0 d.cur.lostB b + unstagedB d b)) } })

/-- Power is lost while books are being sealed (M7 to M8): for each block a free value tells whether its book was
not begun, fails its CRC, stands without its anchor entry, or stands with it (Table 9.14). Log entry 174. -/
def tornBooks (d : Dev) : Dev :=
  if d.chp.mode ≠ .curtain || d.cur.milestone ≠ 7 then d
  else
    let (ht, d) := stamp (loseUnstaged d)
    (sealBlocks d).foldl (fun d b =>
      let (v, d) := fresh d
      if v % 4 = 0 then d
      else
        let e := sealBook 1 ht b d
        { e with flash := { e.flash with
          books := e.flash.books.map (fun k => if k.block = b && k.sealHt = ht && v % 4 = 1 then { k with readable := false } else k)
          anchors := if v % 4 = 3 then e.flash.anchors else d.flash.anchors } }) d

/-- PROMPT_BOOKS_SEALED (M8; R113): what is still unstaged is lost, and recorded so in the books (R118). -/
def booksSealed (d : Dev) : Dev :=
  if d.chp.mode ≠ .curtain || d.cur.milestone ≠ 7 then d
  else
    let d := sealBooks 1 (loseUnstaged d)
    milestone 8 { d with
      flash := { d.flash with curtains := d.flash.curtains + 1 }
      cur := { d.cur with energyMj := d.cur.energyAtFail - d.est.eCons } }
def execPromptBooksSealed (s : State) : Answer := onDev booksSealed s

/-- Row 10 at once: main supply away and the pack gone, open or at its cutoff. -/
def sealUnpowered (d : Dev) : Dev :=
  if d.chp.mode = .sealed && !d.spw.good && (!packUsable d || d.pkb.cutoff) then goDark (transition .dark 0x0D d) else d

/-- Row 11 at once where the seal's AFTER or a finished qualification calls for it (R41, R121). -/
def afterSeal (d : Dev) : Dev :=
  if d.chp.halt || d.chp.mode ≠ .sealed then d
  else if d.cur.plannedFlag && d.cur.linkKept && d.cur.after = 1 then goBoot 0x18 d
  else if d.cur.plannedFlag && d.cur.linkKept && d.cur.after = 2 then
    (if linkUp d then goBoot 0x18 d else { d with chp := { d.chp with halt := true } })
  else if d.spw.qualified then goBoot 0x18 d
  else d

/-- DRAM_PLACED (M9 and M10; R114, row 9). After a fault of the retention island nothing could vouch for the
DRAM, and a short encore is not possible (Table 19.7): the model powers DRAM off then, whatever the policy.
DESIGN CHOICE (log entry 136). -/
def dramPlaced (d : Dev) : Dev :=
  if d.chp.mode ≠ .curtain || d.cur.milestone ≠ 8 then d
  else
    let keep := d.spw.good || d.spw.retain
    let d := milestone 9 d
    let d := { d with cip := { d.cip with copy := if d.fatalRetention then [] else d.cip.slots } }
    let d := if keep && !d.fatalRetention then
        enterSelfRefresh { d with chp := { d.chp with sealRetained := true } }
      else loseDram d
    let d := transition .sealed 0x0C (milestone 10 d)
    let d := { d with
      cur := { d.cur with durUs := usBetween d.cur.failHt d.tmb.ht }
      spw := { d.spw with holdRunning := !d.spw.good } }
    let d := match findDesc d d.cur.handle with
      | some x => if d.cur.linkKept then endWith x stSuccess d.cur.sealHt 0 d else d
      | none => d
    afterSeal (sealUnpowered (stopTime d))
def execDramPlaced (s : State) : Answer := onPower dramPlaced s

end Sys2Proof.Machine
end

