-- ==== Sys2Proof/Machine/Supply.lean ====
section
/-!
DEFINITION. Supply watch (R103 to R106), the rows of Table 2.3 that supply takes, intermission
(chapter 7) and the chip fatal fault (R25, R340).
-/

namespace Sys2Proof.Machine

/-- The curtain energy in mJ for the longest of the blocks' data times and the fixed 0.4 s; the times are not
rounded (R123). -/
def needFor (d : Dev) (left : Nat → Nat) : Nat :=
  let data := ((sumBlocks d).map (fun b => if rateB d b = 0 then 0 else pCurtain d * left b / rateB d b)).foldl max 0
  (data + pCurtain d * 400) / 1000 + sealReserve d

/-- curtain_need() of R123 in mJ. -/
def curtainNeed (d : Dev) : Nat :=
  needFor d (fun b => unstagedB d b
    + sumNat ((d.descs.filter (fun x => readyHold d x && x.block = b)).map Desc.bytesLen))

/-- The intermission margin (R123) of a need. -/
def intMargin (d : Dev) (need : Nat) : Nat := need * d.spw.marginPct / 100

/-! ### Intermission entry -/

/-- Intermission milestone `i`: trace only (Table 7.1). -/
def intStep (i : Nat) (d : Dev) : Dev :=
  trace (0x020 + i) 79 (2 ^ d.board.blocks - 1) 0 { d with int := { d.int with step := i } }

/-- Row 3: I1 to I4. Completions and events waiting are kept with the state of R125, granules still to be
reloaded wait for the next exit (Table 7.3), and a SERVICE_ENTER under way is abandoned (R45). -/
def enterIntermission (d : Dev) : Dev :=
  let need := curtainNeed d
  let d := abandonPorts true (abandonTraining (endLearning 1 (abortRehearsal false d)))
  let d := abandonCompaction { d with est := { d.est with probing := false, shareMa := 0 }, svc := { d.svc with entering := 0, drain := false } }
  let ht := d.tmb.ht
  let d := transition .intermission 0x05 d
  let d := intStep 4 (abandonLink true (intStep 3 (cutHost (intStep 2 (intStep 1 d)))))
  let d := updateReclaim d
  countChip 14 1 { d with
    spw := { d.spw with intTimerRunning := true }
    cur := { d.cur with
      linkKept := false, listed6 := false, lists := [], handle := 0, energyAtFail := d.est.eCons
      listedB := listedNow d, savedB := [], lostB := [] }
    int := { d.int with
      count := satAdd 16 d.int.count 1, entryHt := ht, needAtFail := need, needMj := need, exit := 0
      pasrEff := false, kept := 0, listIds := [] } }

/-! ### FAIL, WARN and GOOD -/

/-- Row 26: the device stops within the hold-up, recorded nowhere; a collapsed pack feeds no island,
so the retention island keeps its content only while VIN12 does (R119, R386). -/
def row26Stop (d : Dev) : Dev :=
  let d := tornBooks (tornLists d)
  let d := goDark { d with chp := { d.chp with mode := .dark } }
  if 8000 ≤ d.pins.vinMv then d else loseRetention d

/-- The rows of Table 2.3 that FAIL takes, in their order. -/
def failRows (d : Dev) : Dev :=
  match d.chp.mode with
  | .boot | .encore | .reconcile | .service => goDark (transition .dark 0x05 d)
  | .writeThrough =>
    if !packUsable d || eAvailNow d < d.adm.eFixed.toNat + sealReserve d then goDark (transition .dark 0x05 d)
    else startCurtain { cause := 0x05, linkKept := false } d
  | .armed | .derated | .rehearsal =>
    let need := curtainNeed d
    if d.spw.intEn && need + intMargin d need ≤ eAvailNow d then enterIntermission d
    else startCurtain { cause := 0x05, linkKept := false } d
  | .curtain => if !packUsable d || d.pkb.cutoff then row26Stop d else failInCurtain d
  | .intermission => { d with spw := { d.spw with intTimerRunning := true } }
  | .sealed =>
    let d := sealUnpowered { d with spw := { d.spw with holdRunning := true } }
    if d.chp.mode = .sealed && linkUp d then abandonLink false { d with descs := [] } else d
  | .dark => d

/-- VIN12 stays below FAIL for the deglitch time: FAIL is asserted and the load moves to the pack. -/
def failAssert (mv : Nat) (d : Dev) : Dev :=
  let d := { d with pins := { d.pins with vinMv := mv } }
  if d.spw.failMv ≤ mv || d.chp.mode = .dark then checkRetention { d with spw := { d.spw with mv } }
  else
    let again := d.spw.fail
    let d := { d with spw := { d.spw with
      mv, fail := true, good := false, qualRunning := false, qualified := false
      onPack := packUsable d
      failCount := if again then d.spw.failCount else satAdd 16 d.spw.failCount 1 } }
    let d := trace 0x0002 80 (mv + 65536) 0 d
    if again then (if d.chp.mode = .intermission then { d with spw := { d.spw with intTimerRunning := true } } else d)
    else failRows (packFail { d with chp := { d.chp with haltLost := d.chp.halt } })

/-- The ratings of Table 21.1 for VIN12: above them the device's behaviour is not defined (R354). -/
def vinMax : Nat := 16000

def execFailAssert (mv : Nat) (s : State) : Answer := onPower (failAssert mv) s

/-- The entry to an intermission runs, before I9. -/
def entering (d : Dev) : Bool := d.chp.mode = .intermission && d.int.step < 9

/-- Main supply becomes good: FAIL clears, the load moves to main, qualification starts (R103, R106,
R128, R114); its return after a loss clears HALT (R42). While the entry to an intermission runs FAIL is not
cleared (Table 7.3). -/
def failRelease (mv : Nat) (d : Dev) : Dev :=
  let d := { d with pins := { d.pins with vinMv := mv } }
  if mv < d.spw.goodMv || d.chp.mode = .dark then checkRetention d
  else
    let d := { d with chp := { d.chp with halt := d.chp.halt && !d.chp.haltLost, haltLost := false } }
    let d := trace 0x0002 80 mv 0 { d with spw := { d.spw with
      mv, fail := d.spw.fail && entering d, good := true, onPack := false, qualRunning := true, qualified := false
      intTimerRunning := false, holdRunning := false } }
    d

def execFailRelease (mv : Nat) (s : State) : Answer :=
  if vinMax < mv then .fault .absoluteMaximum else onDev (failRelease mv) s

def warnAssert (mv : Nat) (d : Dev) : Dev :=
  let d := { d with pins := { d.pins with vinMv := mv } }
  if d.spw.warnMv ≤ mv || d.spw.warn || d.chp.mode = .dark then checkRetention d
  else
    let d := dropCommit 2 (some stBrownout) true { d with est := { d.est with probing := false, shareMa := 0 } }
    postEvent 3 0 [mv] (trace 0x0002 80 (mv + 131072) 0 { d with spw := { d.spw with
      mv, warn := true, warnCount := satAdd 16 d.spw.warnCount 1 } })
/-- WARN_ASSERT (R105). A pending parameter commit ends with BROWNOUT and a probe pulse is cut short
(R217, R206). -/
def execWarnAssert (mv : Nat) (s : State) : Answer := onDev (warnAssert mv) s

/-- WARN_RELEASE: above WARN by 100 mV of hysteresis (R103). -/
def warnRelease (mv : Nat) (d : Dev) : Dev :=
  let d := { d with pins := { d.pins with vinMv := mv } }
  if mv < d.spw.warnMv + 100 || !d.spw.warn || d.chp.mode = .dark then checkRetention d
  else trace 0x0002 80 mv 0 { d with spw := { d.spw with mv, warn := false } }
def execWarnRelease (mv : Nat) (s : State) : Answer :=
  if vinMax < mv then .fault .absoluteMaximum else onDev (warnRelease mv) s

/-- VIN12 below GOOD without reaching FAIL: main is no longer good; a running qualification restarts
and the timers that main supply stops run again (R128, R114). FAIL, once clear, stays clear. -/
def belowGood (mv : Nat) (d : Dev) : Dev :=
  let d := { d with pins := { d.pins with vinMv := mv } }
  if d.spw.goodMv ≤ mv || d.chp.mode = .dark then checkRetention d
  else
    let d := { d with spw := { d.spw with
      mv, good := false, qualRunning := false, qualified := false } }
    match d.chp.mode with
    | .intermission => { d with spw := { d.spw with intTimerRunning := true } }
    | .sealed => sealUnpowered { d with spw := { d.spw with holdRunning := true } }
    | _ => d
def execVin12BelowGood (mv : Nat) (s : State) : Answer := onPower (belowGood mv) s

/-! ### Intermission milestones I5 to I9 -/

def flashQuiesced (d : Dev) : Dev :=
  if d.chp.mode ≠ .intermission || d.int.step ≠ 4 then d else intStep 5 (quiesceFlash d)
/-- FLASH_QUIESCED (I5). -/
def execFlashQuiesced (s : State) : Answer := onDev flashQuiesced s

def intLists (d : Dev) : Dev :=
  if d.chp.mode ≠ .intermission || d.int.step ≠ 5 then d
  else
    let d := (saveBlocks d).foldl (fun d b =>
      writeEntries b 3 d.int.entryHt (heldEntries d b ++ unackOf d b) (Tab.get 0 d.cur.listedB b) 0 d) d
    intStep 6 { d with int := { d.int with
      needMj := needFor d (leftB d), listIds := d.cur.lists.map CallList.listId } }
/-- INT_LISTS_WRITTEN (I6; R47, R111). -/
def execIntListsWritten (s : State) : Answer := onDev intLists s

/-- STATE_PRESERVED (I7; R125): the copy in the retention island is of fields that this model keeps
in place; the index cache is written back. Log entry 19. -/
def execStatePreserved (s : State) : Answer :=
  onDev (fun d => if d.chp.mode = .intermission ∧ d.int.step = 6 then
    intStep 7 { d with cip := { d.cip with copy := d.cip.slots } } else d) s

/-- Self-refresh segment of an address within its block (R126). -/
def segmentOf (d : Dev) (a : Nat) : Nat :=
  min 7 ((a % blockSpan) / (d.board.moduleGib * gib * 31 / 256))

/-- Segments a block keeps (R127). -/
def keptSegments (d : Dev) (b : Nat) : List Nat :=
  let all := List.range 8
  if !(d.spw.keepUnstaged && d.drc.mapNow ≠ 1) then all
  else all.filter (fun s => s = 7
    || d.pages.any (fun e => e.2.unstaged && blockOf (pageAddr e.1) = b && segmentOf d (pageAddr e.1) = s)
    || (unackOf d b).any (fun e => (pagesOf e.caddr e.pages).any (fun p => segmentOf d (pageAddr p) = s)))

def keptMask (d : Dev) : Nat :=
  sumNat ((blockList d).map (fun b => sumNat ((keptSegments d b).map (fun s => 2 ^ (8 * b + s)))))

/-- SELF_REFRESH_ENTERED (I8; R127): the masked segments' content is lost; pages of them with a live
record wait for reload. -/
def selfRefresh (p : Dev × List Host.Cell) : Dev × List Host.Cell :=
  let (d, m) := p
  if d.chp.mode ≠ .intermission || d.int.step ≠ 7 then (d, m)
  else
    let keep := fun a => (keptSegments d (blockOf a)).contains (segmentOf d a)
    let gone := (d.pages.filter (fun e => !keep (pageAddr e.1)
      && (e.2.record.isSome && (e.2.kind = .held || e.2.kind = .clean)))).map (fun e => pageAddr e.1 / 16777216)
    let d1 := { d with
      int := { d.int with
        kept := keptMask d, pasrEff := d.spw.keepUnstaged && d.drc.mapNow ≠ 1
        pendingGranules := (sortBy id (gone ++ d.int.pendingGranules)).eraseDups }
      drc := { d.drc with poison := d.drc.poison.filter keep }
      pages := d.pages.filter (fun e => keep (pageAddr e.1) || e.2.record.isSome
        || e.2.kind = .lost || e.2.kind = .plost) }
    (intStep 8 (prune (enterSelfRefresh d1)), m.filter (fun c => keep c.1))
def execSelfRefreshEntered (s : State) : Answer := onBoth selfRefresh s

/-! ### Leaving intermission -/

/-- Rows 6 and 7: the curtain goes on with M5, then M7 on the lists of I6, or M6 where I6 was not done
(R131). Of a pack lost between I5 and I6 the spec does not say which list pages stand: none does, DESIGN CHOICE
(log entry 162). The last-curtain registers start anew; the energy is counted from the FAIL, and completions kept so
far are lost with the link (R45). -/
def intToCurtain (cause exit : Nat) (d : Dev) : Dev :=
  let listed := 6 ≤ d.int.step
  let d := restartTime d
  let d := transition .curtain cause (leaveSelfRefresh d)
  recomputeNow { d with
    fns := Tab.mapVals (fun (f : FnSt) => { f with cqWait := [] }) d.fns
    mrg := { d.mrg with orphans := [] }
    int := { d.int with exit }
    cip := { d.cip with copy := [] }
    spw := { d.spw with fail := d.spw.fail && !d.spw.good }
    chp := { d.chp with planned := false }
    cur := { ({} : Curtain) with
      fromInt := true, seqNo := (d.cur.seqNo + 1) % 256, failHt := d.chp.modeHt
      milestone := 4, listed6 := listed, lists := if listed then d.cur.lists else []
      energyAtFail := d.cur.energyAtFail, listedB := d.cur.listedB } }

/-- INTERMISSION_TIMER_EXPIRY (row 6): not while main supply is good (Table 7.3). -/
def execIntermissionTimerExpiry (s : State) : Answer :=
  onDev (fun d => if d.chp.mode = .intermission ∧ d.spw.intTimerRunning ∧ !d.spw.good
    then intToCurtain 0x0A 2 d else d) s

/-- The margin test of row 7 (R128). -/
def marginTest (d : Dev) : Dev :=
  if d.chp.mode ≠ .intermission then d
  else
    let need := if d.int.step < 6 then d.int.needAtFail else d.int.needMj
    if eAvailNow d < need + intMargin d need || d.chp.fatalIslands.contains 80
    then intToCurtain 0x0B 3 d else d

/-- RETIRE markers for lists, each with the HT range of its list (R129, Table 9.6). -/
def retireLists (ids : List Nat) (d : Dev) : Dev :=
  ids.foldl (fun d id =>
    match findRec d id with
    | some r =>
      let (q, d) := headOnly r.block r.home .retire 0 [] d.tmb.ht id true d
      let d := headAs r.epochId r.hidx (q, d)
      let hts := match r.list with
        | some l => l.entries.map ListEntry.ht
        | none => [r.firstHt, r.lastHt]
      updRec q (fun q => { q with firstHt := hts.foldl min (hts.headD r.firstHt), lastHt := hts.foldl max 0 }) d
    | none => d) d

/-- The events of R129 for each function. For one that has ready holds and no abandoned descriptor the spec
gives no first and last sequence: the model sends 0 and 0. DESIGN CHOICE (log entry 140). -/
def intEndEvents (d : Dev) : Dev :=
  fnNumbers.foldl (fun d f =>
    let seqs := (d.int.abandoned.filter (fun e => e.1 = f)).map Prod.snd
    let un := d.int.ready.filter (fun e => e.fn = f)
    if seqs = [] ∧ un = [] then d
    else
      let first := match seqs with
        | [] => 0
        | s :: rest => rest.foldl min s
      let d := postEvent 0x0A f [first, seqs.foldl max 0, un.length] d
      un.foldl (fun d e => postEvent 0x0B f [e.caddr, e.pages, e.descId] d) d) d

/-- Erases suspended at I5 are not resumed: their units are erased again (R129), as long as WARN lets a new
erase start (R105). -/
def redoErases (d : Dev) : Dev :=
  let d := { d with cells := Tab.mapVals (fun (c : CellSt) => { c with erases := [] }) d.cells }
  (blockList d).foldl (fun d b => resumeIntents b d) d

/-- Row 8: the islands power up, the settled mode is entered, the lists are retired, the link
retrains without an endpoint reset, host-loss timing running (R246). A chip island that failed meanwhile takes row 5 now (R340). -/
def leaveIntermission (d : Dev) : Dev :=
  let d := leaveSelfRefresh (restartTime d)
  let d := { d with
    spw := { d.spw with qualRunning := false, qualified := false, intTimerRunning := false }
    int := { d.int with exit := 1 }
    cip := { d.cip with copy := [] }
    ept := { d.ept with link := .training, hostLossState := 1, linkLostHt := d.tmb.ht } }
  let d := enterSettled 0x09 (recompute d)
  let d := retireLists d.int.listIds d
  let d := intEndEvents (redoErases d)
  let d := recomputeNow (countsChanged { d with
    int := { d.int with ready := [], abandoned := [], listIds := [], step := 0 }
    cur := { d.cur with lists := [] } })
  if d.chp.fatalIslands ≠ [] && (d.chp.mode.admits || d.chp.mode = .writeThrough) then
    startCurtain { cause := 0x07, linkKept := false, protective := true } d
  else d

/-- RESUME_QUAL_EXPIRY (rows 8 and 11; R129). -/
def resumeQual (d : Dev) : Dev :=
  if !(d.spw.good && d.spw.qualRunning) then d
  else
    let d := { d with spw := { d.spw with qualified := true } }
    match d.chp.mode with
    | .intermission => if d.int.step = 9 then leaveIntermission d else d
    | .sealed =>
      if d.chp.halt then d else goBoot 0x18 d
    | _ => d
def execResumeQualExpiry (s : State) : Answer := onDev resumeQual s

/-- LOGIC_POWERED_DOWN (I9): the time base stops (R60). A qualification already complete takes row 8 at once
(Table 7.3). -/
def execLogicPoweredDown (s : State) : Answer :=
  onDev (fun d => if d.chp.mode = .intermission ∧ d.int.step = 8 then
    let d := stopTime (intStep 9 (sendStatusAll { d with spw := { d.spw with fail := d.spw.fail && !d.spw.good } }))
    if d.spw.good && d.spw.qualified then leaveIntermission d else d
  else d) s

/-- SEAL_HOLD_EXPIRY (row 10; R114): only with main supply absent. -/
def execSealHoldExpiry (s : State) : Answer :=
  onPower (fun d => if d.chp.mode = .sealed ∧ !d.spw.good ∧ d.spw.holdRunning
    then goDark (transition .dark 0x0D d) else d) s

/-! ### Reload (R130) -/

/-- The pages of a 16 MiB granule that have a live record. -/
def granulePages (d : Dev) (g : Nat) : List (Nat × Page) :=
  d.pages.filter (fun e => pageAddr e.1 / 16777216 = g && e.2.record.isSome)

/-- Key of a slot's generation, where the device holds it. -/
def keyOf (d : Dev) (s g : Nat) : Option Nat :=
  let k := getSlot d s
  if k.loaded && k.gen = g then some k.key
  else match k.oldKey with
    | some (g', key) => if g' = g then some key else (k.older.find? (fun e => e.1 = g)).map Prod.snd
    | none => (k.older.find? (fun e => e.1 = g)).map Prod.snd

/-- The plaintext byte of a ciphertext byte (R165). -/
def plainByte (key iv i : Nat) (c : Byte) : Byte :=
  (((List.range 256).map (BitVec.ofNat 8)).find? (fun p => Config.cipherByte key iv i p = c)).getD c

/-- A body that a port has laid down (R320) is deciphered under the key of its slot, where that is held, and its tag
compared (R165, R166). -/
def openLaid (id : Nat) (d : Dev) : Dev :=
  match findRec d id with
  | none => d
  | some r =>
    match r.laid, keyOf d r.slot r.gen with
    | some (h, b), some key =>
      let iv := r.pfx + r.inv * 2 ^ 32
      let text := b.zipIdx.map (fun e => plainByte key iv e.2 e.1)
      let aad := h.take 0x40 ++ zeros 16 ++ (h.drop 0x50).take 0x2C ++ zeros 4
        ++ (h.drop 128).take (32 * fieldAt h 0x16 2 + 16 * fieldAt h 0x24 2)
      let good : Bool := fieldAt h 0x40 16 = Config.gcmTag key iv aad text
      let body := (r.runs.flatMap runPageList).zipIdx.foldl (fun m e =>
        memWriteBytes m (pageAddr e.1) ((text.drop (e.2 * pageBytes)).take pageBytes)) []
      updRec id (fun r => { r with
        authentic := r.authentic && good, tlcAuthentic := r.tlcAuthentic && good, ckey := key, body }) d
    | _, _ => d

/-- A record's body is read to be restored: DATA_CRC is compared first, then the tag where the key is held
(R166). Whether a copy that stood until now passes is the flash's, a free bit; after one that fails the next copy
is tried (R138), `n` at most. Log entry 172. -/
def senseCopies : Nat → Nat → Dev → Dev
  | 0, _, d => d
  | n + 1, id, d =>
    let d := openLaid id d
    match findRec d id with
    | none => d
    | some r =>
      if !r.reads d then d
      else
        let (v, d) := fresh d
        if v % 2 = 0 then d
        else senseCopies n id (updRec id (fun r =>
          if r.slcReads d then { r with readable := false } else { r with tlcReadable := false }) d)

/-- The records of some pages, each once. -/
def recordsOf (ps : List (Nat × Page)) : List Nat := (ps.filterMap (fun e => e.2.record)).eraseDups

/-- What the flash gives of a page whose record does not read (R139): no value is stated. Log entry 172. -/
def sensedPage (r : Rec) (p : Nat) : List Byte :=
  (List.range pageBytes).map (fun i => Config.rawFlashByte r.id (p * pageBytes + i))

/-- Restore one page's content from its live record, marking it UNTRUSTED where it fails (R130, R139). -/
def reloadPage (e : Nat × Page) (p : Dev × List Host.Cell) : Dev × List Host.Cell :=
  let (d, m) := p
  match e.2.record.bind (findRec d) with
  | none => (d, m)
  | some r =>
    let bad := !r.reads d
    let m := memClear m (pageAddr e.1) pageBytes
    let m := if bad then memWriteBytes m (pageAddr e.1) (sensedPage r e.1)
      else memOverlay m (memSlice r.body (pageAddr e.1) pageBytes)
    ({ updPage e.1 (fun g => { g with untrusted := g.untrusted || bad }) d with
       drc := { d.drc with poison := (d.drc.poison.filter (fun a => pageOf a ≠ e.1))
         ++ r.poison.filter (fun a => pageOf a = e.1) } }, m)

/-- A byte range whose TLP carries the EP bit (R259, Table 13.4 row 7). -/
def epRange (d : Dev) (a len : Nat) : Bool :=
  d.drc.poison.any (fun l => l < a + len && a < l + 64)
    || (pagesOf a (pageOf (a + len - 1) + 1 - pageOf a)).any (fun p =>
        (getPage d p).kind = .lost || (getPage d p).kind = .plost || (getPage d p).untrusted)

/-- A window TLP held on a granule is served (R130): a write lands, a read is answered. -/
def serveHeld (t : HeldTlp) (p : Dev × List Host.Cell) : Dev × List Host.Cell :=
  let (d, m) := p
  if t.isRead then
    (emit (.readCompletion t.fn .success (memReadBytes m t.caddr t.len) (epRange d t.caddr t.len)) (count 3 1 d), m)
  else
    ({ count 2 1 d with drc := { d.drc with poison := d.drc.poison.filter (fun a =>
        !(t.caddr ≤ a && a + 64 ≤ t.caddr + t.data.length)) } }, memWriteBytes m t.caddr t.data)

/-- A granule waits for a key: a page of it belongs to a function whose slot was not restored. -/
def granuleWaitsKey (d : Dev) (g : Nat) : Bool :=
  (granulePages d g).any (fun e =>
    match e.2.record.bind (findRec d) with
    | some r => !((getSlot d r.slot).loaded)
    | none => false)

/-- The granule that is reloaded next: the first pending one, in ascending order but for those that a held
TLP moved to the head, that does not wait for a key and is no fenced block's. R130 does not say whether the
ascending order runs in each block or over the device: it runs over the device, DESIGN CHOICE (log entry 164). -/
def nextGranule (d : Dev) : Option Nat :=
  d.int.pendingGranules.find? (fun g => !granuleWaitsKey d g && !(getBlk d (blockOf (g * 16777216))).fenced)

/-- Reload runs while the encore port of the DRAM is open: not once a curtain has prepared it (R116), and not
in SERVICE, where nothing writes DRAM (R40). -/
def reloadRuns (d : Dev) : Bool :=
  orderingPowered d && d.chp.mode ≠ .service && (d.chp.mode ≠ .curtain || d.cur.milestone < 5)

/-- A granule that a transfer targets moves to the head of the reload order. -/
def granuleFirst (a : Nat) (d : Dev) : Dev :=
  let g := a / 16777216
  if d.int.pendingGranules.contains g then
    { d with int := { d.int with pendingGranules := g :: d.int.pendingGranules.filter (· ≠ g) } }
  else d

/-- GRANULE_RELOADED (R130). TLPs held on it are served; once a curtain has cut them off they are not. -/
def granuleReloaded (g : Nat) (p : Dev × List Host.Cell) : Dev × List Host.Cell :=
  let (d, m) := p
  if nextGranule d ≠ some g || !reloadRuns d then (d, m)
  else
    let ps := granulePages d g
    let d := (recordsOf ps).foldl (fun d id => senseCopies 2 id d) d
    let (d, m) := ps.foldl (fun p e => reloadPage e p) (d, m)
    let d := { d with int := { d.int with pendingGranules := d.int.pendingGranules.filter (· ≠ g) } }
    let held := d.ept.tlpHeld.filter (fun t => t.caddr / 16777216 = g)
    let d := { d with ept := { d.ept with
      tlpHeld := d.ept.tlpHeld.filter (fun t => t.caddr / 16777216 ≠ g) } }
    held.foldl (fun p t => serveHeld t p) (d, m)
def execGranuleReloaded (g : Nat) (s : State) : Answer := onBoth (granuleReloaded g) s

/-! ### Pack collapse, power pins, chip fatal fault -/

/-- E_avail_cons changed: the budget is recomputed where admission is powered, and the margin tested in
INTERMISSION (R75, R128). -/
def energyChanged (d : Dev) : Dev :=
  if d.chp.mode = .intermission then marginTest d else recomputeNow d

/-- The estimator's state is lost (R200): its settings and the outcomes that a host reads stay. -/
def clearEstimator (d : Dev) : Dev :=
  let d := dropCommit 4 (some stNotFound) false (endLearning 3 d)
  { d with est := { ({} : Est) with
    ctl := d.est.ctl, derateBound := d.est.derateBound, learnCtl := d.est.learnCtl, outcome := d.est.outcome
    paramSeq := d.est.paramSeq, learnResult := d.est.learnResult, learnCause := d.est.learnCause } }

def bayCode : Bay → Nat
  | .absent => 0 | .debouncing => 1 | .settling => 3 | .inService => 4 | .window => 5 | .draining => 6
  | .removable => 7 | .faultOpen => 8

/-- PKB_STATUS.IND (Table 12.4). -/
def indicator (k : Pkb) : Nat :=
  match k.bay with
  | .window => 2
  | .draining => 3
  | .inService => if k.faultAct ≠ 0 then 4 else 1
  | _ => 0

def descByte (k : Pkb) (i : Nat) : Nat := (k.desc.getD i 0).toNat

/-- Pack share: a probe pulse, the discharge of a learning cycle, or a rehearsal, which a rest window pauses (R205,
R206). -/
def packShares (d : Dev) : Bool :=
  d.est.probing || (d.est.learning && d.est.learnPhase = 3) || (d.chp.mode = .rehearsal && !d.est.restWindow)

/-- PKB_STATUS as read; the button itself is not held in State. -/
def pkbStatus (d : Dev) : Nat :=
  let k := d.pkb
  bayCode k.bay * 2 ^ 28 + (if !k.switchClosed then 0 else if packShares d then 2 else 1) * 2 ^ 26
    + indicator k * 2 ^ 23 + descByte k 7 % 16 * 2 ^ 12 + descByte k 6 % 4 * 2 ^ 8 + 2 * boolNat k.descOk
    + boolNat (k.bay ≠ .absent && k.bay ≠ .debouncing)

/-- A new bay state, traced. -/
def setBay (b : Bay) (d : Dev) : Dev :=
  let d := { d with pkb := { d.pkb with bay := b } }
  trace 0x8005 80 (pkbStatus d) 0 d

/-- PACK_PRES_N goes high: the bay's record of the pack ends (R225); DESC, SWITCH, OVERCURRENT and CHG_TIMEOUT stay
active until the next insertion (Table 12.5). -/
def packGone (d : Dev) : Dev :=
  let was := d.pkb.switchClosed
  let d := clearEstimator { d with
    pins := { d.pins with packPresN := true }
    pkb := { d.pkb with
      switchClosed := false, desc := [], descOk := false, faultAct := d.pkb.faultAct &&& 0x1601, held := [], clearUs := []
      chgPhase := .off, chgUs := 0, chgMa := 0, vPack := 0, cutoff := false, released := false
      removeHt := d.tmb.ht, surprise := if was then satAdd 8 d.pkb.surprise 1 else d.pkb.surprise } }
  setBay .absent d

/-- PACK_COLLAPSE (R119): with the pack carrying a curtain the device stops (row 26); with main
carrying it PACK_LOST is set. In SEALED a pack at cutoff with main absent takes
row 10; in INTERMISSION it is row 7, and the curtain ends at once with main absent (R128); elsewhere E_avail_cons is zero. -/
def packCollapse (removed : Bool) (d : Dev) : Dev :=
  let d := if removed then packGone d
    else { d with pkb := { d.pkb with cutoff := true }, est := { d.est with eCons := 0 } }
  match d.chp.mode with
  | .curtain => if d.spw.onPack then row26Stop d else { d with cur := { d.cur with packLost := true, faultFlag := true } }
  | .dark => checkRetention d
  | .intermission =>
    let d := energyChanged d
    if d.chp.mode = .curtain ∧ !d.spw.good then row26Stop d else d
  | .sealed => sealUnpowered d
  | _ => energyChanged d
def execPackCollapse (removed : Bool) (s : State) : Answer := onPower (packCollapse removed) s

/-- RETENTION_PACK_RELEASE (R363): in DARK the island releases the pack. -/
def execRetentionPackRelease (s : State) : Answer :=
  onDev (fun d => if d.chp.mode = .dark then
    checkRetention { d with pkb := { d.pkb with released := true } } else d) s

/-- What the island's loss does to a curtain in progress (R37, Table 19.7): without the endpoint a
link kept so far is abandoned at once, without the supply watch the pack switch is forced closed. -/
def fatalInCurtain (island : Nat) (d : Dev) : Dev :=
  let d := { d with
    cur := { d.cur with protectiveFlag := true, faultFlag := true }
    chp := { d.chp with halt := true } }
  if island = 76 && d.cur.linkKept then
    let d := abandonLink false { d with
      descs := d.descs.filter (fun x => x.phase = .staging)
      cur := { d.cur with linkKept := false, handle := 0 } }
    { d with cur := { d.cur with msHt := Tab.set d.cur.msHt 4 d.tmb.ht } }
  else if island = 80 then { d with pkb := { d.pkb with switchClosed := true } }
  else d

/-- A failed endpoint carries nothing more: no AER, no event, no completion (Table 19.7). -/
def cutEndpoint (island : Nat) (d : Dev) : Dev :=
  if island = 76 && d.chp.mode ≠ .boot && linkUp d then { d with ept := { d.ept with link := .abandoned } } else d

/-- A chip island is on, and can fail (Table 1.6): in SEALED only 80 and 83; in CURTAIN not an abandoned
endpoint, nor Harka on a standalone device. One that fails in INTERMISSION, where it is off, takes row 5 at
the next exit (R340). -/
def chipIslandOn (d : Dev) (island : Nat) : Bool :=
  76 ≤ island && island ≤ 83 &&
    match d.chp.mode with
    | .dark => false
    | .sealed => island = 80 || island = 83
    | .curtain => (island ≠ 76 || d.ept.link ≠ .abandoned) && (island ≠ 77 || d.hrk.role ≠ 0)
    | _ => true

/-- Code 0x0408 in a chip island (R340): row 5, or R37 in CURTAIN, BOOT and SEALED, R128 in
INTERMISSION. -/
def chipFatal (island : Nat) (d : Dev) : Dev :=
  if !chipIslandOn d island then d
  else
    let d := raiseFault { code := 0x0408, level := 4, island, severity := 4 } (cutEndpoint island d)
    let d := { d with chp := { d.chp with fatalIslands := island :: d.chp.fatalIslands } }
    match d.chp.mode with
    | .curtain => fatalInCurtain island d
    | .boot => { d with chp := { d.chp with fatalBoot := true, cause := 0x1A } }
    | .sealed =>
      if island ≠ 80 ∧ island ≠ 83 then d
      else
        let d := loseDram { d with chp := { d.chp with halt := true } }
        let d := if island = 80 then { d with pkb := { d.pkb with switchClosed := false } } else d
        if island = 80 ∧ !d.spw.good then goDark (transition .dark 0x0D d) else d
    | .intermission => if island = 80 then marginTest d else d
    | _ =>
      let d := if island = 80 then { d with pkb := { d.pkb with switchClosed := true } } else d
      startCurtain { cause := 0x07, linkKept := island ≠ 76 && linkUp d, protective := true } d
def execChipFatalFault (island : Nat) (s : State) : Answer := onPower (chipFatal island) s

/-- MGMT_WATCHDOG_EXPIRY (R340): the management core, island 79. -/
def execMgmtWatchdogExpiry (s : State) : Answer := onPower (chipFatal 79) s

end Sys2Proof.Machine
end

