-- ==== Sys2Proof/Machine/Rings.lean ====
section
/-!
DEFINITION. Rings (R247 to R256, R260, R261), function reset and disable (R267, R268), coalescing.
-/

namespace Sys2Proof.Machine

/-! ### Doorbells (R250, R251) -/

/-- An ignored doorbell write: counted and reported. -/
def doorbellError (f ring value : Nat) (d : Dev) : Dev :=
  let d := updFn f (fun s => { s with dbErrors := satAdd 8 s.dbErrors 1 }) d
  postEvent 0x14 f [ring, value] d

/-- The ring or its function is disabled or in reset (R250). -/
def ringBlocked (d : Dev) (f : Nat) (en : Bool) : Bool :=
  !en || (f ≠ 0 && (!fnEnabled d f || (getFn d f).resetting))

/-- A tail may move forward up to, not past, the head: `(tail − dev) mod size` never wraps past the
entries already exposed. -/
def tailOk (r : Ring) (tail : Nat) : Bool :=
  let size := ringSize r
  tail < size && (r.host + size - r.dev) % size ≤ (tail + size - r.dev) % size

/-- A head lies between the present head and the device's next write position (R251). -/
def headOk (r : Ring) (head : Nat) : Bool :=
  let size := ringSize r
  head < size && (head + size - r.host) % size ≤ (r.dev + size - r.host) % size

/-- SQ_DOORBELL (R250); function 0 names the admin submission ring. -/
def sqDoorbell (f n : Nat) (w : W32) (d : Dev) : Dev :=
  let tail := field w 0 16
  let d := count 0 1 (count 4 1 d)
  let r := if f = 0 then mrgRing d 0 else sqRing d f n
  if ringBlocked d f r.en || !tailOk r tail then doorbellError f n tail d
  else if f = 0 then setMrgRing 0 { r with host := tail } d
  else setSqRing f n { r with host := tail } d
def execSqDoorbell (f n : Nat) (w : W32) (s : State) : Answer := onDev (sqDoorbell f n w) s

/-- The head value a doorbell carries: ring 4 of the management rings takes bits 19:16 from
MRG_DB_HI. -/
def headValue (d : Dev) (f n : Nat) (w : W32) : Nat :=
  field w 0 16 + (if f = 0 ∧ n = 4 then 65536 * field d.mrg.dbHi 0 4 else 0)

/-- CQ_DOORBELL (R251): frees entries and lets waiting ones be written. -/
def cqDoorbell (f n : Nat) (w : W32) (d : Dev) : Dev :=
  let head := headValue d f n w
  let d := count 0 1 (count 4 1 d)
  let r := if f = 0 then mrgRing d n else cqRing d f n
  if ringBlocked d f r.en || !headOk r head || (f = 0 && n = 0) then doorbellError f (if f = 0 then n else 16 + n) head d
  else if f = 0 then
    let d := setMrgRing n { r with host := head } d
    if n = 1 then drainCpls 2049 0 d
    else if n = 2 then drainEvents 257 d
    else if n = 3 then drainOrphans 2049 d
    else d
  else drainCpls 2049 f (setCqRing f n { r with host := head } d)
def execCqDoorbell (f n : Nat) (w : W32) (s : State) : Answer := onDev (cqDoorbell f n w) s

/-! ### Enabling rings (R247 to R249) -/

/-- Limits of LOG2_SIZE by ring (R247, Table 14.1). -/
def log2Ok (f : Nat) (side : RingSide) (n v : Nat) : Bool :=
  if f ≠ 0 then 4 ≤ v && v ≤ 16
  else match side, n with
    | _, 0 => 4 ≤ v && v ≤ 12
    | _, 1 => 4 ≤ v && v ≤ 12
    | _, 2 => 6 ≤ v && v ≤ 16
    | _, 3 => 11 ≤ v && v ≤ 16
    | _, _ => 10 ≤ v && v ≤ 20

/-- Writable CFG fields below EN, by side. -/
def cfgFields (side : RingSide) (w : W32) : W32 :=
  match side with
  | .submission => w &&& 0x00F3001F
  | .completion => w &&& 0x3FFFFF1F

def cfgError (f : Nat) (d : Dev) : Dev := updFn f (fun s => { s with cfgError := true }) d

/-- What an enable or a disable of a ring makes of it. -/
def enableRing (r : Ring) : Ring := { r with en := true, dev := 0, host := 0, phase := true, unsent := 0 }

/-- IDX_FN_CFG takes effect when the function becomes set up; a table that is not empty is then laid out
again (R278). -/
def idxSetUp (f : Nat) (d : Dev) : Dev :=
  let w := (getFn d f).idxCfg
  let gap := min 2 (field w 4 2)
  let now : W32 := BitVec.ofNat 32 (gap * 4096 + boolNat (bit w 0) * 1024 + field w 4 2 * 16 + boolNat (bit w 0))
  updFn f (fun s => { s with
    idxCfg := now, rebuilding := s.rebuilding || (now ≠ w && d.exts.any (fun x => x.fn = f)) }) d

/-- A first set-up takes the function's sequence count from 0, or resumes it (R64); a function that
becomes set up while holds are admitted by energy has its EXPOSE mark first (R385). -/
def afterSetUp (was : Bool) (f : Nat) (d : Dev) : Dev :=
  let now := setUp d f
  let d := if !was && now && d.chp.mode.admits then exposeAll d else d
  let d := if !was && now then idxSetUp f d else d
  if was ≠ now then dirChanged f 0 (recomputeNow d) else d

/-- RING_EN_WRITE (R247): the CFG write of a ring. -/
def ringEnWrite (f : Nat) (side : RingSide) (n : Nat) (w : W32) (d : Dev) : Dev :=
  let en := bit w 31
  if f = 0 then
    let r := mrgRing d n
    if 4 < n then d
    else if r.en then
      (if en then d else setMrgRing n { r with en := false } d)
    else
      let r := { r with cfg := cfgFields .completion w }
      if en && log2Ok 0 side n (field w 0 5) then
        let d := setMrgRing n { enableRing r with phase := n ≠ 0 } d
        drainOrphans 2049 (drainEvents 257 (drainCpls 2049 0 d))
      else setMrgRing n r d
  else if 15 < n || 63 < f then d
  else match side with
  | .submission =>
    let was := setUp d f
    let r := sqRing d f n
    if r.en then
      (if en then d else afterSetUp was f (setSqRing f n { r with en := false } d))
    else
      let r := { r with cfg := cfgFields .submission w }
      if !en then setSqRing f n r d
      else if !(cqRing d f (field w 20 4)).en then cfgError f (setSqRing f n r d)
      else if log2Ok f side n (field w 0 5) then afterSetUp was f (setSqRing f n (enableRing r) d)
      else setSqRing f n r d
  | .completion =>
    let r := cqRing d f n
    if r.en then
      (if en then d
       else if (getFn d f).sq.any (fun e => e.2.en && field e.2.cfg 20 4 = n) then cfgError f d
       else setCqRing f n { r with en := false } d)
    else
      let r := { r with cfg := cfgFields .completion w }
      if en && log2Ok f side n (field w 0 5) then drainCpls 2049 f (setCqRing f n (enableRing r) d)
      else setCqRing f n r d
def execRingEnWrite (f : Nat) (side : RingSide) (n : Nat) (w : W32) (s : State) : Answer :=
  onDev (ringEnWrite f side n w) s

/-! ### Coalescing and vectors (R252) -/

/-- COALESCE_TIMER: COAL_TIME passes after the first entry since the last message. Rings 16 + n of a
function are its completion rings. -/
def coalesceTimer (f n : Nat) (d : Dev) : Dev :=
  let r := if f = 0 then mrgRing d n else cqRing d f n
  if r.unsent = 0 || field r.cfg 16 8 = 0 || !r.en then d
  else
    let d := if f = 0 then setMrgRing n { r with unsent := 0 } d else setCqRing f n { r with unsent := 0 } d
    msixSend f (field r.cfg 24 6) d
def execCoalesceTimer (f n : Nat) (s : State) : Answer := onDev (coalesceTimer f n) s

/-- VECTOR_UNMASK: a pending vector sends its message. -/
def vectorUnmask (f v : Nat) (d : Dev) : Dev :=
  let e := Tab.get {} (getFn d f).msix v
  let d := updFn f (fun s => { s with msix := Tab.set s.msix v { e with masked := false, pend := false } }) d
  if e.pend then msixSend f v d else d
def execVectorUnmask (f v : Nat) (s : State) : Answer := onDev (vectorUnmask f v) s

/-! ### Host reads (R239, R240) -/

/-- Tags in the pool (R239): by the 10-bit and extended tag enables of the function's controls. -/
def tagPool (d : Dev) : Nat :=
  if d.fns.any (fun e => bit e.2.devCtl2 12) then 768
  else if d.fns.any (fun e => bit e.2.devCtl 8) then 256
  else 32

def maxRead (d : Dev) (f : Nat) : Nat := 128 * 2 ^ min 5 (field (getFn d f).devCtl 12 3)

/-- Split a transfer of `len` bytes between a host address and a cache address in pieces of `max`. -/
def pieces (host len caddr mx : Nat) : List (Nat × Nat × Nat) :=
  (List.range ((len + mx - 1) / mx)).map (fun i => (host + i * mx, min mx (len - i * mx), caddr + i * mx))

/-- A tag that no read holds and none in quarantine. -/
def freeTag (d : Dev) : Option Nat :=
  (List.range (tagPool d)).find? (fun t => !(d.ept.tags.any (fun e => e.1 = t)))

/-- A read of the device's own has timed out (R240): reported, counted, its tag in quarantine. -/
def tagTimeout (t : Nat) (g : Tag) (d : Dev) : Dev :=
  trace 0x7003 76 t 0 (emit (.aer 3) { d with ept := { d.ept with
    timeouts := satAdd 32 d.ept.timeouts 1, tags := Tab.set d.ept.tags t { g with quarantined := true } } })

/-- The reads of a scatter list or of an admin command's buffer: split by the function's read size, each with a tag
that returns with its data, or goes to quarantine where the read times out. With no tag free they wait. -/
def hostFetch (f host len : Nat) (timedOut : Bool) (d : Dev) : Option Dev :=
  match freeTag d with
  | none => none
  | some t =>
    let d := (pieces host len 0 (maxRead d f)).foldl (fun d g =>
      count 7 1 (count 8 g.2.1 (emit (.hostRead t f g.1 g.2.1 false) d))) d
    some (if timedOut then tagTimeout t { handle := 0, fn := f, caddr := 0, len := 0, discard := true } d else d)

/-! ### Fetching (R253) -/

/-- Modes in which nothing is fetched (R44): `admin` for the admin ring, which in a curtain is not served without
the management core (R340, Table 19.7). -/
def fetches (d : Dev) (admin : Bool) : Bool :=
  linkUp d && match d.chp.mode with
    | .dark | .intermission => false
    | .curtain => admin && d.cur.linkKept && !d.chp.fatalIslands.contains 79
    | _ => true

/-- Descriptors in flight (R253), of the admin ring or of the cache functions: fetched, with a completion that waits
(R251), or waiting on the orphan ring (R269). -/
def inFlightCount (d : Dev) (admin : Bool) : Nat :=
  (d.descs.filter (fun x => (x.fn = 0) == admin)).length
    + sumNat (d.fns.map (fun e => if (e.1 = 0) == admin then e.2.cqWait.length else 0))
    + (d.mrg.orphans.filter (fun c => (c.fn = 0) == admin)).length

/-- A function is fetched from (R253): present, enabled, set up, not in reset. -/
def fnFetchable (d : Dev) (f : Nat) : Bool := fnEnabled d f && !(getFn d f).resetting && setUp d f

/-- CFG.CLASS of a submission ring. -/
def ringClass (d : Dev) (f n : Nat) : Nat := field (sqRing d f n).cfg 16 2

/-- Rings of a function with an entry to fetch, of its highest such class. -/
def readyRings (d : Dev) (f : Nat) : List Nat :=
  let rs := (List.range 16).filter (fun n => let r := sqRing d f n; r.en && r.dev ≠ r.host)
  let top := (rs.map (ringClass d f)).foldl max 0
  rs.filter (fun n => ringClass d f n = top)

/-- The round robin of a class of rings in a function. -/
def ringTurn (d : Dev) (f cls : Nat) : Nat × Nat := Tab.get (0, 4) (getFn d f).rr cls

/-- The ring served next within a function: round robin in the class, up to 4 entries a turn. -/
def pickRing (d : Dev) (f : Nat) : Option Nat :=
  let rs := readyRings d f
  let (at_, left) := ringTurn d f (ringClass d f (rs.headD 0))
  if rs.contains at_ ∧ 0 < left then some at_
  else match rs.find? (fun n => at_ < n) with
    | some n => some n
    | none => rs.head?

/-- The function served next: weighted round robin over those with an entry ready (R253, R82). -/
def pickFn (d : Dev) : Option Nat :=
  let fs := fnNumbers.filter (fun f => fnFetchable d f && (readyRings d f) ≠ [])
  if fs.contains d.wrrFn ∧ 0 < (getFn d d.wrrFn).wrrLeft then some d.wrrFn
  else match fs.find? (fun f => d.wrrFn < f) with
    | some f => some f
    | none => fs.head?

/-- Fetch one entry of ring `n` of function `f` as a descriptor with the next handle. CADDR's bits 63:40 are reserved
and not looked at (R254). -/
def takeEntry (f n : Nat) (e : SqEntry) (sgl : SglRead) (d : Dev) : Desc × Dev :=
  let r := if f = 0 then mrgRing d 0 else sqRing d f n
  let head := (r.dev + 1) % ringSize r
  let seq := if f = 0 then 0 else (getFn d f).seqNext
  let x : Desc := {
    handle := d.nextHandle, fn := f, ring := if f = 0 then 0 else n, sqHead := head, seq
    entry := if f = 0 then e else { e with caddr := e.caddr % 2 ^ 40 }
    sgl := match sgl with
      | .ok l => l
      | _ => []
    sglErr := match sgl with
      | .ok _ => 0
      | .timeout => stReadTimeout
      | .error => stReadError
    cls := if f = 0 then 3 else field r.cfg 16 2 }
  let d := if f = 0 then setMrgRing 0 { r with dev := head } d else
    let s := getFn d f
    let cls := ringClass d f n
    let turn := ringTurn d f cls
    let left := if turn.1 = n ∧ 0 < turn.2 then turn.2 - 1 else 3
    let wl := if d.wrrFn = f ∧ 0 < s.wrrLeft then s.wrrLeft - 1 else d.adm.weight f - 1
    let d := setSqRing f n { r with dev := head } d
    let d := updFn f (fun s => { s with
      seqNext := (s.seqNext + 1) % 2 ^ 32, rr := Tab.set s.rr cls (n, left), wrrLeft := wl }) d
    countFn f 0 1 { d with wrrFn := f }
  (x, { d with nextHandle := d.nextHandle + 1, descs := d.descs ++ [x] })

/-! ### Checks (R255, R256) -/

def cacheOps : List Nat := [1, 2, 3, 4, 5, 6, 7, 16]
def adminOps : List Nat := [0x40, 0x41, 0x42, 0x43, 0x44, 0x45, 0x46, 0x47, 0x48, 0x49, 0x4A, 0x4B, 0x4C, 0x10]

/-- The opcode is one of its ring's. -/
def Desc.known (x : Desc) : Bool := (if x.fn = 0 then adminOps else cacheOps).contains x.entry.opcode

/-- Opcodes whose CADDR and PAGES name a range. -/
def usesRange (op : Nat) : Bool :=
  op = 1 || op = 2 || op = 3 || op = 4

/-- A ROM_SERVICE operation that reads: 1 to 8 read, 0x10 and 0x11 write (Table 18.9). -/
def romReads (op : Nat) : Bool := op < 0x10

def romKnown (op : Nat) : Bool := (1 ≤ op && op ≤ 8) || op = 0x10 || op = 0x11

/-- Tables 2.4 and 2.5: the status with which the present mode refuses an opcode, or none. -/
def modeRefuses (d : Dev) (x : Desc) : Option Nat :=
  let op := x.entry.opcode
  let m := d.chp.mode
  let late := m = .curtain || m = .sealed
  if x.fn ≠ 0 then
    if op = 16 then none
    else if m = .boot && d.chp.fatalBoot then some stMode
    else if op = 6 then (if late then some stMode else none)
    else if m = .boot || late then some stMode
    else if op = 1 || op = 2 || op = 3 then
      (if m = .encore || m = .reconcile then some stMode
       else if m = .service then some stMode
       else none)
    else if op = 7 then
      (if m = .encore then some stBusy
       else if m = .reconcile && !d.enc.merged && !d.enc.unmerged then some stBusy
       else none)
    else none
  else
    let settled := m = .armed || m = .derated
    if op = 16 then none
    else if m = .boot && d.chp.fatalBoot && !(op = 0x4C && romReads (field x.entry.p0 0 8)) then some stMode
    else if op = 0x40 then
      (if late then some stBusy
       else if m = .encore && !(slotKeyPending d (field x.entry.p0 0 6)) then some stBusy
       else none)
    else if op = 0x41 then (if m = .encore || late then some stBusy else none)
    else if op = 0x42 then
      (if settled then none else if m = .rehearsal then some stBusy else some stMode)
    else if op = 0x43 then
      (if settled || m = .writeThrough || m = .rehearsal then none else some stMode)
    else if op = 0x44 || op = 0x45 || op = 0x46 then (if late then some stMode else none)
    else if op = 0x47 then none
    else if op = 0x48 then
      (if settled then none else if m = .rehearsal then some stBusy else some stMode)
    else if op = 0x49 then
      (if settled || m = .writeThrough then none else if m = .rehearsal then some stBusy else some stMode)
    else if op = 0x4A || op = 0x4B then (if m = .service then none else some stMode)
    else if op = 0x4C then
      (if romReads (field x.entry.p0 0 8) then
        (if m = .boot || settled || m = .writeThrough || m = .service || late then none else some stMode)
       else if m = .service then none else some stMode)
    else none

/-- Lengths of R256; of a scatter list that could not be read there are none to look at. -/
def lengthOk (x : Desc) : Bool :=
  let e := x.entry
  let op := e.opcode
  if x.fn = 0 then true
  else if op = 1 || op = 4 then
    1 ≤ e.pages && e.pages ≤ 256 &&
      (!bit e.flags 2 || (1 ≤ e.hlen && e.hlen ≤ 256 && (x.sglErr ≠ 0
        || x.sgl.all (fun g => g.len ≠ 0 && g.len % 4 = 0) && sumNat (x.sgl.map SglEntry.len) = e.pages * pageBytes)))
  else if op = 2 || op = 3 then 1 ≤ e.pages && e.pages ≤ 256
  else if op = 7 then e.hlen ≠ 0 && e.hlen % 64 = 0 && e.hlen ≤ 16777216
  else true

/-- Alignments of R256. -/
def alignOk (x : Desc) : Bool :=
  let e := x.entry
  let op := e.opcode
  if x.fn = 0 then !([0x40, 0x41, 0x45, 0x47].contains op) || e.haddr % 4 = 0
  else if op = 1 || op = 4 then
    e.caddr % 4096 = 0 && (if bit e.flags 2 then e.haddr % 16 = 0 && x.sgl.all (fun g => g.addr % 4 = 0)
      else e.haddr % 4 = 0)
  else if op = 2 || op = 3 || (op = 5 && bit e.flags 4) then e.caddr % 4096 = 0
  else if op = 7 then e.haddr % 4 = 0
  else true

/-- A slot with which the function can be enciphered now (R255, R292). -/
def keyUsable (d : Dev) (f : Nat) : Bool :=
  match slotOf d f with
  | some s => !(getSlot d s).nonceUnknown && (getSlot d s).ctr < 2 ^ 64 - 2 ^ 32
  | none => false

/-- check(d) of R255: none when the descriptor may start. -/
def checkDesc (d : Dev) (x : Desc) : Option Nat :=
  let op := x.entry.opcode
  let ranged := x.fn ≠ 0 && usesRange op
  let b := x.block
  if !x.known
      || (x.fn = 0 && op = 0x4C && !romKnown (field x.entry.p0 0 8)) then some stOpcode
  else match modeRefuses d x with
  | some st => some st
  | none =>
    let listErr := x.fn ≠ 0 && (op = 1 || op = 4) && bit x.entry.flags 2 && x.sglErr ≠ 0
    if !lengthOk x then some stLength
    else if !alignOk x then some stAlign
    else if listErr then some x.sglErr
    else if ranged && !rangeBacked d x.entry.caddr x.bytesLen then some stWindow
    else if ranged && (getBlk d b).fenced then some stPlost
    else if ranged && (getBlk d b).heldOut then some (if op = 1 || op = 2 then stMode else stBusy)
    else if x.fn ≠ 0 && op ≠ 6 && op ≠ 16 && op ≠ 7
        && (!(getFn d x.fn).restored || (getFn d x.fn).keyPending) then
      some (if op = 1 || op = 2 then (if (getFn d x.fn).keyPending then stKey else stBusy) else stBusy)
    else if (op = 1 || op = 2) && x.fn ≠ 0 && !keyUsable d x.fn then some stKey
    else none

/-! ### Ordering (R260, R261) -/

def pageOverlap (x y : Desc) : Bool :=
  x.fn ≠ 0 && y.fn ≠ 0 && usesRange x.entry.opcode && usesRange y.entry.opcode
    && x.entry.caddr / 4096 < y.entry.caddr / 4096 + y.entry.pages
    && y.entry.caddr / 4096 < x.entry.caddr / 4096 + x.entry.pages

/-- A FENCE's scope (R261): its ring, or with ALL_RINGS every ring of its function. -/
def inScope (fence y : Desc) : Bool :=
  y.fn = fence.fn && (bit fence.entry.flags 4 || y.ring = fence.ring)

/-- An earlier-fetched descriptor that has not completed holds this one back. -/
def heldBack (d : Dev) (x : Desc) : Bool :=
  (d.descs ++ waitingDescs d).any (fun y => y.handle < x.handle && (pageOverlap x y
    || (x.fn ≠ 0 && y.fn = x.fn && y.entry.opcode = 6 && inScope y x)))

/-- HRK_XFER_STATUS. -/
def xferStatus (d : Dev) : Nat :=
  let h := d.hrk
  h.xferState % 16 * 2 ^ 28 + h.xferCause % 16 * 2 ^ 24 + boolNat h.xferSource * 2 ^ 23
    + h.xferLocal % 8 * 2 ^ 20 + h.xferPeerBlk % 8 * 2 ^ 17 + h.xferPeer % 512

/-- A transfer runs on the device. -/
def xferRuns (d : Dev) : Bool := 1 ≤ d.hrk.xferState && d.hrk.xferState ≤ 3
def xferDest (d : Dev) : Bool := xferRuns d && !d.hrk.xferSource
def xferSends (d : Dev) : Bool := xferRuns d && d.hrk.xferSource

/-- What an IMAGE_TRANSFER names: blocks, source and transfer slot. -/
def xferNamed (x : Desc) (d : Dev) : Dev :=
  { d with hrk := { d.hrk with
    xferState := 1, xferCause := 0, xferSource := false, xferPeer := field x.entry.p0 0 9
    xferPeerBlk := field x.entry.p0 16 3, xferLocal := field x.entry.p0 24 3, xferSlot := field x.entry.p0 32 6
    xferBytes := 0, xferHandle := x.handle, xferNext := 0, xferAcked := 0, xferFails := 0
    xferCrc := 0xFFFFFFFF } }

/-- A descriptor ends by a check. An IMAGE_TRANSFER that the mode refuses shows its CAUSE (Table 10.7). -/
def turnAway (x : Desc) (st : Nat) (d : Dev) : Dev :=
  if x.fn = 0 && x.entry.opcode = 0x4B && st = stMode && !xferRuns d then
    let d := xferNamed x d
    let d := { d with hrk := { d.hrk with xferState := 5, xferCause := 4 } }
    endWith x st (xferStatus d) 0 d
  else endWith x st 0 0 d

/-- Start a descriptor that nothing holds back: the checks, then `running`. -/
def startDesc (x : Desc) (d : Dev) : Dev :=
  match checkDesc d x with
  | some st => turnAway x st d
  | none => updDesc x.handle (fun y => { y with phase := .running }) d

/-- The entry names a scatter list, which is read with it. -/
def listed (e : SqEntry) : Bool := (e.opcode = 1 || e.opcode = 4) && bit e.flags 2 && e.hlen ≠ 0

/-- DESCRIPTOR_FETCH (R253, R255): the admin ring first, else the function and ring that the round
robins choose; the entry's content is what host memory held. -/
def fetchOne (e : SqEntry) (sgl : SglRead) (d : Dev) : Dev :=
  let r0 := mrgRing d 0
  if fetches d true && r0.en && r0.dev ≠ r0.host && inFlightCount d true < 16 && (getFn d 0).busMaster then
    let (x, d) := takeEntry 0 0 e sgl d
    startDesc x d
  else if fetches d false && inFlightCount d false < 2032 then
    match pickFn d with
    | none => d
    | some f =>
      match pickRing d f with
      | none => d
      | some k =>
        match (if listed e then hostFetch f e.haddr (16 * min 256 e.hlen) (sgl = .timeout) d else some d) with
        | none => d
        | some d =>
          let (x, d) := takeEntry f k e sgl d
          if heldBack d x then d else startDesc x d
  else d
def execDescriptorFetch (e : SqEntry) (sgl : SglRead) (s : State) : Answer := onDev (fetchOne e sgl) s

/-- The descriptor of a handle, started: one that was held back starts now if nothing holds it, and
one that the checks end is gone. `op` is the opcode the command carries out; a descriptor of no known opcode, which
no command carries out, is released by any (R255). -/
def begin (h : Nat) (admin : Bool) (op : Nat) (d : Dev) : Option Desc × Dev :=
  match findDesc d h with
  | none => (none, d)
  | some x =>
    if x.known && ((x.fn = 0) ≠ admin || x.entry.opcode ≠ op) then (none, d)
    else if x.phase = .running then (some x, d)
    else if x.phase ≠ .fetched || heldBack d x then (none, d)
    else
      let d := startDesc x d
      (findDesc d h, d)

/-- A command that a change of mode has overtaken ends as Table 2.5 has it end: rows 21 to 25 and learning
start only from their modes. -/
def inItsMode (x : Desc) (f : Dev → Dev) (d : Dev) : Dev :=
  match modeRefuses d x with
  | some st => turnAway x st d
  | none => f d

/-! ### Function reset, disable, enable (R267, R268) -/

def fnTrace (f st : Nat) (d : Dev) : Dev := trace 0x7006 76 (f + st * 256) 0 d

/-- The whole of a function reset (R267, steps 1 to 4): uncommitted descriptors end ABORTED_RESET;
completions that find no space go to the orphan ring; rings and vectors take their reset values. -/
def resetFn (f : Nat) (d : Dev) : Dev :=
  let was := setUp d f
  let mine := d.descs.filter (fun x => x.fn = f)
  let d := updFn f (fun s => { s with resetting := true }) d
  let d := mine.foldl (fun d x => endWith x stReset 0 0 d) d
  let d := orphanWaiting f d
  let d := updFn f (fun s => { s with
    sq := [], cq := [], msix := [], dbErrors := 0, cfgError := false, resetting := false
    rr := [], wrrLeft := 0 }) d
  let d := fnTrace f 0 (drainOrphans 2049 d)
  countsChanged (if was then dirChanged f 0 (recomputeNow d) else d)

/-- FNC_CTL_RESET (R267). -/
def execFncCtlReset (f : Nat) (s : State) : Answer :=
  onDev (fun d => if fnPresent d f then resetFn f d else d) s

/-- FUNCTION_DISABLE (R268): each fetched descriptor completes on the orphan ring. Function 0 has
only its bus master enable and power state, which touch its configuration alone (R242). -/
def disableFn (f : Nat) (c : DisableCause) (d : Dev) : Dev :=
  let d := match c with
    | .busMaster => updFn f (fun s => { s with busMaster := false }) d
    | .eptFnDisable => { d with ept := { d.ept with fnDisable := d.ept.fnDisable ||| ((1 : W64) <<< f &&& ~~~1) } }
    | .d3hot => updFn f (fun s => { s with d3hot := true }) d
  if f = 0 || !fnPresent d f then d
  else
    let mine := d.descs.filter (fun x => x.fn = f)
    let d := mine.foldl (fun d x => endWith x stDisabled 0 0 d) (orphanWaiting f d)
    fnTrace f 3 (countsChanged (recomputeNow (drainOrphans 2049 d)))
def execFunctionDisable (f : Nat) (c : DisableCause) (s : State) : Answer := onDev (disableFn f c) s

/-- FUNCTION_ENABLE (R268). PF0's bus master enable lets the management rings be written (R245). -/
def enableFn (f : Nat) (c : DisableCause) (d : Dev) : Dev :=
  let d := match c with
    | .busMaster => updFn f (fun s => { s with busMaster := true }) d
    | .eptFnDisable => { d with ept := { d.ept with fnDisable := d.ept.fnDisable &&& ~~~((1 : W64) <<< f) } }
    | .d3hot => updFn f (fun s => { s with d3hot := false }) d
  if f = 0 then drainOrphans 2049 (drainEvents 257 (drainCpls 2049 0 d))
  else if fnEnabled d f then fnTrace f 1 (recomputeNow (drainCpls 2049 f d))
  else d
def execFunctionEnable (f : Nat) (c : DisableCause) (s : State) : Answer := onDev (enableFn f c) s

end Sys2Proof.Machine
end

