-- ==== Sys2Proof/Machine/CacheOps.lean ====
section
/-!
DEFINITION. The cache-function opcodes HOLD, COMMIT, RELEASE, READ, FENCE and NOP (chapter 14), and
the device's host reads (R239 to R241).
-/

namespace Sys2Proof.Machine

/-! ### Host reads -/

/-- The host segments of a descriptor, in order, with the cache address of each (R256). -/
def segments : List SglEntry → Nat → List (Nat × Nat × Nat)
  | [], _ => []
  | g :: gs, a => (g.addr, g.len, a) :: segments gs (a + g.len)

def hostSegments (x : Desc) : List (Nat × Nat × Nat) :=
  if bit x.entry.flags 2 then segments x.sgl x.entry.caddr
  else [(x.entry.haddr, x.bytesLen, x.entry.caddr)]

def transferPieces (x : Desc) (mx : Nat) : List (Nat × Nat × Nat) :=
  (hostSegments x).flatMap (fun g => pieces g.1 g.2.1 g.2.2 mx)

/-- Relaxed ordering where the descriptor asks for it and the function allows it (R238). -/
def relaxed (d : Dev) (x : Desc) : Bool := bit x.entry.flags 1 && bit (getFn d x.fn).devCtl 4

/-- Issue a descriptor's reads while tags are free; `n` bounds the reads. -/
def issueFor (h : Nat) : Nat → Dev → Dev
  | 0, d => d
  | n + 1, d =>
    match findDesc d h, freeTag d with
    | some x, some t =>
      match x.needReads with
      | [] => d
      | (host, len, a) :: rest =>
        let d := { d with ept := { d.ept with
          tags := Tab.set d.ept.tags t { handle := h, fn := x.fn, caddr := a, len } } }
        let d := updDesc h (fun y => { y with needReads := rest }) d
        issueFor h n (count 7 1 (count 8 len (emit (.hostRead t x.fn host len (relaxed d x)) d)))
    | _, _ => d

/-- Descriptors of all functions draw tags in fetch order (R239). -/
def issueReads (d : Dev) : Dev :=
  (sortBy Desc.handle (d.descs.filter (fun x => x.needReads ≠ []))).foldl (fun d x =>
    issueFor x.handle 768 d) d

/-- Reads of a descriptor still in flight. -/
def outstanding (d : Dev) (h : Nat) : Bool :=
  d.ept.tags.any (fun e => e.2.handle = h && !e.2.quarantined && !e.2.discard)

def dropTag (t : Nat) (d : Dev) : Dev := { d with ept := { d.ept with tags := Tab.drop d.ept.tags t } }

/-- Poisoned lines wholly rewritten by a write are poisoned no longer (R22). -/
def healLines (a len : Nat) (d : Dev) : Dev :=
  { d with drc := { d.drc with poison := d.drc.poison.filter (fun l => !(a ≤ l && l + 64 ≤ a + len)) } }

/-- A descriptor with a timed-out read ends once its other reads have completed or timed out. -/
def endTimedOut (h : Nat) (d : Dev) : Dev :=
  match findDesc d h with
  | some x => if x.readError = stReadTimeout ∧ !outstanding d h then endWith x stReadTimeout 0 0 d else d
  | none => d

/-- HOST_READ_COMPLETION (R240, R241). In SERVICE nothing writes the cache DRAM (R40). -/
def readCompletion (t : Nat) (st : CplStatus) (data : List Byte) (p : Dev × List Host.Cell) :
    Dev × List Host.Cell :=
  let (d, m) := p
  let d := if linkUp d && !d.ept.tlpsCut then count 0 1 d else d
  match d.ept.tags.find? (fun e => e.1 = t) with
  | none => (if linkUp d then emit (.aer 1) d else d, m)
  | some (_, g) =>
    if g.quarantined then
      (trace 0x7004 76 t 0 { d with ept := { d.ept with late := satAdd 32 d.ept.late 1 } }, m)
    else if d.ept.tlpsCut then
      (discardTlp (dropTag t d), m)
    else if g.discard then (issueReads (dropTag t d), m)
    else match st with
    | .success =>
      let n := min g.len data.length
      if d.chp.mode = .service then
        (endTimedOut g.handle (issueReads (updDesc g.handle (fun x => { x with bytes := x.bytes + n }) (dropTag t d))), m)
      else
      let d := updDesc g.handle (fun x => { x with bytes := x.bytes + n }) (healLines g.caddr n (dropTag t d))
      (endTimedOut g.handle (issueReads d), memWriteBytes m g.caddr (data.take g.len))
    | _ =>
      let d := dropTag t (if st = .poisoned then emit (.aer 2) d else d)
      match findDesc d g.handle with
      | some x => (issueReads (endWith x stReadError 0 0 d), m)
      | none => (d, m)
def execHostReadCompletion (t : Nat) (st : CplStatus) (data : List Byte) (s : State) : Answer :=
  onBoth (readCompletion t st data) s

/-- COMPLETION_TIMEOUT (R240): reported, counted, the tag quarantined. -/
def completionTimeout (t : Nat) (d : Dev) : Dev :=
  match d.ept.tags.find? (fun e => e.1 = t) with
  | none => d
  | some (_, g) =>
    if g.quarantined then d
    else
      let d := tagTimeout t g d
      if g.discard then d
      else endTimedOut g.handle
        (updDesc g.handle (fun x => { x with readError := stReadTimeout, needReads := [] }) d)
def execCompletionTimeout (t : Nat) (s : State) : Answer := onDev (completionTimeout t) s

/-- QUARANTINE_END (R240): the tag returns to the pool. -/
def quarantineEnd (t : Nat) (d : Dev) : Dev :=
  match d.ept.tags.find? (fun e => e.1 = t) with
  | some (_, g) => if g.quarantined then issueReads (dropTag t d) else d
  | none => d
def execQuarantineEnd (t : Nat) (s : State) : Answer := onDev (quarantineEnd t) s

/-! ### Opcodes -/

/-- A range touches a granule still to be reloaded (R130). -/
def reloadPending (d : Dev) (a len : Nat) : Bool :=
  d.int.pendingGranules.any (fun g => g * 16777216 < a + len && a < (g + 1) * 16777216)

/-- A descriptor that meets such granules waits, and they move to the head of the reload order. -/
def waitReload (a len : Nat) (d : Dev) : Dev := granuleFirst a (granuleFirst (a + len - 1) d)

/-- HOLD: issue the reads of its data (R78, R239). -/
def holdStart (h : Nat) (d : Dev) : Dev :=
  match begin h false 1 d with
  | (some x, d) =>
    if reloadPending d x.entry.caddr x.bytesLen then waitReload x.entry.caddr x.bytesLen d
    else issueReads (updDesc h (fun y => { y with
      phase := .reading, needReads := transferPieces x (maxRead d x.fn) }) d)
  | (none, d) => d
def execHold (h : Nat) (s : State) : Answer := onDev (holdStart h) s

/-- A window write on the range is held until its granule is reloaded (R130). -/
def writesHeld (d : Dev) (a len : Nat) : Bool :=
  d.ept.tlpHeld.any (fun t => !t.isRead && t.caddr < a + len && a < t.caddr + t.len)

/-- COMMIT: ready at once, and tested, when every window write received before it is in the cache DRAM (R78, R257).
Of a COMMIT over a granule still to be reloaded R130 says no more: with no write held on it the model commits it, and
its pages are not reloaded, DESIGN CHOICE (log entry 163). -/
def commitStart (h : Nat) (d : Dev) : Dev :=
  match begin h false 2 d with
  | (some x, d) =>
    if writesHeld d x.entry.caddr x.bytesLen then waitReload x.entry.caddr x.bytesLen d else makeReady x d
  | (none, d) => d
def execCommit (h : Nat) (s : State) : Answer := onDev (commitStart h) s

/-- Pages of a RELEASE that it affects (R258). -/
def releasable (d : Dev) (p : Nat) : Bool := (getPage d p).kind ≠ .free

/-- Pages whose older data a note must beat at encore: those with a live record, a record in flight,
or a loss note (R163, R258). Log entry 20. -/
def needsNote (d : Dev) (p : Nat) : Bool :=
  let g := getPage d p
  g.record.isSome || g.kind = .lost || g.kind = .plost
    || (g.unstaged && d.flash.records.any (fun r => !r.written && r.runs.any (fun q => (runPageList q).contains p)))

/-- The extent that a page of a note belongs to: a lost page's is named by its newest loss note. Where
neither the index nor a note names one, the page stands for itself, DESIGN CHOICE (log entry 147). -/
def noteExtent (d : Dev) (p : Nat) : Extent :=
  let alone : Extent := {
    eid := 0, fn := (getPage d p).fn, tag := 0, caddr := pageAddr p, pages := 1, ht := 0, cls := 0, seq := 0
    hidx := 0, epochId := 0 }
  match d.exts.find? (fun x => x.eid = (getPage d p).eid) with
  | some x => x
  | none =>
    match ((d.flash.records ++ d.err.notes).reverse.flatMap (fun r => if r.kind = .lossNote then r.runs else [])).find?
        (fun q => (runPageList q).contains p) with
    | some q => { alone with tag := q.tag, caddr := q.caddr, pages := q.extPages, cls := q.cls }
    | none => alone

/-- Runs of an extent in a note: its HT is the note's, its SEQ 0 (Table 9.7). -/
def noteRunsOf (x : Extent) (ht : Nat) (ps : List Nat) : List Run := runsOf { x with ht, seq := 0 } ps false 0

/-- The runs of a release note for the pages given, extent by extent, at the release HT (R164). -/
def noteRuns (d : Dev) (ps : List Nat) (ht : Nat) : List Run :=
  (ps.map (noteExtent d)).eraseDups.flatMap (fun x => noteRunsOf x ht (ps.filter (fun p => noteExtent d p = x)))

/-- The record that carries a page's newest held data: its live record, else one in flight that stages it. -/
def pageRecord (d : Dev) (p : Nat) : Option Nat :=
  match (getPage d p).record with
  | some id => some id
  | none => (d.flash.records.find? (fun r => !r.written
      && r.runs.any (fun q => (runPageList q).contains p && stagesPage d q p))).map Rec.id

/-- RELEASE notes: without KEEP one note; with KEEP one for each record kept as clean, and one
without KEEP for lost pages (R163, R258). Answers the notes' RECORD_IDs. -/
def releaseNotes (b f ht : Nat) (ps : List Nat) (keep : Bool) (d : Dev) : List Nat × Dev :=
  let lost := ps.filter (fun p => (getPage d p).kind = .lost || (getPage d p).kind = .plost)
  let rest := ps.filter (fun p => !lost.contains p)
  let plain := if keep then lost else ps
  let recs := if keep then (rest.filterMap (pageRecord d)).eraseDups else []
  let (ids, d) := if plain = [] then ([], d) else
    let (id, d) := headOnly b b .releaseNote f (noteRuns d plain ht) ht 0 false d
    ([id], d)
  recs.foldl (fun acc r =>
    let mine := rest.filter (fun p => pageRecord acc.2 p = some r)
    let (id, d) := headOnly b b .releaseNote f (noteRuns acc.2 mine ht) ht r false acc.2
    (acc.1 ++ [id], updRec id (fun n => { n with keep := true }) d)) (ids, d)

/-- RELEASE (R258). -/
def releaseStart (h : Nat) (p : Dev × List Host.Cell) : Dev × List Host.Cell :=
  let (d, m) := p
  match begin h false 3 d with
  | (none, d) => (d, m)
  | (some x, d) =>
    if (modeRefuses d x).isSome then (inItsMode x id d, m)
    else if reloadPending d x.entry.caddr x.bytesLen then (waitReload x.entry.caddr x.bytesLen d, m)
    else
      let keep := bit x.entry.flags 4
      let ps := (pagesOf x.entry.caddr x.entry.pages).filter (releasable d)
      let (ht, d) := stamp d
      let noted := ps.filter (needsNote d)
      let (ids, d) := releaseNotes (logOf d x.block) x.fn ht noted keep d
      let gone := ps.filter (fun p => !keep || (getPage d p).kind = .lost || (getPage d p).kind = .plost)
      let kept := ps.filter (fun p => !gone.contains p)
      let d := updPages gone (fun _ => {}) d
      let d := updPages kept (fun g => { g with kind := .clean, unstaged := false }) d
      let d := prune d
      let d := countFn x.fn 8 1 (countFn x.fn 14 (ps.length * pageBytes) d)
      let d := { d with drc := { d.drc with poison := d.drc.poison.filter (fun a => !gone.contains (pageOf a)) } }
      let m := gone.foldl (fun m p => memClear m (pageAddr p) pageBytes) m
      let d := if ids = [] then endWith x stSuccess ht 0 d
        else updDesc h (fun y => { y with phase := .noted, recs := ids, result := ht }) d
      (countsChanged d, m)
def execRelease (h : Nat) (s : State) : Answer := onBoth (releaseStart h) s

/-- The status of a page's worst content, in the order of R259. -/
def pageStatus (d : Dev) (p : Nat) : Nat :=
  let g := getPage d p
  if g.kind = .lost then stLost
  else if g.kind = .plost then stPlost
  else if g.untrusted then stUntrusted
  else if d.drc.poison.any (fun a => pageOf a = p) then stPoisoned
  else stSuccess

def worstOf (sts : List Nat) : Nat :=
  if sts.contains stLost then stLost
  else if sts.contains stPlost then stPlost
  else if sts.contains stUntrusted then stUntrusted
  else if sts.contains stPoisoned then stPoisoned
  else stSuccess

/-- READ (R259): every line is written, in TLPs of the payload size; the status names the worst. -/
def readStart (h : Nat) (m : List Host.Cell) (d : Dev) : Dev :=
  match begin h false 4 d with
  | (none, d) => d
  | (some x, d) =>
    if reloadPending d x.entry.caddr x.bytesLen then waitReload x.entry.caddr x.bytesLen d
    else
      let st := worstOf ((pagesOf x.entry.caddr x.entry.pages).map (pageStatus d))
      let d := (transferPieces x (maxPayload d x.fn)).foldl (fun d g =>
        emit (.hostWrite x.fn g.1 g.2.1 ((memSlice m g.2.2 g.2.1).map (fun c => (c.1 - g.2.2, c.2)))
          (epRange d g.2.2 g.2.1) (relaxed d x)) d) d
      countFn x.fn 9 1 (endWith x st 0 x.bytesLen d)
def execRead (h : Nat) (s : State) : Answer := onDevReading (readStart h) s

/-- FENCE (R261): completes when every earlier descriptor of its scope has. -/
def fenceStart (h : Nat) (d : Dev) : Dev :=
  match begin h false 6 d with
  | (none, d) => d
  | (some x, d) =>
    if (d.descs ++ waitingDescs d).any (fun y => y.handle < x.handle && inScope x y) then d else endWith x stSuccess 0 0 d
def execFenceDescriptor (h : Nat) (s : State) : Answer := onDev (fenceStart h) s

/-- NOP (R254): completes at once with SUCCESS on any ring. -/
def nopStart (h : Nat) (d : Dev) : Dev :=
  match findDesc d h with
  | none => d
  | some x =>
    match begin h (x.fn = 0) 16 d with
    | (some x, d) => endWith x stSuccess 0 0 d
    | (none, d) => d
def execNop (h : Nat) (s : State) : Answer := onDev (nopStart h) s

end Sys2Proof.Machine
end

