-- ==== Sys2Proof/Machine/Keys.lean ====
section
/-!
DEFINITION. Key slots, the key vault and the wrap service (R286 to R294, R173), and the completion
of cipher requests (R282, R289).
-/

namespace Sys2Proof.Machine

/-- The key check value: the first 8 bytes of AES-256 of sixteen bytes 0xA5 (R173). -/
def kcvOf (key : Nat) : Nat :=
  Config.aesBlock key 0xA5A5A5A5A5A5A5A5A5A5A5A5A5A5A5A5 % 2 ^ 64

/-- The slot prefix of the nonce: CRC-32C of the 8-byte serial and the slot number (R291). The slot
number is taken as one byte. Log entry 21. -/
def slotPrefix (d : Dev) (s : Nat) : Nat := (crc32c (leBytes 8 d.board.serial ++ leBytes 1 s)).toNat

/-- Generations of a slot that a live record names; before encore has chosen the winners every
written record counts (R289, R293). -/
def genNamed (d : Dev) (s g : Nat) : Bool :=
  d.flash.records.any (fun r => r.written && r.bytes ≠ 0 && r.kind ≠ .list && r.kind ≠ .book
    && r.slot = s && r.gen = g && r.fn ≠ 0
    && (recLive d r.id || !d.enc.chosen || d.enc.unackWrites.any (fun u => u.2 = r.id)))

/-- A vault entry that stands or that the device still keeps (R173, R289). -/
def vaultKept (d : Dev) (v : Vault) : Bool :=
  v.written && v.eraseHt = 0 && ((getSlot d v.slot).bound && v.gen = (getSlot d v.slot).gen
    || genNamed d v.slot v.gen || genActive d v.slot v.gen)

/-- Kept entries of a slot other than the standing one. -/
def keptOlder (d : Dev) (s : Nat) : List Vault :=
  d.cip.vault.filter (fun v => v.slot = s && vaultKept d v
    && !((getSlot d s).bound && v.gen = (getSlot d s).gen))

/-- A function holds data (R293). -/
def holdsData (d : Dev) (f s : Nat) : Bool :=
  d.pages.any (fun e => e.2.fn = f && (e.2.kind = .held || e.2.kind = .clean))
    || d.flash.records.any (fun r => r.fn = f && r.fn ≠ 0 && r.slot = s && r.written && recLive d r.id)

/-- Generations of a slot's function that live records name, that are host-held, and whose key is not
in the slot store (R290). -/
def awaitedGens (d : Dev) (s : Nat) : List Nat :=
  let k := getSlot d s
  ((d.cip.vault.filter (fun v => v.slot = s && v.written && v.eraseHt = 0 && v.hostHeld
    && genNamed d s v.gen
    && !(v.gen = k.gen && k.loaded) && !(k.older.any (fun o => o.1 = v.gen)))).map Vault.gen).eraseDups

/-- What KEY_LOAD does with a key that passed its checks (R288, R290). -/
inductive KeyPlan where
  | refuse (status : Nat)
  | fill (gen : Nat)
  | reload
  | newGen
  deriving DecidableEq, Repr

/-- The checks of R288, in order. -/
def keyPlan (d : Dev) (s f : Nat) (key : Option Nat) : KeyPlan :=
  let k := getSlot d s
  if f ≠ 0 && !fnPresent d f then .refuse stNotFound
  else if f ≠ 0 && (List.range 64).any (fun t => t ≠ s && (getSlot d t).bound && (getSlot d t).fn = f) then
    .refuse stKey
  else if k.bound && k.fn ≠ f && k.fn ≠ 0 && holdsData d k.fn s then .refuse stKey
  else match key with
  | none => .refuse stKey
  | some key =>
    let kcv := kcvOf key
    let pend := slotKeyPending d s && k.fn = f
    let isReload := k.bound && k.fn = f && kcv = k.kcv
    let named := d.cip.vault.filter (fun v => v.slot = s && v.written && v.eraseHt = 0 && genNamed d s v.gen)
    if pend && !(named.any (fun v => v.kcv = kcv)) then .refuse stKey
    else
      let fills := if isReload || !pend then none
        else (awaitedGens d s).find? (fun g => g ≠ k.gen && named.any (fun v => v.gen = g && v.kcv = kcv))
      if !isReload && fills.isNone && (keptOlder d s).any (fun v =>
          v.kcv = kcv || v.gen = (k.gen + 1) % 256) then .refuse stKey
      else if k.oldKey.isSome || k.pending.isSome then .refuse stBusy
      else match fills with
        | some g => .fill g
        | none => if isReload then .reload else .newGen

/-- A function waits for a key: a host-held generation that its live records name has none (R290). A slot without
its standing key, which no live record names, does not hold its function back: no load could end that wait (R146,
R288). DEDUCED (log entry 168). -/
def waitsKey (d : Dev) (f : Nat) : Bool :=
  (List.range 64).any (fun s => (getSlot d s).bound && (getSlot d s).fn = f && awaitedGens d s ≠ [])

/-- A host-held function leaves key-pending once every generation that its live records name has its
key; its E4 is queued behind those whose keys came before (R145, R146). -/
def keyArrived (s : Nat) (d : Dev) : Dev :=
  let f := (getSlot d s).fn
  if (getFn d f).keyPending && !waitsKey d f then
    let n := d.enc.arrivals + 1
    dirChanged f 0 (updFn f (fun g => { g with keyPending := false, keyArrival := n })
      { d with enc := { d.enc with arrivals := n } })
  else d

/-- What reading a host buffer brings an admin descriptor (R240). -/
def hostBytes : HostData → Nat ⊕ List Byte
  | .ok bs => .inr bs
  | .timeout => .inl stReadTimeout
  | .error => .inl stReadError

/-- An admin descriptor reads `len` bytes of its buffer, then goes on with them or ends with the read's status; it
waits while no tag is free (R239). -/
def readBuffer (x : Desc) (len : Nat) (data : HostData) (go : List Byte → Dev → Dev) (d : Dev) : Dev :=
  match hostFetch 0 x.entry.haddr len (data = .timeout) d with
  | none => d
  | some d =>
    match hostBytes data with
    | .inl st => endWith x st 0 0 d
    | .inr bs => go (bs.take len) d

def addVault (v : Vault) (d : Dev) : Dev := { d with cip := { d.cip with vault := d.cip.vault ++ [v] } }

/-- The vault entry of an accepted load: of the reloaded or the new generation; for one that fills an older
generation, the standing entry again, GEN being the generation after the entry (R173). -/
def loadEntry (d : Dev) (s f kv : Nat) (hostHeld : Bool) (plan : KeyPlan) : Vault :=
  let k := getSlot d s
  let std : Vault := {
    slot := s, gen := k.gen, fn := k.fn, hostHeld := k.hostHeld, pfx := k.pfx, loadHt := d.tmb.ht, kcv := k.kcv
    wrapped := if k.hostHeld then 0 else Config.wrapKey d.board.serial k.key, eraseHt := 0 }
  match plan with
  | .fill _ | .refuse _ => std
  | .reload => { std with
      fn := f, hostHeld, pfx := slotPrefix d s, kcv := kcvOf kv
      wrapped := if hostHeld then 0 else Config.wrapKey d.board.serial kv }
  | .newGen => { std with
      gen := (k.gen + 1) % 256, fn := f, hostHeld, pfx := slotPrefix d s, kcv := kcvOf kv
      wrapped := if hostHeld then 0 else Config.wrapKey d.board.serial kv }

/-- KEY_LOAD (R288): the checks, then the vault entries; the load takes effect when they count
written. Log entry 22. -/
def keyLoad (h : Nat) (data : HostData) (d : Dev) : Dev :=
  match begin h true 0x40 d with
  | (none, d) => d
  | (some x, d) =>
    readBuffer x 40 data (fun bs d =>
      let s := field x.entry.p0 0 6
      let f := field x.entry.p0 8 6
      let key := Config.unwrapKey d.board.serial (ofBytes bs)
      let kv := key.getD 0
      match keyPlan d s f key with
      | .refuse st => endWith x st 0 0 d
      | plan =>
        updSlot s (fun k => { k with
            pending := some (h, kv), filling := match plan with | .fill g => some g | _ => none })
          (addVault (loadEntry d s f kv (bit x.entry.p0 16) plan) d)) d
def execKeyLoad (h : Nat) (data : HostData) (s : State) : Answer := onDev (keyLoad h data) s

/-- The pages and notes of a forced erase (R266): every held or clean page of the function is freed,
one release note for each run of an extent, one event for each held extent. -/
def dropExtent (s ht : Nat) (d : Dev) (x : Extent) : Dev :=
  let ps := ownPages d x
  let held := ps.any (fun p => (getPage d p).kind = .held)
  let noted := ps.filter (needsNote d)
  let d := (groupRuns noted).foldl (fun d g =>
    (headOnly (logOf d (blockOf x.caddr)) (blockOf x.caddr) .releaseNote x.fn
      (noteRunsOf x ht (pagesOf (pageAddr g.1) g.2)) ht 0 true d).2) d
  let d := updPages ps (fun _ => {}) d
  if held then postEvent 0x12 x.fn [x.caddr, x.pages, x.ht, s] d else d

def heldExtents (d : Dev) (f : Nat) : List Extent :=
  d.exts.filter (fun x => x.fn = f && (ownPages d x).any (fun p => (getPage d p).kind = .held))

/-- The function's pages cleared from DRAM when it is dropped: they read as released. -/
def dropFn (s f : Nat) (p : Dev × List Host.Cell) : Dev × List Host.Cell :=
  let (d, m) := p
  let gone := (d.pages.filter (fun e => e.2.fn = f && (e.2.kind = .held || e.2.kind = .clean))).map Prod.fst
  let (ht, d) := stamp d
  let d := (d.exts.filter (fun x => x.fn = f)).foldl (dropExtent s ht) d
  let d := { d with exts := d.exts.filter (fun x => !(x.fn = f && x.legacy)) }
  let d := prune { d with drc := { d.drc with poison := d.drc.poison.filter (fun a => !gone.contains (pageOf a)) } }
  let d := updFn f (fun g => { g with keyPending := false, restored := true }) d
  (d, gone.foldl (fun m p => memClear m (pageAddr p) pageBytes) m)

/-- Holds of the function not yet committed end REFUSED_KEY when its key goes (R293). -/
def refuseKeyHolds (f : Nat) (d : Dev) : Dev :=
  (d.descs.filter (fun x => x.fn = f && x.isHold && (x.phase = .waiting || x.phase = .staging))).foldl
    (fun d x => endWith x stKey 0 0 d) d

/-- Steps 1 and 2 of R293 for a slot. -/
def eraseSlot (h s : Nat) (d : Dev) : Dev :=
  let k := getSlot d s
  let ht := d.tmb.ht
  let d := refuseKeyHolds k.fn d
  let d := trace 0x5003 79 (s + k.gen * 256 + k.fn * 65536) k.kcv d
  let v : Vault := { slot := s, gen := k.gen, fn := k.fn, hostHeld := k.hostHeld, pfx := k.pfx, loadHt := ht
                     kcv := k.kcv, wrapped := 0, eraseHt := ht }
  let d := if slotActive d s then updSlot s (fun k => { k with erasing := true }) d else wipeSlot s d
  updSlot s (fun k => { k with pending := some (h, 0), filling := none }) (addVault v d)

/-- KEY_ERASE (R266, R293). -/
def keyErase (h : Nat) (p : Dev × List Host.Cell) : Dev × List Host.Cell :=
  let (d, m) := p
  match begin h true 0x41 d with
  | (none, d) => (d, m)
  | (some x, d) =>
    let s := field x.entry.p0 0 6
    let k := getSlot d s
    let force := bit x.entry.flags 4
    if k.pending.isSome then (endWith x stBusy 0 0 d, m)
    else if !(k.bound && k.fn ≠ 0 && holdsData d k.fn s) then (eraseSlot h s d, m)
    else if !force then (endWith x stKey 0 0 d, m)
    else
      let xs := heldExtents d k.fn
      if x.entry.hlen < 32 * xs.length then (endWith x stLength xs.length 0 d, m)
      else
        let report := xs.flatMap (fun e => listEntryBytes {
          ht := e.ht, caddr := e.caddr, pages := e.pages, fn := e.fn, unack := false, amend := false
          tag := e.tag, seq := e.seq, descId := 0, cls := e.cls })
        let (d, m) := dropFn s k.fn (d, m)
        let d := if xs = [] then d else emit (.hostWrite 0 x.entry.haddr report.length (report.zipIdx.map
          (fun e => (e.2, e.1))) false) d
        let d := updDesc h (fun y => { y with result := xs.length, bytes := 32 * xs.length }) d
        (countsChanged (dirChanged k.fn 0 (eraseSlot h s d)), m)
def execKeyErase (h : Nat) (s : State) : Answer := onBoth (keyErase h) s

/-- A slot with the generation of its written entry in force (R288, R289). -/
def takeKey (s : Nat) (v : Vault) (key : Nat) (d : Dev) : Dev :=
  let k := getSlot d s
  if k.bound && v.gen = k.gen && v.fn = k.fn then
    updSlot s (fun k => { k with loaded := true, key, hostHeld := v.hostHeld, pending := none }) d
  else
    let old := if k.loaded && genActive d s k.gen then some (k.gen, k.key) else none
    updSlot s (fun k => { k with
      bound := true, loaded := true, key, gen := v.gen, fn := v.fn, hostHeld := v.hostHeld, kcv := v.kcv
      ctr := 0, hwm := 0, pfx := v.pfx, nonceUnknown := false, oldKey := old, older := [], pending := none }) d

/-- What a load whose entries count written brings: the key of the generation it fills, or its own. -/
def loadTakes (s : Nat) (v : Vault) (key : Nat) (d : Dev) : Dev :=
  match (getSlot d s).filling with
  | some g => updSlot s (fun k => { k with older := (g, key) :: k.older, filling := none, pending := none }) d
  | none => takeKey s v key d

/-- KEY_VAULT_WRITTEN (R288, R293): the entries of a slot's load or erase count written. A command
abandoned meanwhile leaves the slot as it was (R294). -/
def vaultWritten (s : Nat) (d : Dev) : Dev :=
  match (getSlot d s).pending, d.cip.vault.find? (fun v => v.slot = s && !v.written) with
  | some (h, key), some v =>
    match findDesc d h with
    | none =>
      updSlot s (fun k => { k with pending := none, filling := none })
        { d with cip := { d.cip with vault := d.cip.vault.filter (fun v => v.written || v.slot ≠ s) } }
    | some x =>
      if (getSlot d s).erasing then d
      else
        let marked := d.cip.vault.map (fun v => if v.slot = s then { v with written := true } else v)
        if v.eraseHt ≠ 0 then
          let d := { d with cip := { d.cip with vault := marked.filter (fun w => w.slot ≠ s || w.eraseHt = v.eraseHt) } }
          endWith x stSuccess x.result x.bytes (recomputeNow (updSlot s (fun k => { k with pending := none }) d))
        else
          let d := loadTakes s v key { d with cip := { d.cip with vault := marked } }
          let d := trace 0x5001 79 (s + v.gen * 256 + v.fn * 65536) v.kcv d
          endWith x stSuccess (kcvOf key) 0 (recomputeNow (keyArrived s d))
  | _, _ => d
def execKeyVaultWritten (s : Nat) (st : State) : Answer := onDev (vaultWritten s) st

/-- CIPHER_REQUEST_DONE (R282, R289): the oldest request of a block's queue finishes. -/
def execCipherRequestDone (b : Nat) (s : State) : Answer :=
  onDev (fun d =>
    match (getBlk d b).cipherActive with
    | [] => d
    | a :: _ => cipherDone b a.1 d) s

/-! ### The wrap service (R286) -/

/-- The 32-byte value of CIP_WRAP_KEY, byte 8k + i in word k. -/
def wrapKeyValue (c : Cip) : Nat :=
  sumNat ((List.range 4).map (fun k => (Tab.get 0 c.wrapKey k).toNat * 2 ^ (64 * k)))

def isWrapKey : Reg → Bool
  | .cipWrapKey _ => true
  | _ => false

/-- The key is zeroised, a lower half written alone with it. -/
def clearWrapKey (d : Dev) : Dev :=
  { d with
    halfLatch := d.halfLatch.filter (fun e => !isWrapKey e.1)
    cip := { d.cip with wrapKey := [], wrapWritten := false } }

def wrapGo (d : Dev) : Dev :=
  if d.cip.wrapLocked then { d with cip := { d.cip with wrapStatus := 2 } }
  else
    let key := wrapKeyValue d.cip
    clearWrapKey { d with cip := { d.cip with
      wrapOut := Config.wrapKey d.board.serial key, wrapKcv := kcvOf key, wrapStatus := 1 } }
/-- WRAP_GO. -/
def execWrapGo (s : State) : Answer := onDev wrapGo s

/-- WRAP_LOCK: until the next power-on. -/
def execWrapLock (s : State) : Answer :=
  onDev (fun d => { d with cip := { d.cip with wrapLocked := true } }) s

/-- WRAP_KEY_TIMEOUT: 1 s after the last write of the key without GO. -/
def execWrapKeyTimeout (s : State) : Answer :=
  onDev (fun d => if d.cip.wrapWritten then clearWrapKey d else d) s

end Sys2Proof.Machine
end

