-- ==== Sys2Proof/Machine/Endpoint.lean ====
section
/-!
DEFINITION. The endpoint (chapter 13): window TLPs, the flip, link power, resets, host loss.
-/

namespace Sys2Proof.Machine

/-! ### Window translation (R234, R237) -/

/-- COUNT(f) and BASE(f) of EPT_WIN_FN. -/
def winCount (w : W64) : Nat := field w 32 17
def winBase (w : W64) : Nat := field w 0 16

/-- Granules of a function's window: 2^LOG2_GIB GiB in units of 16 MiB. -/
def windowGranules (d : Dev) (f : Nat) : Nat := 64 * 2 ^ Tab.get 0 d.ept.winSizeNow f

/-- An offset lies in the BAR2 of a present function (R231, R237). -/
def hitsWindow (d : Dev) (f off : Nat) : Bool := fnPresent d f && off < windowGranules d f * 16777216

/-- The cache address of a window offset under the active table, or none where it is not mapped. -/
def translate (d : Dev) (f off : Nat) : Option Nat :=
  let w := Tab.get 0 d.ept.winFnActive f
  let g := off / 16777216
  let e := Tab.get 0 d.ept.winActive (winBase w + g)
  if g < winCount w && bit e 0 then some (field e 24 16 * 16777216 + off % 16777216) else none

/-- Log a dropped TLP (R237): EPT_UNMAPPED counts writes only. -/
def noteDrop (f off cause : Nat) (isRead : Bool) (d : Dev) : Dev :=
  let w : Nat := f % 64 * 2 ^ 58 + cause * 2 ^ 55 + boolNat isRead * 2 ^ 36 + off % 2 ^ 36
  let d := { d with ept := { d.ept with
    unmappedLog := BitVec.ofNat 64 w
    unmapped := if isRead then d.ept.unmapped else satAdd 32 d.ept.unmapped 1 } }
  if isRead then d else countFn f 13 1 d

/-- A logged drop of Table 13.4, of which the function signals UR (R237). -/
def logDrop (f off cause : Nat) (isRead : Bool) (d : Dev) : Dev :=
  emit (.advisoryUr f) (noteDrop f off cause isRead d)

/-- The drop cause of Table 13.4 rows 2 to 5 that a TLP meets first, or its target address. -/
def windowTarget (d : Dev) (f off : Nat) (isRead : Bool) : Nat ⊕ Nat :=
  match translate d f off with
  | none => .inl 0
  | some a =>
    if (getFn d f).resetting then .inl 1
    else if bit d.ept.fnDisable f || (getFn d f).d3hot || !(getFn d f).restored || (d.chp.mode = .service && !isRead) then .inl 2
    else if (getBlk d (blockOf a)).fenced || (getBlk d (blockOf a)).heldOut then .inl 3
    else .inr a

/-- WINDOW_WRITE (R237). A TLP for an absent function is no window TLP; a poisoned one is reported as such
(Table 13.6). -/
def windowWrite (f off : Nat) (data : List Byte) (poisoned : Bool) (p : Dev × List Host.Cell) :
    Dev × List Host.Cell :=
  let (d, m) := p
  if d.ept.tlpsCut then (discardTlp d, m)
  else if !linkUp d || !hitsWindow d f off then (d, m)
  else
    let d := count 0 1 d
    match windowTarget d f off false with
    | .inl cause => (logDrop f off cause false d, m)
    | .inr a =>
      if poisoned then (emit (.aer 2) (noteDrop f off 0 false d), m)
      else if reloadPending d a data.length then
        (waitReload a data.length { d with ept := { d.ept with tlpHeld := d.ept.tlpHeld ++ [{
            fn := f, caddr := a, data, isRead := false, len := data.length }] } }, m)
      else (healLines a data.length (countBlk (blockOf a) 14 1 (count 2 1 d)), memWriteBytes m a data)
def execWindowWrite (f off : Nat) (data : List Byte) (poisoned : Bool) (s : State) : Answer :=
  onBoth (windowWrite f off data poisoned) s

/-- WINDOW_READ (R237). A read that the cut of R109 meets is discarded without a completion; the counters count
posted writes and completions. -/
def windowRead (f off len : Nat) (m : List Host.Cell) (d : Dev) : Dev :=
  if d.ept.tlpsCut || !linkUp d then d
  else if !hitsWindow d f off then emit (.readCompletion f .unsupported [] false) d
  else
    let d := count 0 1 d
    match windowTarget d f off true with
    | .inl 0 => emit (.readCompletion f .unsupported [] false) (logDrop f off 0 true d)
    | .inl _ => emit (.readCompletion f .unsupported [] false) (emit (.advisoryUr f) d)
    | .inr a =>
      if reloadPending d a len then
        waitReload a len { d with ept := { d.ept with tlpHeld := d.ept.tlpHeld ++ [{
            fn := f, caddr := a, data := [], isRead := true, len }] } }
      else emit (.readCompletion f .success (memReadBytes m a len) (epRange d a len))
        (countBlk (blockOf a) 13 1 (count 3 1 d))
def execWindowRead (f off len : Nat) (s : State) : Answer := onDevReading (windowRead f off len) s

/-! ### The flip (R235, R236) -/

/-- FLIP: BUSY from the write until the check ends. -/
def execFlip (s : State) : Answer :=
  onDev (fun d => { d with ept := { d.ept with winBusy := true } }) s

def winRange (d : Dev) (f : Nat) : Nat × Nat :=
  let w := Tab.get 0 d.ept.winFn f
  (winBase w, winCount w)

def mappedFns (d : Dev) : List Nat :=
  fnNumbers.filter (fun f => f ≤ d.ept.fnCountNow && (winRange d f).2 ≠ 0)

def overlaps (d : Dev) (f g : Nat) : Bool :=
  let (a, n) := winRange d f
  let (b, k) := winRange d g
  a < b + k && b < a + n

/-- The first check of R235 that fails, with its index, or none. -/
def flipCheck (d : Dev) : Option (Nat × Nat) :=
  let fs := mappedFns d
  match fs.find? (fun f => 65536 < (winRange d f).1 + (winRange d f).2 || windowGranules d f < (winRange d f).2) with
  | some f => some (2, f)
  | none =>
    match fs.find? (fun f => fs.any (fun g => g < f && overlaps d f g)) with
    | some f => some (3, f)
    | none =>
      let bad := fun (e : Nat × W64) =>
        bit e.2 0 && fs.any (fun f => (winRange d f).1 ≤ e.1 && e.1 < (winRange d f).1 + (winRange d f).2)
          && !rangeBacked d (field e.2 24 16 * 16777216) 16777216
      match (sortBy Prod.fst d.ept.winEntry).find? bad with
      | some e => some (4, e.1)
      | none => none

/-- Apply a write to the shadow (WIN_ENTRY or EPT_WIN_FN). -/
def shadowWrite (w : RegWrite) (d : Dev) : Dev :=
  match w.reg with
  | .winEntry n => { d with ept := { d.ept with
      winEntry := Tab.set d.ept.winEntry n (w.value &&& 0x000000FFFF000001) } }
  | .eptWinFn f => { d with ept := { d.ept with
      winFn := Tab.set d.ept.winFn f (w.value &&& 0x0001FFFF0000FFFF) } }
  | _ => d

/-- FLIP_COMPLETE: the check ends; held shadow writes are then applied. -/
def flipComplete (d : Dev) : Dev :=
  if !d.ept.winBusy then d
  else
    let d := match flipCheck d with
      | some (r, i) => { d with ept := { d.ept with winResult := r, winErr := i, winBusy := false } }
      | none => { d with ept := { d.ept with
          winResult := 1, winErr := 0, winBusy := false, winVersion := (d.ept.winVersion + 1) % 256
          winActive := d.ept.winEntry, winFnActive := d.ept.winFn } }
    let held := d.ept.winHeld
    let d := held.foldl (fun d w => shadowWrite w d) { d with ept := { d.ept with winHeld := [] } }
    trace 0x7005 76 (d.ept.winErr * 65536 + d.ept.winResult * 4096 + d.ept.winVersion) 0 d
def execFlipComplete (s : State) : Answer := onDev flipComplete s

/-! ### Resets (R29, R244, R245) -/

/-- The endpoint island is powered (Table 1.6, R244): not in DARK, nor once the link is abandoned. -/
def endpointOn (d : Dev) : Bool := d.chp.mode ≠ .dark && d.ept.link ≠ .abandoned

def endpointReset (c : ResetCause) (d : Dev) : Dev :=
  let d := match c with
    | .perst => { d with pins := { d.pins with perstN := false } }
    | _ => d
  if !endpointOn d then d
  else
    let d := match c with
      | .perst => { d with ept := { d.ept with perst := satAdd 8 d.ept.perst 1 } }
      | .hotReset => { d with ept := { d.ept with hot := satAdd 8 d.ept.hot 1 } }
      | .linkDown => { d with ept := { d.ept with linkDown := satAdd 8 d.ept.linkDown 1 } }
    let was := min 2048 d.mrg.orphans.length
    let up := linkUp d || d.ept.hostLossState = 0
    let (host, lost) := (d.ept.hostLossState, d.ept.linkLostHt)
    let d := (d.fns.map Prod.fst).foldl (fun d f => orphanWaiting f d) d
    let d := d.descs.foldl (fun d x =>
      let c := cplOf x stReset 0 0 3 0 d.tmb.ht
      orphanCpl c (countStatus c (dropDesc x.handle d))) d
    let cut := d.ept.tlpsCut
    let torn := fnNumbers.filter (setUp d)
    let d := endpointDefaults d
    let d := (torn.filter (fun f => !setUp d f)).foldl (fun d f => dirChanged f 0 d) d
    let held := min 2048 d.mrg.orphans.length - was
    let d := { d with
      mrg := { d.mrg with orphans := d.mrg.orphans.take 2048 }
      ept := { d.ept with
        orphaned := held, tlpsCut := cut
        hostLossState := if up then 1 else host, linkLostHt := if up then d.tmb.ht else lost
        link := match c with
          | .perst => .down
          | _ => .training } }
    let code := match c with
      | .perst => 1
      | .hotReset => 2
      | .linkDown => 3
    trace 0x7002 76 code 0 d
/-- ENDPOINT_RESET (R244, R245): nothing of admission, staging or the time base changes (R29).
The functions that it tears down change in the directory (R187). -/
def execEndpointReset (c : ResetCause) (s : State) : Answer := onDev (endpointReset c) s

/-- PERST_N_RELEASE (R244): link training starts; VAUX3 must be in range for the pin to be read. -/
def execPerstNRelease (s : State) : Answer :=
  onDev (fun d =>
    let d := { d with pins := { d.pins with perstN := true } }
    if endpointOn d && d.pins.vaux3 && d.ept.link = .down then
      { d with ept := { d.ept with link := .training } } else d) s

/-- Row 11 for a planned curtain sealed with AFTER = REARM_ON_LINK, which HALT holds until the link
trains (R41, CHP_ACT.HALT). -/
def rearmOnLink (d : Dev) : Dev :=
  if d.chp.mode = .sealed && d.cur.plannedFlag && d.cur.linkKept && d.cur.after = 2
      && !d.cur.protectiveFlag && d.chp.fatalIslands = []
  then goBoot 0x18 { d with chp := { d.chp with halt := false } } else d

/-- The widths at which the link trains (R229). -/
def trainsAt (width : Nat) : Bool := width = 4 || width = 8 || width = 16

/-- LINK_TRAINED (R229, R246): the link reaches L0; host loss ends; what waits is posted. Once the cut of
R109 is over, the TLPs discarded since the last training are counted in EPT_DISCARD. -/
def linkTrained (rate width : Nat) (d : Dev) : Dev :=
  if !endpointOn d || !d.pins.perstN || !d.pins.vaux3 || d.chp.mode = .intermission || !trainsAt width then d
  else
    let cutEnds := !(d.chp.mode = .curtain || d.chp.mode = .sealed)
    let drain := d.adm.hostLossDrain
    let d := { d with
      adm := { d.adm with hostLossDrain := false }
      ept := { d.ept with
        link := .l0, rate := clamp 3 6 rate, width, lanes := width, hostLossState := 0
        discard := if cutEnds then satAdd 32 d.ept.discard d.ept.discardRun else d.ept.discard
        discardRun := if cutEnds then 0 else d.ept.discardRun
        tlpsCut := d.ept.tlpsCut && !cutEnds } }
    let d := trace 0x7001 76 2 0 d
    let d := drainOrphans 2049 (drainEvents 257 (drainCpls 2049 0 d))
    let d := fnNumbers.foldl (fun d f => drainCpls 2049 f d) d
    rearmOnLink (if drain then recomputeNow d else d)
def execLinkTrained (rate width : Nat) (s : State) : Answer := onDev (linkTrained rate width) s

/-- The lasting condition of R246: host lost, with main supply good. -/
def hostLossRow (d : Dev) : Dev :=
  if d.ept.hostLossState ≠ 2 || linkUp d then d
  else if d.ept.hostLossPolicy = 1 then
    (if d.adm.hostLossDrain then d
     else reasonsChanged { d with adm := { d.adm with hostLossDrain := true } })
  else if d.ept.hostLossPolicy = 2 && d.chp.mode.settled then
    startCurtain { cause := 0x08, linkKept := true, planned := true, after := 2 } d
  else d

/-- HOST_LOSS (R246): GRACE expires with the link down and main supply good. -/
def hostLoss (d : Dev) : Dev :=
  if linkUp d || !d.spw.good || d.ept.hostLossState ≠ 1 then d
  else hostLossRow { d with ept := { d.ept with hostLossState := 2 } }
def execHostLoss (s : State) : Answer := onDev hostLoss s

/-! ### Link power (R242) -/

/-- The link is idle (R242): no entry that a doorbell has exposed waits to be fetched, nothing is in flight, no read is
outstanding, no completion entry or event is queued. -/
def linkIdle (d : Dev) : Bool :=
  d.descs = [] && !(d.ept.tags.any (fun e => !e.2.quarantined)) && d.fns.all (fun e => e.2.cqWait = [])
    && d.mrg.orphans = [] && d.mrg.waiting = [] && !((mrgRing d 0).en && (mrgRing d 0).dev ≠ (mrgRing d 0).host)
    && !(fnNumbers.any (fun f => fnFetchable d f && (readyRings d f) ≠ []))

/-- The link carries its lanes: L0 or L0p. -/
def linkAwake (d : Dev) : Bool := linkNow d = .l0 || linkNow d = .l0p

/-- The state of L1 that the L1 PM Substates control selects: bit 2 lets ASPM take L1.2, bit 3 L1.1. The base
specification's layout, PRESUMED (log entry 34). -/
def l1State (d : Dev) : Link := if bit d.ept.l1ss 2 then .l12 else if bit d.ept.l1ss 3 then .l11 else .l1

/-- The level of CLKREQ_N: released in the L1 PM substates (R229), and while VAUX3 is away. -/
def clkreqReleased (d : Dev) : Bool := d.pins.clkreqN || linkNow d = .l11 || linkNow d = .l12

/-- The latency in µs that the LTR capability reports (Table 13.1), where the host has enabled it. -/
def ltrUs (d : Dev) : Option Nat :=
  if !bit (getFn d 0).devCtl2 10 then none else some (if linkIdle d && !linkAwake d then 100 else 10)

def l1Idle (d : Dev) : Dev :=
  if bit d.ept.linkCtl 1 && linkIdle d && linkAwake d then
    emit (.linkState (l1State d).code) (count 9 1 (trace 0x7001 76 (l1State d).code 0
      { d with ept := { d.ept with link := l1State d, l1Mark := linkTraffic d } }))
  else d
/-- L1_IDLE (R242). -/
def execL1Idle (s : State) : Answer := onDev l1Idle s

/-- L0P_INTERVAL (R242): traffic of the interval in percent of the x4 capacity. -/
def l0pInterval (pct : Nat) (d : Dev) : Dev :=
  if !bit d.ept.ctl 4 || d.ept.rate ≠ 6 || !linkAwake d then d
  else
    let w := d.ept.lanes
    let want := if 50 * w < 4 * pct then d.ept.width
      else if pct < 25 then min 4 d.ept.width
      else if pct < 50 then min 8 w
      else w
    if want = w then d
    else emit (.linkState want) (count 10 1 { d with ept := { d.ept with
      lanes := want, link := if want = d.ept.width then .l0 else .l0p } })
def execL0pInterval (pct : Nat) (s : State) : Answer := onDev (l0pInterval pct) s

end Sys2Proof.Machine
end

