-- ==== Sys2Proof/Machine/Estimator.lean ====
section
/-!
DEFINITION. Energy estimation (chapter 11): the parameter set, state of charge, rest points, probes,
available energy and its uncertainty, learning, and the charger that they share the pack with (R226,
R227).
-/

namespace Sys2Proof.Machine

/-! ### The descriptor and the set in force (R200, R201, R221) -/

/-- `n` bytes of a structure from an offset, little-endian. -/
def bytesAt (bs : List Byte) (off n : Nat) : Nat := ofBytes ((bs.drop off).take n)

/-- A signed byte. -/
def signed8 (v : Nat) : Int := if v % 256 < 128 then (v % 256 : Nat) else (v % 256 : Nat) - 256

def chemOf (d : Dev) : Nat := bytesAt d.pkb.desc 0x06 1
def cellsOf (d : Dev) : Nat := bytesAt d.pkb.desc 0x07 1
def packSerial (d : Dev) : Nat := bytesAt d.pkb.desc 0x08 8
def designMah (d : Dev) : Nat := bytesAt d.pkb.desc 0x10 4
def minMah (d : Dev) : Nat := bytesAt d.pkb.desc 0x14 4
def nominalMv (d : Dev) : Nat := bytesAt d.pkb.desc 0x18 2
def chargeCellMv (d : Dev) : Nat := bytesAt d.pkb.desc 0x1A 2
def disMax (d : Dev) : Nat := bytesAt d.pkb.desc 0x1E 2

/-- FLAGS of the set in force. -/
def setFlag (d : Dev) (i : Nat) : Bool :=
  match d.est.params with
  | some bs => bit (BitVec.ofNat 16 (bytesAt bs 0x2C 2)) i
  | none => false

/-- V_CELL_MIN in mV: the set's, else the descriptor's. -/
def vCellMin (d : Dev) : Nat :=
  match d.est.params with
  | some bs => bytesAt bs 0x24 2
  | none => bytesAt d.pkb.desc 0x24 2

/-- Design energy in mJ: nominal voltage × design capacity. -/
def designMj (d : Dev) : Nat := nominalMv d * designMah d * 36 / 10

/-- A table entry of the set in force, or of the default profile where its flag is clear. -/
def tableEntry (d : Dev) (flag base : Nat) (dflt : Nat → Nat → Nat → Nat) (row e : Nat) : Nat :=
  match d.est.params with
  | some bs => if setFlag d flag then bytesAt bs (base + (row * 21 + e) * 2) 2 else dflt (chemOf d) row e
  | none => dflt (chemOf d) row e

/-! ### Interpolation (R202) -/

/-- A state of charge of 1, and one step of the tables. -/
def socOne : Int := 10 ^ 15
def socStep : Int := 5 * 10 ^ 13

/-- Straight line between two values, at `f` of `n`. -/
def line (a b f n : Nat) : Nat := (a * (n - f) + b * f) / n

/-- Value of a table at temperature `t` and entry `e`, scaled. -/
def atTemp (tab : Nat → Nat → Nat) (t : Int) (e scale : Nat) : Nat :=
  let u := clamp 0 1000 (t + 400).toNat
  if u = 1000 then tab 10 e * scale else line (tab (u / 100) e * scale) (tab (u / 100 + 1) e * scale) (u % 100) 100

/-- Value of a table at temperature `t` and state `s`. -/
def atState (tab : Nat → Nat → Nat) (t s : Int) (scale : Nat) : Nat :=
  let n := (max 0 (min s socOne)).toNat
  let step := socStep.toNat
  if n / step = 20 then atTemp tab t 20 scale
  else line (atTemp tab t (n / step) scale) (atTemp tab t (n / step + 1) scale) (n % step) step

def ocvTab (d : Dev) : Nat → Nat → Nat := tableEntry d 0 0x040 Config.profileOcv
def zsTab (d : Dev) : Nat → Nat → Nat := tableEntry d 1 0x210 Config.profileZs
def zpTab (d : Dev) : Nat → Nat → Nat := tableEntry d 2 0x3E0 Config.profileZp

/-- Open-circuit voltage of a cell in nV. -/
def ocv (d : Dev) (t s : Int) : Nat := atState (ocvTab d) t s 100000

/-- Impedance of a cell in nΩ (R202). -/
def cellZ (d : Dev) (t s : Int) : Nat :=
  (atState (zsTab d) t s 10000 * d.est.zsRatio + atState (zpTab d) t s 10000 * d.est.zpRatio) / 1000

/-- The state at which a cell rests at `uv` µV: the OCV row inverted from below. -/
def invertFrom (d : Dev) (t : Int) (nv : Nat) : Nat → Nat → Int
  | 0, _ => socOne
  | n + 1, e =>
    let lo := atTemp (ocvTab d) t e 100000
    let hi := atTemp (ocvTab d) t (e + 1) 100000
    if nv ≤ lo then (e : Int) * socStep
    else if nv ≤ hi then (e : Int) * socStep + ((nv - lo : Nat) : Int) * socStep / ((hi - lo : Nat) : Int)
    else invertFrom d t nv n (e + 1)

def invertOcv (d : Dev) (t : Int) (uv : Nat) : Int := invertFrom d t (uv * 1000) 20 0

/-! ### Temperature and states (R199, R203) -/

/-- The evaluation temperature in 0.1 °C: the colder sensor, the good one less 5 °C, or −40 °C. -/
def evalTemp (d : Dev) : Int :=
  match d.est.ntc1Bad, d.est.ntc2Bad with
  | false, false => min d.est.ntc1 d.est.ntc2
  | false, true => d.est.ntc1 - 50
  | true, false => d.est.ntc2 - 50
  | true, true => -400

/-- soc of the weakest cell. -/
def weakest (e : Est) : Int :=
  match e.soc with
  | [] => 0
  | s :: rest => rest.foldl min s

/-- Days in ticks. -/
def dayTicks : Nat := 345600000000000

/-- q_used in mAh. -/
def usedMah (d : Dev) : Nat :=
  if d.est.learnedMah ≠ 0 && d.tmb.ht - d.est.learnedHt ≤ 360 * dayTicks then d.est.learnedMah else minMah d

/-- A charge in pC as a change of state of charge. -/
def socOf (d : Dev) (pc : Int) : Int := pc * 10000 / (36 * max 1 (usedMah d) : Nat)

/-! ### Available energy (R207) -/

/-- The whole square root, bit by bit from bit `n`. -/
def isqrtFrom (v : Nat) : Nat → Nat → Nat
  | 0, r => r
  | n + 1, r => isqrtFrom v n (if (r + 2 ^ n) * (r + 2 ^ n) ≤ v then r + 2 ^ n else r)
def isqrt (v : Nat) : Nat := isqrtFrom v 64 0

/-- margin(x) of R207: the least headroom over V_CELL_MIN and the loaded pack voltage, in nV. -/
def margin (d : Dev) (x : Int) : Int × Nat :=
  let t := evalTemp d
  let sk := d.est.soc.map (fun s => s - (weakest d.est - x))
  let voc := sumNat (sk.map (ocv d t))
  let rs := sumNat (sk.map (cellZ d t))
  let p := pCurtain d * 1000000
  if voc * voc < 4 * rs * p then (-1000000000, 0)
  else
    let i := if rs = 0 then p * 1000000000 / voc
      else (voc - isqrt (voc * voc - 4 * rs * p)) * 1000000000 / (2 * rs)
    let room := fun (s : Int) =>
      (ocv d t s : Int) - (i * cellZ d t s / 1000000000 : Nat) - (vCellMin d * 1000000 : Nat)
    (match sk with
      | [] => (-1000000000, 0)
      | s :: rest => ((rest.map room).foldl min (room s), voc - i * rs / 1000000000))

/-- Energy of a fall of state at a voltage, in 10⁻²⁷ J. -/
def stepEnergy (d : Dev) (fall : Int) (v : Nat) : Nat := fall.toNat * usedMah d * 3600 * v

/-- The integration of R207 from state `s` with headroom `up`, over the grid points 95 % to 0 %: energy and
cutoff state. -/
def integrate (d : Dev) : Nat → Int → Int → Nat → Nat × Int
  | 0, s, _, e => (e, s)
  | n + 1, s, up, e =>
    if s ≤ 0 then (e, 0)
    else
      let g := min (19 * socStep) ((s - 1) / socStep * socStep)
      let (m, v) := margin d g
      if 0 ≤ m then integrate d n g m (e + stepEnergy d (s - g) v)
      else
        let x := s - (s - g) * up / (up - m)
        (e + stepEnergy d (s - x) v, x)

/-- available_energy(p) of R207: E_nom in mJ and the cutoff state. -/
def availableEnergy (d : Dev) : Nat × Int :=
  let s := weakest d.est
  let (up, _) := margin d s
  if up < 0 then (0, s)
  else
    let r := integrate d 64 s up 0
    (r.1 / 10 ^ 24, r.2)

/-! ### Uncertainty (R209) -/

/-- sigma_q in 10⁻⁹. -/
def sigmaQ (d : Dev) : Nat :=
  if d.est.learnedMah = 0 then 4000000
  else min 4000000 (1000000 + 200000 * ((d.tmb.ht - d.est.learnedHt) / (30 * dayTicks)))

/-- A probe counts in band: within 5 °C of the present temperature and less than 30 days old (R206). -/
def inBand (d : Dev) (p : Probe) : Bool :=
  (p.temp - evalTemp d).natAbs ≤ 50 && d.tmb.ht - p.ht < 30 * dayTicks
def probesInBand (d : Dev) : Nat := (d.est.probes.filter (inBand d)).length

def capTerm (d : Dev) (eNom : Nat) : Nat := sigmaQ d * eNom / max 1 (designMj d)
def driftTerm (d : Dev) : Nat := 170000 * d.est.restUs / (36000000 * max 1 (designMah d))
def gainTerm (d : Dev) : Nat := 5000000 * d.est.thruPc / (36 * 10 ^ 12 * max 1 (designMah d))
def socuTerm (d : Dev) : Nat :=
  isqrt (d.est.sRest * d.est.sRest + gainTerm d * gainTerm d) + driftTerm d
def modelTerm (d : Dev) : Nat := if 8 ≤ probesInBand d then 500000 else 3000000

/-- sigma3() of R209 in mJ. -/
def sigma3 (d : Dev) (eNom : Nat) : Nat :=
  let c := capTerm d eNom
  let s := socuTerm d
  let m := modelTerm d
  3 * designMj d * isqrt (c * c + s * s + m * m) / 10 ^ 9

/-! ### Updates (R208) -/

/-- Active faults that make E_avail_cons zero (Table 12.5); in CURTAIN only SWITCH and OVERCURRENT
act. -/
def zeroFaults (d : Dev) : Bool :=
  (d.pkb.faultAct &&& (if d.chp.mode = .curtain then 0x600 else 0xE6B)) ≠ 0

/-- The estimate: E_nom, 3σ and E_avail_cons from the state as it stands. -/
def estimate (d : Dev) : Dev :=
  let (e, cut) := availableEnergy d
  let s3 := sigma3 d e
  { d with est := { d.est with
    eNom := e, socCut := cut, sigma3 := s3, design := designMj d
    capPart := capTerm d e / 10000, socuPart := socuTerm d / 10000, modelPart := modelTerm d / 10000
    eCons := if zeroFaults d then 0 else e - s3, upTemp := evalTemp d } }

/-- The pack is tracked: its first estimate has been taken and its switch is closed. -/
def tracking (d : Dev) : Bool := d.est.valid && packUsable d

/-- ZS, ZP or the ratios of two sets differ (R217). -/
def impedanceChanged (a b : Option (List Byte)) : Bool :=
  let key := fun (o : Option (List Byte)) => match o with
    | some bs =>
      let fl := bytesAt bs 0x2C 2
      (if bit (BitVec.ofNat 16 fl) 1 then (bs.drop 0x210).take 462 else [],
       if bit (BitVec.ofNat 16 fl) 2 then (bs.drop 0x3E0).take 462 else [],
       if bit (BitVec.ofNat 16 fl) 4 then (bs.drop 0x26).take 4 else [])
    | none => ([], [], [])
  decide (key a ≠ key b)

/-- The shadow replaces the set in force (R217): charge states and rest history stay. -/
def takeShadow (d : Dev) : Dev :=
  match d.est.shadow with
  | none => d
  | some bs =>
    let fl : W32 := BitVec.ofNat 32 (bytesAt bs 0x2C 2)
    let moved := impedanceChanged d.est.params (some bs)
    let ratio := fun off => if bit fl 4 then bytesAt bs off 2 else 1000
    { d with est := { d.est with
      params := some bs, shadow := none, outcome := 1, pending := 0
      learnedMah := if bit fl 3 then bytesAt bs 0x14 4 else 0
      learnedHt := if bit fl 3 then bytesAt bs 0x18 8 else 0
      probes := if moved then [] else d.est.probes
      zsRatio := if moved then ratio 0x26 else d.est.zsRatio
      zpRatio := if moved then ratio 0x28 else d.est.zpRatio
      tau := if bit fl 4 then bytesAt bs 0x2A 2 else if moved then Config.profileTau (chemOf d) else d.est.tau } }

/-- A pending commit takes effect at this update, and its command completes. -/
def applyCommit (d : Dev) : Dev :=
  if d.est.pending = 0 then d
  else
    let h := d.est.pending
    let d := estimate (takeShadow d)
    match findDesc d h with
    | some x => endWith x stSuccess d.est.paramSeq 0 d
    | none => d

def traceEstimate (d : Dev) : Dev :=
  if traceDue d.tmb.ht d.obs.estTraced d.obs.eConsTraced d.est.eCons then
    trace 0x8001 80 d.est.eCons d.est.sigma3
      { d with obs := { d.obs with estTraced := d.tmb.ht, eConsTraced := d.est.eCons } }
  else d

def estimatorUpdate (d : Dev) : Dev :=
  if !tracking d then d else energyChanged (traceEstimate (countChip 3 1 (applyCommit (estimate d))))
/-- ESTIMATOR_UPDATE (R207 to R209, R217), with the margin test of INTERMISSION (R128). -/
def execEstimatorUpdate (s : State) : Answer := onDev estimatorUpdate s

/-! ### Rest points (R204, R205) -/

/-- Rest timing runs: the current condition holds, and one of the four reasons of R205. -/
def resting (d : Dev) : Bool :=
  d.est.valid && d.est.restOk && (!d.est.everRest || 14400000000 ≤ d.est.restUs || d.est.restWindow
    || (d.est.learning && (d.est.learnPhase = 2 || d.est.learnPhase = 4)))

def leastOf : List Int → Int
  | [] => 0
  | s :: rest => rest.foldl min s

/-- The chemistry permits a correction to states of which the lowest is `s`. -/
def corrects (d : Dev) (s : Int) : Bool :=
  chemOf d = 2 || s * 100 < 15 * socOne || 90 * socOne < s * 100

/-- Slope of the weakest cell's OCV row at a state: nV for one table step. -/
def ocvSlope (d : Dev) (s : Int) : Nat :=
  let e := min 19 ((max 0 s).toNat / socStep.toNat)
  atTemp (ocvTab d) (evalTemp d) (e + 1) 100000 - atTemp (ocvTab d) (evalTemp d) e 100000

/-- s_rest at a correcting rest point, in 10⁻⁹, not below 0.0002. Where the row has no slope the spec
gives no value: a free one. -/
def restSigma (s : Int) (d : Dev) : Nat × Dev :=
  let k := ocvSlope d s
  if k = 0 then fresh d
  else (max 200000 (10 ^ 13 * usedMah d / (k * max 1 (designMah d))), d)

def restPoint (cellsUv : List Nat) (d : Dev) : Dev :=
  if !resting d then d
  else
    let soc := cellsUv.map (invertOcv d (evalTemp d))
    let low := leastOf soc
    let d := { d with est := { d.est with
      restOk := false, learnRested := true, restSoc := low
      soc := if corrects d low then soc else d.est.soc } }
    let d := if !corrects d low then d
      else
        let (sr, d) := restSigma low d
        { d with est := { d.est with
          sRest := sr, restUs := 0, thruPc := 0, restHt := d.tmb.ht, everRest := true, restDue := false
          topRest := 90 * socOne ≤ low * 100 } }
    trace 0x8002 80 (low * 10000 / socOne).toNat 0 (countChip 4 1 d)
/-- REST_POINT (R204), with each cell's 10 s mean voltage in µV. The update that it triggers (R208) is the
ESTIMATOR_UPDATE that follows: log entry 153. -/
def execRestPoint (cellsUv : List Nat) (s : State) : Answer := onDev (restPoint cellsUv) s

/-- A rest window opens: probes wait and the charger pauses. -/
def openWindow (d : Dev) : Dev :=
  { d with est := { d.est with restWindow := true, restCharge := false, probing := false, shareMa := 0 } }

/-- An LFP estimate between 15 % and 90 %. -/
def lfpMiddle (d : Dev) : Bool :=
  chemOf d = 1 && 15 * socOne ≤ weakest d.est * 100 && weakest d.est * 100 ≤ 90 * socOne

/-- What a due rest point brings under policy ALLOW: a window, after a full charge where LFP needs
it. -/
def askWindow (d : Dev) : Dev :=
  if lfpMiddle d then { d with est := { d.est with restCharge := true } } else openWindow d

def restAge (d : Dev) : Nat := d.est.restUs / 1000000

def restDue (d : Dev) : Dev :=
  if !tracking d then d
  else
    let d := postEvent 0x0F 0 [restAge d] { d with est := { d.est with restDue := true } }
    energyChanged (if bit d.est.ctl 0 then askWindow d else d)
/-- REST_DUE (R205): 72 h without a correcting rest point. -/
def execRestDue (s : State) : Answer := onDev restDue s

/-- REST_WINDOW_EXPIRY (R205): an open window closes after 30 min; 6 h after a fruitless one, it opens
again. -/
def execRestWindowExpiry (s : State) : Answer :=
  onDev (fun d =>
    if d.est.restWindow then { d with est := { d.est with restWindow := false } }
    else if tracking d && d.est.restDue && bit d.est.ctl 0 then askWindow d
    else d) s

/-! ### Probes (R206) -/

/-- A pulse may be injected now. -/
def mayProbe (d : Dev) : Bool :=
  tracking d && bit d.est.ctl 8 && !resting d && !d.est.restWindow && !d.est.learning && d.spw.good
    && !d.spw.warn && (d.pkb.faultAct &&& 0x10) = 0
    && d.chp.mode ≠ .rehearsal && d.chp.mode ≠ .curtain && d.chp.mode ≠ .intermission && d.chp.mode ≠ .sealed

/-- Pack share regulates to `ma`, or to so many tenths of the device's input current if that is less. No register holds
the input current: a free value (log entry 178). -/
def shareUpTo (ma tenths : Nat) (d : Dev) : Dev :=
  let (v, d) := fresh d
  { d with est := { d.est with shareMa := min ma (v * tenths / 10) } }

/-- PROBE_PULSE: a pulse of 0.2 C, or of 0.8 × the input current if that is less. -/
def execProbePulse (s : State) : Answer :=
  onDev (fun d => if mayProbe d then shareUpTo (designMah d / 5) 8 { d with est := { d.est with probing := true } } else d) s

/-- A quotient in 1/1,000 of a measured resistance in µΩ and a table value in nΩ; over a table value
of zero the spec gives none: a free value. -/
def quotient (measured table : Nat) (d : Dev) : Nat × Dev :=
  if table = 0 then fresh d else (measured * 1000 * 1000 / table, d)

/-- Mean of the last 8 quotients within 5 °C, limited to 0.5 to 4.0. -/
def ratioOf (qs : List Nat) : Nat :=
  let l := qs.take 8
  clamp 500 4000 (sumNat l / max 1 l.length)

def probeEnd (zs zp tauMs : Nat) (d : Dev) : Dev :=
  if !d.est.probing then d
  else
    let t := evalTemp d
    let s := weakest d.est
    let (qs, d) := quotient zs (atState (zsTab d) t s 10000) d
    let (qp, d) := quotient zp (atState (zpTab d) t s 10000) d
    let ps := { zs := qs, zp := qp, temp := t, ht := d.tmb.ht : Probe } :: d.est.probes
    let near := ps.filter (fun p => (p.temp - t).natAbs ≤ 50)
    let d := { d with est := { d.est with
      probing := false, shareMa := 0, probes := ps, tau := tauMs
      zsRatio := ratioOf (near.map Probe.zs), zpRatio := ratioOf (near.map Probe.zp) } }
    trace 0x8003 80 (d.est.zsRatio * 65536 + d.est.zpRatio) 0 (countChip 5 1 d)
/-- PROBE_PULSE_END (R206), with what the pulse measured of the weakest cell: zs and zp in µΩ, τp in
ms. A pulse cut short has ended before and measures nothing. -/
def execProbePulseEnd (zs zp tauMs : Nat) (s : State) : Answer := onDev (probeEnd zs zp tauMs) s

/-! ### The charger (R226, R227) -/

/-- Charge current limit in mA. -/
def chgLimit (d : Dev) : Nat :=
  min 4000 (min (bytesAt d.pkb.desc 0x1C 2) (100 * clamp 1 40 (field d.pkb.chgCtl 8 6)))

/-- PKB_CHG_STATUS.PAUSE: the first cause that holds. -/
def chgPause (d : Dev) : Nat :=
  if d.spw.warn || d.spw.fail then 1
  else if d.chp.mode = .intermission || d.chp.mode = .curtain || d.chp.mode = .sealed || d.chp.mode = .dark then 2
  else if evalTemp d < 10 * signed8 (descByte d.pkb 0x20) || 10 * signed8 (descByte d.pkb 0x21) < evalTemp d then 3
  else if (d.est.learning && 2 ≤ d.est.learnPhase && d.est.learnPhase ≤ 4) || d.est.restWindow then 4
  else if d.est.probing then 5
  else if !bit d.pkb.chgCtl 0 then 6
  else if (d.pkb.faultAct &&& (if d.pkb.chgRetry then 0x16FF else 0x17FF)) ≠ 0 then 7
  else 0

def charging (d : Dev) : Bool :=
  (d.pkb.chgPhase = .current || d.pkb.chgPhase = .voltage) && chgPause d = 0 && packUsable d

/-- Restart level in percent. -/
def chgRestart (d : Dev) : Nat := clamp 50 99 (field d.pkb.chgCtl 16 8)

/-- A charge is called for: below the restart level, or by a learning cycle or a rest window. -/
def chgWanted (d : Dev) : Bool :=
  weakest d.est * 100 < (chgRestart d : Int) * socOne
    || (d.est.learning && (d.est.learnPhase = 1 || d.est.learnPhase = 5) && d.pkb.chgPhase ≠ .done) || d.est.restCharge

/-- The charge ends: the pack is full. -/
def chgEnd (d : Dev) : Dev :=
  let d := { d with pkb := { d.pkb with chgPhase := .done, chgMa := 0 } }
  if d.est.restCharge then openWindow d else d

/-- The charger after a sample; a charge start breaks rest timing (R218). -/
def chgStep (s : PackReading) (d : Dev) : Dev :=
  if !tracking d then { d with pkb := { d.pkb with chgPhase := .off, chgMa := 0 } }
  else if chgPause d ≠ 0 then { d with pkb := { d.pkb with chgMa := 0 } }
  else
    let full := s.cellsUv.any (fun v => (chargeCellMv d + 20) * 1000 ≤ v)
    let low := s.chargerMa < max (designMah d / 20) 100
    let vset := cellsOf d * chargeCellMv d
    let d := { d with pkb := { d.pkb with chgMa := s.chargerMa } }
    match d.pkb.chgPhase with
    | .current =>
      let d := { d with pkb := { d.pkb with chgUs := d.pkb.chgUs + s.deltaUs } }
      if full then chgEnd d
      else if vset ≤ s.packMv then { d with pkb := { d.pkb with chgPhase := .voltage } } else d
    | .voltage =>
      let d := { d with pkb := { d.pkb with chgUs := d.pkb.chgUs + s.deltaUs } }
      if full || low then chgEnd d else d
    | _ =>
      if chgWanted d then
        { d with
          pkb := { d.pkb with chgPhase := .current, chgUs := 0 }
          est := { d.est with topRest := false, restOk := false } }
      else { d with pkb := { d.pkb with chgMa := 0 } }

/-! ### Learning (R214 to R216) -/

/-- What LEARN_START asks of the pack (R214): 10 °C to 45 °C and the floor test. -/
def learnFits (d : Dev) : Bool :=
  100 ≤ evalTemp d && evalTemp d ≤ 450
    && !((sumBlocks d).any (fun b => blkShare d b * 4 < unstagedB d b * 5))

/-- A cycle starts: with a fresh rest point at the top the top-up is passed over. Rest timing breaks and
a rest window closes (R218). -/
def startLearning (d : Dev) : Dev :=
  let first := if d.est.topRest && d.est.restUs < 3600000000 then 2 else 1
  traceLearn { d with
    est := { d.est with
      learning := true, learnPhase := first, learnResult := 0, learnCause := 0, learnRested := false
      restOk := false, restWindow := false, restCharge := false, probing := false, shareMa := 0 }
    pkb := { d.pkb with chgPhase := if d.pkb.chgPhase = .done then .off else d.pkb.chgPhase } }

def enterPhase (n : Nat) (d : Dev) : Dev :=
  traceLearn { d with
    est := { d.est with
      learnPhase := n, learnRested := false, learnPc := if n = 3 then 0 else d.est.learnPc
      learnUs := if n = 3 then 0 else d.est.learnUs, minutePc := 0, minuteUs := 0 }
    pkb := { d.pkb with chgPhase := if n = 5 then .off else d.pkb.chgPhase } }

/-- Mean discharge current of phase 3 within C/20 to C/2, in µA. -/
def rateOk (d : Dev) : Bool :=
  let mean := d.est.learnPc / (max 1 d.est.learnUs : Nat)
  (designMah d * 50 : Nat) ≤ mean && mean ≤ (designMah d * 500 : Nat)

/-- q_learned in mAh (R216). -/
def learnedNow (d : Dev) : Nat :=
  let fall := d.est.learnTopSoc - d.est.learnEndSoc
  if fall ≤ 0 then 0 else (d.est.learnPc * socOne / fall / (36 * 10 ^ 11)).toNat

/-- The end of phase 4: the result. -/
def learnResult (d : Dev) : Dev :=
  let d := { d with est := { d.est with learnEndSoc := d.est.restSoc } }
  let q := learnedNow d
  if 15 * socOne < d.est.restSoc * 100 then endLearning 9 d
  else if q * 100 < designMah d * 50 || designMah d * 110 < q * 100 then endLearning 10 d
  else
    let d := { d with est := { d.est with
      learnedMah := q, learnedHt := d.tmb.ht, learnNew := true, learnResult := 1, learnCause := 0 } }
    let d := enterPhase 5 d
    energyChanged (countChip 6 1 (postEvent 0x10 0 [learnStatus d.est] d))

def learnEnd (d : Dev) : Nat := clamp 5 15 (field d.est.learnCtl 8 8)

/-- EST_LEARN_CTL.RATE_DIV. -/
def rateDiv (d : Dev) : Nat := clamp 2 20 (field d.est.learnCtl 0 8)

def learnPhaseEnd (d : Dev) : Dev :=
  if !d.est.learning then d
  else if d.est.learnPhase = 1 then (if d.pkb.chgPhase = .done then enterPhase 2 d else d)
  else if d.est.learnPhase = 2 then
    (if !d.est.learnRested then d
     else if 90 * socOne ≤ d.est.restSoc * 100 then
       shareUpTo (designMah d / rateDiv d) 9 (enterPhase 3 { d with est := { d.est with learnTopSoc := d.est.restSoc } })
     else endLearning 9 d)
  else if d.est.learnPhase = 3 then
    (if (learnEnd d : Int) * socOne < weakest d.est * 100 then d
     else if rateOk d then enterPhase 4 { d with est := { d.est with shareMa := 0 } } else endLearning 6 d)
  else if d.est.learnPhase = 4 then (if d.est.learnRested then learnResult d else d)
  else if d.pkb.chgPhase = .done then endLearning 0 d
  else d
/-- LEARN_PHASE_END (R214, R216). -/
def execLearnPhaseEnd (s : State) : Answer := onDev learnPhaseEnd s

/-- LEARN_ABORT (R214): cause 4. -/
def execLearnAbort (s : State) : Answer := onDev (endLearning 4) s

end Sys2Proof.Machine
end

