-- ==== Sys2Proof/Machine/PackBay.lean ====
section
/-!
DEFINITION. The pack bay (chapter 12): insertion, the attention button, orderly and surprise removal,
the faults of Table 12.5, and the sample that feeds them, the charge count and the charger (R197 to
R199, R203, R228).
-/

namespace Sys2Proof.Machine

/-! ### The descriptor's checks (R221) -/

/-- A descriptor passes every check of Table 12.3. -/
def descGood (bs : List Byte) : Bool :=
  let at' := bytesAt bs
  let chem := at' 0x06 1
  let lfp := chem = 1
  256 ≤ bs.length && at' 0xFC 4 = (crc32c (bs.take 252)).toNat && at' 0x00 4 = 0x54504B44
    && at' 0x04 1 = 1
    && ((lfp && at' 0x07 1 = 4) || (chem = 2 && at' 0x07 1 = 5))
    && 500 ≤ at' 0x10 4 && at' 0x10 4 ≤ 40000
    && at' 0x10 4 ≤ 2 * at' 0x14 4 && at' 0x14 4 ≤ at' 0x10 4
    && at' 0x18 2 = (if lfp then 12800 else 12000)
    && at' 0x1A 2 ≤ (if lfp then 3650 else 2800)
    && 100 ≤ at' 0x1C 2
    && (if lfp then 0 else -30) ≤ signed8 (at' 0x20 1) && signed8 (at' 0x21 1) ≤ 55
    && (-40) ≤ signed8 (at' 0x22 1) && signed8 (at' 0x23 1) ≤ 70
    && (if lfp then 2500 else 1500) ≤ at' 0x24 2

/-- The pack voltage is in the range of Table 12.1 and of CELLS. -/
def vrangeOk (d : Dev) (mv : Nat) : Bool :=
  (if chemOf d = 1 then 10000 else 7500) ≤ mv && mv ≤ 16800
    && cellsOf d * 1000 ≤ mv && mv ≤ cellsOf d * 3800

/-- The curtain current at the cutoff voltage exceeds I_DIS_MAX, in tenths of an ampere. -/
def disExceeded (d : Dev) : Bool := disMax d * (cellsOf d * vCellMin d) < 10 * pCurtain d

/-! ### Faults (R228) -/

def faultOn (d : Dev) (n : Nat) : Bool := bit d.pkb.faultAct n

/-- A fault bit is active, or no longer. -/
def setAct (n : Nat) (on : Bool) (d : Dev) : Dev :=
  { d with pkb := { d.pkb with
    faultAct := if on then d.pkb.faultAct ||| (1#32 <<< n) else d.pkb.faultAct &&& ~~~(1#32 <<< n)
    fault := if on then d.pkb.fault ||| (1#32 <<< n) else d.pkb.fault
    held := Tab.drop d.pkb.held n, clearUs := Tab.drop d.pkb.clearUs n } }

/-- Raise a fault: both bits, the event, and E_avail_cons zero where Table 12.5 has it so; HOT ends a
probe. -/
def raisePack (n : Nat) (d : Dev) : Dev :=
  if faultOn d n then d
  else
    let d := setAct n true { d with est := { d.est with probing := d.est.probing && n ≠ 4 } }
    let d := if zeroFaults d then { d with est := { d.est with eCons := 0 } } else d
    postEvent 0x11 0 [d.pkb.faultAct.toNat] d

/-- A fault ends: the estimate is taken again. -/
def clearPack (n : Nat) (d : Dev) : Dev :=
  if !faultOn d n then d
  else
    let d := setAct n false d
    if tracking d then estimate d else d

/-- DIS_LIMIT, at insertion and when ADM_P_CURTAIN changes. -/
def disLimit (d : Dev) : Dev :=
  if d.pkb.desc = [] || !d.pkb.descOk then d
  else if disExceeded d then raisePack 11 d
  else clearPack 11 d

/-! ### Insertion (R222) -/

/-- Steps 1 to 3, with the switch open: faults that last to the next insertion end, the descriptor
and the pack voltage are checked. -/
def insertion (desc : List Byte) (mv : Nat) (d : Dev) : Dev :=
  let d := [0, 9, 10, 12].foldl (fun d n => setAct n false d) d
  let ok := descGood desc
  let d := { d with pkb := { d.pkb with
    desc := desc.take 256, descOk := ok, vPack := mv, switchClosed := false, chgPhase := .off, chgRetry := false
    chgUs := 0 } }
  let d := if ok then d else raisePack 0 d
  let d := if ok && !vrangeOk d mv then raisePack 1 d else d
  let d := disLimit d
  energyChanged (setBay .settling d)

def packSeated (d : Dev) : Dev :=
  if !d.pins.packPresN then d
  else
    let d := { d with
      pins := { d.pins with packPresN := false }
      pkb := { d.pkb with released := false } }
    if d.chp.mode = .dark then d else setBay .debouncing d
/-- PACK_SEATED (R222). In DARK only the pin is seen; the bay starts at power-on. -/
def execPackSeated (s : State) : Answer := onDev packSeated s

def presenceDetect (desc : List Byte) (mv : Nat) (d : Dev) : Dev :=
  if d.pkb.bay ≠ .debouncing || d.pins.packPresN || d.chp.mode = .dark then d
  else insertion desc mv (countChip 8 1 { d with pkb := { d.pkb with
    insertions := satAdd 8 d.pkb.insertions 1 } })
/-- PACK_PRESENCE_DETECT (R222). -/
def execPackPresenceDetect (desc : List Byte) (mv : Nat) (s : State) : Answer :=
  onDev (presenceDetect desc mv) s

/-- The first estimate (R213): every state from the resting cells, s_rest 0.10, no drift and no
throughput; rest timing starts at once, and the gauge stands at the estimate. Without a host set the default
profile is in force (R200). -/
def firstEstimate (cellsUv : List Nat) (d : Dev) : Dev :=
  let d := { d with est := { d.est with
    valid := true, soc := cellsUv.map (invertOcv d (evalTemp d)), cellUv := cellsUv
    sRest := 100000000, restUs := 0, thruPc := 0, everRest := false, restDue := false, restOk := true
    secPc := 0, secUs := 0
    tau := if d.est.params.isNone then Config.profileTau (chemOf d) else d.est.tau } }
  estimate { d with est := { d.est with gauge := weakest d.est } }

def settleExpiry (cellsUv : List Nat) (d : Dev) : Dev :=
  if d.pkb.bay ≠ .settling || d.chp.mode = .dark then d
  else if faultOn d 0 || faultOn d 1 then setBay .faultOpen d
  else
    let d := { d with pkb := { d.pkb with switchClosed := true } }
    energyChanged (traceEstimate (countChip 3 1 (firstEstimate cellsUv (setBay .inService d))))
/-- PACK_SETTLE_EXPIRY (R222, R213), with the cell voltages then read. -/
def execPackSettleExpiry (cellsUv : List Nat) (s : State) : Answer := onDev (settleExpiry cellsUv) s

/-! ### Removal (R223 to R225) -/

/-- The modes that handle the button and the removal commands (R223). -/
def bayModes (d : Dev) : Bool :=
  match d.chp.mode with
  | .boot | .encore | .reconcile | .armed | .derated | .writeThrough | .rehearsal | .service => true
  | _ => false

/-- The list and row 16 after the pack has gone from behind a closed switch (R225). -/
def removalRow (d : Dev) : Dev :=
  if d.chp.mode.admits then recompute (enterWriteThrough 0x0E 4 d) |> energyChanged
  else if d.chp.mode = .writeThrough then energyChanged (writeLists47 4 d)
  else energyChanged d

def surpriseRemoval (d : Dev) : Dev :=
  if d.pins.packPresN || !d.pkb.switchClosed then d
  else match d.chp.mode with
  | .dark => checkRetention (packGone d)
  | .curtain | .intermission | .sealed => packCollapse true d
  | _ => removalRow (packGone d)
/-- PACK_SURPRISE_REMOVAL (R225, R119, R128). -/
def execPackSurpriseRemoval (s : State) : Answer := onPower surpriseRemoval s

/-- PACK_REMOVED_SWITCH_OPEN (R225): nothing follows but the end of the bay's record. -/
def execPackRemovedSwitchOpen (s : State) : Answer :=
  onDev (fun d =>
    if d.pins.packPresN || (d.pkb.switchClosed && d.chp.mode ≠ .dark) then d else checkRetention (packGone d)) s

/-- Orderly removal starts (R224): row 16 where the mode has it, the drain elsewhere. -/
def startRemoval (d : Dev) : Dev :=
  let d := setBay .draining d
  if d.chp.mode.admits then recomputeNow (enterWriteThrough 0x0E 5 d) else d

def ignorePress (d : Dev) : Dev := { d with pkb := { d.pkb with ignored := satAdd 4 d.pkb.ignored 1 } }

/-- A press on a removable pack: the insertion sequence again, on the descriptor as it is read. -/
def reinsert (d : Dev) : Dev := insertion d.pkb.desc d.pkb.vPack d

def buttonPress (d : Dev) : Dev :=
  if d.chp.mode = .dark then d
  else if !bayModes d || d.pkb.bay = .draining then ignorePress d
  else if !bit d.pkb.ctl 0 then d
  else match d.pkb.bay with
  | .inService => setBay .window d
  | .window => setBay .inService { d with pkb := { d.pkb with cancels := satAdd 4 d.pkb.cancels 1 } }
  | .removable => reinsert d
  | .absent => d
  | _ => ignorePress d
/-- ATTENTION_BUTTON_PRESS (R223): in other modes and while the bay drains a press counts as ignored, BTN_EN or not. -/
def execAttentionButtonPress (s : State) : Answer := onDev buttonPress s

/-- ATTENTION_WINDOW_EXPIRY (R224); in a mode that handles no removal the window only ends. -/
def execAttentionWindowExpiry (s : State) : Answer :=
  onDev (fun d =>
    if d.pkb.bay ≠ .window then d
    else if bayModes d then startRemoval d
    else setBay .inService d) s

/-- PKB_REMOVE (R223). -/
def execPkbRemove (s : State) : Answer :=
  onDev (fun d => if (d.pkb.bay = .inService || d.pkb.bay = .window) && bayModes d then startRemoval d else d) s

/-- PKB_CLOSE (R223). -/
def execPkbClose (s : State) : Answer :=
  onDev (fun d => if d.pkb.bay = .removable && !d.pins.packPresN && bayModes d then reinsert d else d) s

def drainDone (d : Dev) : Dev :=
  if d.pkb.bay ≠ .draining || !bayModes d || unstagedAll d ≠ 0 then d
  else
    let d := { d with
      pkb := { d.pkb with
        switchClosed := false, orderly := satAdd 8 d.pkb.orderly 1, chgPhase := .off, chgMa := 0 }
      est := { d.est with eCons := 0, probing := false, shareMa := 0 } }
    energyChanged (setBay .removable d)
/-- ORDERLY_DRAIN_DONE (R224). -/
def execOrderlyDrainDone (s : State) : Answer := onDev drainDone s

/-! ### Charger faults by command -/

def chgTimeout (d : Dev) : Dev :=
  if d.pkb.chgPhase ≠ .current && d.pkb.chgPhase ≠ .voltage then d
  else
    let d := if d.est.learning && 2 ≤ d.est.learnPhase && d.est.learnPhase ≤ 4 then endLearning 2 d else d
    energyChanged (raisePack 12 { d with pkb := { d.pkb with chgPhase := .off, chgMa := 0 } })
/-- CHG_TIMEOUT (R226, bit 12 of Table 12.5). -/
def execChgTimeout (s : State) : Answer := onDev chgTimeout s

def faultClear (mask : W32) (d : Dev) : Dev :=
  let d := { d with pkb := { d.pkb with fault := d.pkb.fault &&& ~~~mask } }
  if bit mask 12 && faultOn d 12 then energyChanged (setAct 12 false { d with pkb := { d.pkb with chgUs := 0 } })
  else d
/-- PKB_FAULT_CLEAR (R228). -/
def execPkbFaultClear (mask : W32) (s : State) : Answer := onDev (faultClear mask) s

/-! ### PACK_SAMPLE -/

/-- A sensor fails (R199): out of range, or apart from the other by more than 15 °C after a jump of
its own of more than 5 °C within 1 s; the latter lasts while they stand apart. -/
def sensorBad (bad read : Bool) (now other last : Int) (us : Nat) : Bool :=
  let apart := decide (150 < (now - other).natAbs)
  now < -500 || 1000 < now
    || (apart && (bad || (read && us ≤ 1000000 && decide (50 < (now - last).natAbs))))

/-- The sample's readings are taken in. -/
def readSensors (s : PackReading) (d : Dev) : Dev :=
  let e := d.est
  { d with
    est := { e with
      ntc1Bad := sensorBad e.ntc1Bad e.ntcRead s.ntc1 s.ntc2 e.ntc1 s.deltaUs
      ntc2Bad := sensorBad e.ntc2Bad e.ntcRead s.ntc2 s.ntc1 e.ntc2 s.deltaUs
      ntc1 := s.ntc1, ntc2 := s.ntc2, ntcRead := true, cellUv := s.cellsUv }
    pkb := { d.pkb with vPack := s.packMv } }

/-- Every cell from 0.5 V to 4.5 V, and their sum within 2 % of the pack voltage (R199). -/
def tapsOk (s : PackReading) : Bool :=
  let sum := sumNat s.cellsUv
  let pack := s.packMv * 1000
  s.cellsUv.all (fun v => 500000 ≤ v && v ≤ 4500000)
    && decide ((max sum pack - min sum pack) * 100 ≤ 2 * pack)

/-- The charge that a sample carries moves every cell's state, the throughput, the drift clock, the
learning discharge and the means (R203, R204, R209, R216). -/
def countCharge (s : PackReading) (d : Dev) : Dev :=
  let pc := (s.currentUa - d.est.offset) * s.deltaUs
  let e := d.est
  let discharge := e.learning && e.learnPhase = 3
  { d with est := { e with
    soc := e.soc.map (fun x => x - socOf d pc)
    thruPc := e.thruPc + pc.natAbs, restUs := e.restUs + s.deltaUs
    secPc := e.secPc + pc, secUs := e.secUs + s.deltaUs
    learnPc := if discharge then e.learnPc + pc else e.learnPc
    learnUs := if discharge then e.learnUs + s.deltaUs else e.learnUs
    minutePc := if discharge then e.minutePc + pc else 0
    minuteUs := if discharge then e.minuteUs + s.deltaUs else 0 } }

/-- The gauge moves toward EST_SOC by at most 0.5 % a minute (R212). -/
def moveGauge (us : Nat) (d : Dev) : Dev :=
  let room : Int := socOne / 200 * us / 60000000
  let gap := weakest d.est - d.est.gauge
  { d with est := { d.est with gauge := d.est.gauge + max (-room) (min room gap) } }

/-- A full second: its mean, and the current condition of R204, which pack share breaks (R218). -/
def endSecond (d : Dev) : Dev :=
  if d.est.secUs < 1000000 then d
  else
    let mean := d.est.secPc / (d.est.secUs : Nat)
    let quiet := decide (mean.natAbs ≤ 2 * designMah d) && !packShares d
    { d with est := { d.est with secPc := 0, secUs := 0, iMean := mean, restOk := quiet } }

/-- A full minute of the learning discharge above C/2 ends the cycle (R214). -/
def endMinute (d : Dev) : Dev :=
  if d.est.minuteUs < 60000000 then d
  else
    let mean := d.est.minutePc / (d.est.minuteUs : Nat)
    let d := { d with est := { d.est with minutePc := 0, minuteUs := 0 } }
    if (designMah d * 500 : Nat) < mean then endLearning 6 d else d

/-- Microseconds for which a condition has now held. -/
def holdFor (on : Bool) (n us : Nat) (t : Tab Nat) : Tab Nat :=
  if on then Tab.upd 0 t n (· + us) else Tab.drop t n

/-- A fault with its detection and its clearing conditions and their times in µs. -/
def timedFault (n : Nat) (on : Bool) (onUs : Nat) (off : Bool) (offUs us : Nat) (d : Dev) : Dev :=
  let d := { d with pkb := { d.pkb with
    held := holdFor (on && !faultOn d n) n us d.pkb.held
    clearUs := holdFor (off && faultOn d n) n us d.pkb.clearUs } }
  if on && !faultOn d n && onUs ≤ Tab.get 0 d.pkb.held n then raisePack n d
  else if off && faultOn d n && offUs ≤ Tab.get 0 d.pkb.clearUs n then clearPack n d
  else d

/-- The charger's output stands outside ±10 % of its setting: the current limit, or the charge
voltage. -/
def chgOff (s : PackReading) (d : Dev) : Bool :=
  let off := fun (v set : Nat) => decide (v * 10 < set * 9) || decide (set * 11 < v * 10)
  match d.pkb.chgPhase with
  | .current => off s.chargerMa (chgLimit d)
  | .voltage => off s.packMv (cellsOf d * chargeCellMv d)
  | _ => false

/-- The switch opens under a fault that calls for it; the supply's part follows as for a removal
(R225, R119, R128). -/
def openSwitch (surprise : Bool) (d : Dev) : Dev :=
  let d := setBay .faultOpen { d with
    pkb := { d.pkb with switchClosed := false, chgPhase := .off, chgMa := 0 }
    est := { d.est with eCons := 0, probing := false, shareMa := 0 } }
  let d := if surprise then clearEstimator { d with pkb := { d.pkb with surprise := satAdd 8 d.pkb.surprise 1 } } else d
  match d.chp.mode with
  | .curtain | .sealed | .intermission => packCollapse false d
  | _ => if surprise then removalRow d else energyChanged d

/-- The bits of Table 12.5 that a sample can raise or clear while the switch keeps its state. -/
def sampleFaults (s : PackReading) (d : Dev) : Dev :=
  let us := s.deltaUs
  let t := evalTemp d
  let hotAt := 10 * signed8 (descByte d.pkb 0x23)
  let coldAt := 10 * signed8 (descByte d.pkb 0x22)
  let ov := s.cellsUv.any (fun v => (chargeCellMv d + 50) * 1000 < v)
  let ovClear := s.cellsUv.all (fun v => v < (chargeCellMv d + 50) * 1000)
  let uv := s.cellsUv.any (fun v => v < vCellMin d * 1000)
  let uvClear := s.cellsUv.all (fun v => vCellMin d * 1000 < v)
  let ntc := d.est.ntc1Bad && d.est.ntc2Bad
  let d := timedFault 1 (!vrangeOk d s.packMv) 0 (vrangeOk d s.packMv) 10000000 us d
  let d := timedFault 2 ov 0 ovClear 10000000 us d
  let d := timedFault 3 (uv && d.chp.mode ≠ .curtain) 0 uvClear 10000000 us d
  let d := timedFault 4 (hotAt < t) 0 (t ≤ hotAt - 50) 60000000 us d
  let d := timedFault 5 (t < coldAt) 0 (coldAt + 20 ≤ t) 60000000 us d
  let d := timedFault 6 (!tapsOk s) 0 (tapsOk s) 10000000 us d
  let d := timedFault 7 ntc 0 (!ntc) 0 us d
  let off := charging d && chgOff s d
  let d := { d with pkb := { d.pkb with chgRetry := d.pkb.chgRetry && faultOn d 8 && !off } }
  timedFault 8 off 1000000 (charging d && d.pkb.chgRetry) 60000000 us d

/-- What a sample ends in a learning cycle (R214, Table 12.5). -/
def sampleLearning (d : Dev) : Dev :=
  if !d.est.learning then d
  else if faultOn d 6 || d.est.ntc1Bad || d.est.ntc2Bad then endLearning 8 d
  else if faultOn d 8 || faultOn d 12 then endLearning 2 d
  else if faultOn d 4 || evalTemp d < 100 || 450 < evalTemp d then endLearning 5 d
  else d

/-- The discharge current that OVERCURRENT judges, in µA. -/
def overLimit (s : PackReading) (d : Dev) : Bool := ((disMax d * 100000 : Nat) : Int) < s.currentUa - d.est.offset
def overRange (s : PackReading) (d : Dev) : Bool := decide (60000000 < (s.currentUa - d.est.offset).natAbs)

/-- Faults that open the switch: SWITCH after 1 ms, OVERCURRENT after 10 ms or at once beyond the
range. -/
def switchFaults (s : PackReading) (d : Dev) : Dev :=
  let was9 := faultOn d 9
  let was10 := faultOn d 10
  let d := timedFault 9 (!s.switchAgrees) 1000 false 0 s.deltaUs d
  let d := if d.pkb.switchClosed then
      timedFault 10 (overLimit s d || overRange s d) (if overRange s d then 0 else 10000) false 0 s.deltaUs d
    else d
  if faultOn d 10 && !was10 then openSwitch true d
  else if faultOn d 9 && !was9 then openSwitch false d
  else d

/-- Charge put into the pack, counted by the mAh (counter 7 of Table 20.3). -/
def countCharger (s : PackReading) (d : Dev) : Dev :=
  let pc := d.pkb.chgPc + (if charging d then s.chargerMa * s.deltaUs * 1000 else 0)
  countChip 7 (pc / 3600000000000) { d with pkb := { d.pkb with chgPc := pc % 3600000000000 } }

/-- Estimator updates that a sample brings (R208): a change of 1 °C, or of a sensor or tap fault; a pending
commit is taken with it (R217). A pause or resume by a charger fault recomputes the budget (R227). -/
def sampleUpdate (before d : Dev) : Dev :=
  let faults := before.pkb.faultAct ≠ d.pkb.faultAct || decide ((chgPause before = 7) ≠ (chgPause d = 7))
  let sensors := before.est.ntc1Bad ≠ d.est.ntc1Bad || before.est.ntc2Bad ≠ d.est.ntc2Bad
  if tracking d && (sensors || faults || decide (10 ≤ (evalTemp d - d.est.upTemp).natAbs)) then
    energyChanged (traceEstimate (countChip 3 1 (applyCommit (estimate d))))
  else if faults then energyChanged d
  else d

def packSample (s : PackReading) (d : Dev) : Dev :=
  if d.pins.packPresN || d.chp.mode = .dark || d.pkb.bay = .absent || d.pkb.bay = .debouncing then d
  else
    let d0 := d
    let d := readSensors s d
    let d := if !d.pkb.switchClosed then { d with est := { d.est with offset := s.currentUa } }
      else if d.est.valid then endMinute (endSecond (moveGauge s.deltaUs (countCharge s d)))
      else d
    if !d.pkb.descOk then switchFaults s d
    else
      let d := sampleUpdate d0 (sampleLearning (sampleFaults s d))
      switchFaults s (chgStep s (countCharger s d))
/-- PACK_SAMPLE (R197 to R199, R203, R226 to R228). -/
def execPackSample (r : PackReading) (s : State) : Answer := onPower (packSample r) s

end Sys2Proof.Machine
end

