-- ==== Sys2Proof/Machine/Rehearsal.lean ====
section
/-!
DEFINITION. Rehearsal (R38, R39, R71, R73, R186): its guard, its bursts, its end, the slot of the lead,
and the return of e_byte to the data-sheet value.
-/

namespace Sys2Proof.Machine

/-- The smallest rate_b of the populated unfenced blocks, in kB/s. -/
def leastRate (d : Dev) : Nat :=
  match (sumBlocks d).map (rateB d) with
  | [] => 0
  | r :: rest => rest.foldl min r

/-- The bytes of budget that a rehearsal's projected energy stands for (R38): ADM_P_CURTAIN × t_reh ÷
e_byte; none where a block cannot stream. -/
def rehBytes (d : Dev) : Option Nat :=
  let r := leastRate d
  if r = 0 || d.adm.eByteFj = 0 then none
  else some (pCurtain d * gib * 10 * 10 ^ 12 / (r * 1000 * d.adm.eByteFj))

/-- The parts of the guard of R38 that answer BUSY. -/
def rehReady (d : Dev) : Bool := !d.est.learning && !d.spw.warn && areaErased d

/-- The parts of the guard that answer REFUSED_ENERGY. -/
def rehFits (d : Dev) : Bool :=
  packUsable d && match rehBytes d with
    | some n => n + unstagedAll d ≤ d.adm.budget
    | none => false

/-- Row 22: a probe pulse ends (R48), pack share breaks the rest (R218), copies of compaction not yet verified are
given up (R99) where cleaning's only wait (R48), and the change of mode recomputes the budget (R75). The test records have an ephemeral random key. -/
def startRehearsal (handle : Nat) (fromSlot : Bool) (d : Dev) : Dev :=
  let (key, d) := fresh (abandonCompaction { d with est := { d.est with probing := false, shareMa := 0, restOk := false } })
  recomputeNow (transition .rehearsal 0x13 { d with
    reh := { d.reh with
      handle, key, written := [], burstBytes := 0, burstUj := 0, burstRate := 0 }
    chp := { d.chp with rehearsePend := d.chp.rehearsePend && !fromSlot } })

def rehearse (h : Nat) (d : Dev) : Dev :=
  match begin h true 0x42 d with
  | (none, d) => d
  | (some x, d) =>
    if d.chp.mode = .rehearsal && d.reh.handle = h then d
    else inItsMode x (fun d =>
      if !rehReady d then endWith x stBusy 0 0 d
      else if !rehFits d then endWith x stEnergy 0 0 d
      else startRehearsal h false d) d
/-- REHEARSE (R38, Table 14.6). -/
def execRehearse (h : Nat) (s : State) : Answer := onDev (rehearse h) s

/-- The modes from which row 22 is taken. -/
def rehModes (d : Dev) : Bool := d.chp.mode = .armed || d.chp.mode = .derated

/-- REH_SLOT at the device (R186): row 22, or REHEARSE_PEND. -/
def rehSlot (d : Dev) : Dev :=
  if rehModes d && rehReady d && rehFits d then startRehearsal 0 true d
  else { d with chp := { d.chp with rehearsePend := true } }
/-- REH_SLOT (R182, R186): its payload is the slot's HT. -/
def execRehSlot (f : Received Nat) (s : State) : Answer :=
  onDev (receive f.head 7 (leBytes 8 f.body) rehSlot) s

/-- REHEARSAL_PENDING_START (R38): a deferred slot starts once the guard is met. -/
def execRehearsalPendingStart (s : State) : Answer :=
  onDev (fun d => if d.chp.rehearsePend && rehModes d && rehReady d && rehFits d
    then startRehearsal 0 true d else d) s

/-- What block `b` still has to write of its 1 GiB test image. -/
def testLeft (d : Dev) (b : Nat) : Nat := gib - Tab.get 0 d.reh.written b

/-- What block `b` writes in one burst of 1 ms at its rate_b. -/
def burstBytes (d : Dev) (b : Nat) : Nat := min (testLeft d b) (rateB d b)

/-- The blocks that stream: populated, unfenced, with their image unfinished. -/
def testBlocks (d : Dev) : List Nat := (sumBlocks d).filter (fun b => 0 < burstBytes d b)

/-- Test records of a block: the spec gives no size, the model cuts the image in 4 MiB each. DESIGN CHOICE (log
entry 167). -/
def testPieces (bytes : Nat) : Nat := (bytes + 4 * mib - 1) / (4 * mib)

/-- Place of test record `i` of a block in the rehearsal area, units 338 and 339 (Table 18.2): cells in turn, then
live targets, three records a unit. Log entry 15. -/
def testPlace (d : Dev) (b i : Nat) : Nat × Nat × Nat × Nat :=
  let cs := workingCells d b
  let c := cs.getD (i % cs.length) (8 * b)
  let ts := (List.range 8).filter (fun t => !(getCell d c).deadTargets.contains t)
  let j := i / cs.length
  let n := j / ts.length
  (c, ts.getD (j % ts.length) 0, 338 + n / 3 % 2, 4 + 64 * (n % 3))

/-- A block starts its test record `i` (R163, R167): enciphered with the rehearsal's own key under SLOT 0 and
SLOT_GEN 0, and never restored. The key stands in no slot: the model takes NONCE_PREFIX 0 and the counter
8 × record + block, which no two records of one rehearsal share. DESIGN CHOICE (log entry 166). -/
def startTest (b : Nat) (d : Dev) (i : Nat) : Dev :=
  let p := testPlace d b i
  let (id, d) := newId b d
  addRec {
    id, block := b, home := b, kind := .test, epochId := d.tmb.epochId, hidx := d.hrk.index, inv := 8 * i + b, bytes := 4 * mib
    cell := p.1, target := p.2.1, position := p.2.2.1, segment := p.2.2.2, ckey := d.reh.key
    firstHt := d.tmb.ht, lastHt := d.tmb.ht } d

/-- What block `b` has written of its image grows to `now` bytes: records begin, and those filled count
written, their heads in two journals (R161). -/
def writeTest (b was now : Nat) (d : Dev) : Dev :=
  let d := ((List.range (testPieces now)).drop (testPieces was)).foldl (startTest b) d
  let open_ := d.flash.records.filter (fun r => r.kind = .test && r.block = b && !r.written)
  let full := open_.take (open_.length - boolNat (now % (4 * mib) ≠ 0))
  full.foldl (fun d r => journalBoth r.cell r.id (updRec r.id (fun r => { r with written := true, writeHt := d.tmb.ht }) d)) d

/-- One burst, with the pack energy delivered in it; a burst that a port in panic interrupts is left out
of the sums (R73). The burst rate is the sum of every block's rate_b. -/
def burst (uj : Nat) (panic : Bool) (d : Dev) : Dev :=
  if d.chp.mode ≠ .rehearsal || d.est.restWindow then d
  else
    let bs := testBlocks d
    let n := sumNat (bs.map (burstBytes d))
    let e := bs.foldl (fun e b =>
      writeTest b (Tab.get 0 d.reh.written b) (Tab.get 0 d.reh.written b + burstBytes d b) e) d
    let w := bs.foldl (fun t b => Tab.upd 0 t b (· + burstBytes d b)) d.reh.written
    { e with reh := { e.reh with
      written := w
      burstBytes := if panic then d.reh.burstBytes else d.reh.burstBytes + n
      burstUj := if panic then d.reh.burstUj else d.reh.burstUj + uj
      burstRate := if panic || bs = [] then d.reh.burstRate else rateSum d / 1000 } }
/-- REHEARSAL_BURST (R73); a rest window pauses pack share (R205). -/
def execRehearsalBurst (uj : Nat) (panic : Bool) (s : State) : Answer := onDev (burst uj panic) s

/-- Measured energy per byte in fJ/B. With every burst left out, nothing was measured: a free value. -/
def measured (d : Dev) : Nat × Dev :=
  if d.reh.burstBytes = 0 then fresh d else (d.reh.burstUj * 10 ^ 9 / d.reh.burstBytes, d)

def burstRateOf (d : Dev) : Nat × Dev :=
  if d.reh.burstBytes = 0 then fresh d else (d.reh.burstRate, d)

/-- Row 23: e_byte and rate_ref take the measurement (R71), which the service area keeps with the
population and the modules it was made with. -/
def rehComplete (d : Dev) : Dev :=
  if d.chp.mode ≠ .rehearsal || testBlocks d ≠ [] then d
  else
    let (fj, d) := measured d
    let (rate, d) := burstRateOf d
    let e := fj * 103 / 100
    let h := d.reh.handle
    let d := soilArea d
    let d := { d with
      adm := { d.adm with eByteFj := e, rateRef := rate, eByteMeasured := true }
      reh := { d.reh with
        written := [], handle := 0, key := 0, lastHt := d.tmb.ht, storedEByte := some (e, rate)
        storedPop := d.board.blocks, storedModules := modulesFound d } }
    let d := countChip 16 1 (disLimit (recompute d))
    let d := match findDesc d h with
      | some x => endWith x stSuccess fj 0 d
      | none => d
    reevaluate false (enterSettled 0x14 d)
/-- REHEARSAL_COMPLETE (R71, R73, row 23): every block has written its test image. -/
def execRehearsalComplete (s : State) : Answer := onDev rehComplete s

/-- EBYTE_RESET (R71): the data-sheet value × 1.2 and the full-population rate; the kept values go with
them. -/
def ebyteReset (d : Dev) : Dev :=
  let n := d.board.blocks
  let d := { d with
    adm := { d.adm with eByteFj := dsEByte n * 12 / 10, rateRef := dsRate n, eByteMeasured := false }
    reh := { d.reh with storedEByte := none } }
  energyChanged (disLimit d)
def execEbyteReset (s : State) : Answer := onDev ebyteReset s

end Sys2Proof.Machine
end

