-- ==== Sys2Proof/Machine/AdminOps.lean ====
section
/-!
DEFINITION. Admin commands (Table 14.6) but for keys, rehearsal, transfer and ROM service: planned
curtain, function reset, parameter sets, learning, SERVICE entry and exit (R40, R41, R217), and the
recomputation and record commands with which an entry to SERVICE proceeds.
-/

namespace Sys2Proof.Machine

/-! ### SERVICE_ENTER (R40) -/

/-- A WRITE_THROUGH hold is being staged. -/
def anyStaging (d : Dev) : Bool := d.descs.any (fun x => x.phase = .staging)

/-- A HOLD, COMMIT or RELEASE under way that has not taken effect. -/
def openOp (x : Desc) : Bool :=
  x.phase = .waiting || (x.fn ≠ 0 && (x.entry.opcode = 1 || x.entry.opcode = 2 || x.entry.opcode = 3)
    && (x.phase = .reading || x.phase = .running))

/-- Row 24: waiting holds end with REFUSED_MODE, as does every HOLD whose data is not all in, which nothing may write
into the cache DRAM from here on, and a COMMIT or RELEASE that waits for a reload; the books are sealed with REASON 2, and SERVICE is
entered. -/
def enterService (x : Desc) (drained : Nat) (d : Dev) : Dev :=
  let d := (d.descs.filter openOp).foldl (fun d y => if y.isHold then refuse y stMode d else endWith y stMode 0 0 d) d
  let c := d.cur
  let d := sealBooks 2 { d with cur := { c with
    msHt := [], lists := [], bytes := 0, saved := 0, lost := 0, energyMj := 0, unackDropped := 0
    unackSaved := 0 } }
  let d := { d with
    cur := { c with sealHt := d.cur.sealHt }
    svc := {} }
  endWith x stSuccess drained 0 (recomputeNow (transition .service 0x16 d))

/-- A SERVICE_ENTER with DRAIN completes once everything is staged, from a mode of row 24. -/
def serviceReady (d : Dev) : Dev :=
  if d.svc.entering = 0 || unstagedAll d ≠ 0 || anyStaging d
      || !(d.chp.mode.settled) then d
  else match findDesc d d.svc.entering with
    | some x => enterService x d.svc.drainedStart d
    | none => { d with svc := {} }

def serviceEnter (h : Nat) (d : Dev) : Dev :=
  match begin h true 0x49 d with
  | (none, d) => d
  | (some x, d) =>
    if d.svc.entering = h then serviceReady d
    else inItsMode x (fun d =>
      if d.svc.entering ≠ 0 then endWith x stBusy 0 0 d
      else if bit x.entry.flags 4 then
        serviceReady { d with svc := { d.svc with
          entering := h, drain := true, drainedStart := unstagedAll d } }
      else if unstagedAll d ≠ 0 || anyStaging d then endWith x stBusy 0 0 d
      else enterService x 0 d) d
/-- SERVICE_ENTER (R40). -/
def execServiceEnter (h : Nat) (s : State) : Answer := onDev (serviceEnter h) s

/-- RECORD_COUNTED_WRITTEN (R20). -/
def execRecordCountedWritten (id : Nat) (s : State) : Answer :=
  onDev (fun d => serviceReady (recordWritten id d)) s

/-- ADMISSION_RECOMPUTE (R75), and the host-loss row that a mode reached meanwhile takes (R246). -/
def execAdmissionRecompute (cadence : Bool) (s : State) : Answer :=
  onDev (fun d => serviceReady (hostLossRow (admissionRecompute cadence d))) s

/-! ### SERVICE_EXIT (R40, R191, R297) -/

/-- Row 25: with REBOOT, after a transfer and with a changed address map to BOOT, else to the settled
mode. The DRAM content is kept for a short encore but after a transfer or a map change. -/
def leaveService (reboot : Bool) (d : Dev) : Dev :=
  let moved := d.drc.mapNext ≠ d.drc.mapNow
  let keep := !moved && !d.svc.xferDone && !xferDest d
  if reboot || !keep then
    goBoot 0x17 (enterSelfRefresh { d with
      chp := { d.chp with sealRetained := keep }
      drc := { d.drc with mapNow := d.drc.mapNext }
      svc := {} })
  else reevaluate false (enterSettled 0x17 (recompute { d with svc := {} }))

def serviceExit (h : Nat) (d : Dev) : Dev :=
  match begin h true 0x4A d with
  | (none, d) => d
  | (some x, d) => inItsMode x (fun d => leaveService (bit x.entry.flags 4) (endWith x stSuccess 0 0 d)) d
/-- SERVICE_EXIT: the completion is written before the mode changes. -/
def execServiceExit (h : Nat) (s : State) : Answer := onDev (serviceExit h) s

/-! ### PLANNED_CURTAIN (R41), FN_RESET (R267) -/

def plannedCurtain (h : Nat) (d : Dev) : Dev :=
  match begin h true 0x43 d with
  | (none, d) => d
  | (some x, d) =>
    if d.cur.handle = h && d.chp.mode = .curtain then d
    else inItsMode x (startCurtain {
      cause := 0x06, linkKept := true, planned := true, after := field x.entry.p0 0 2, handle := h }) d
/-- PLANNED_CURTAIN (R41, row 21): completes when SEALED is reached. -/
def execPlannedCurtain (h : Nat) (s : State) : Answer := onDev (plannedCurtain h) s

def fnReset (h : Nat) (d : Dev) : Dev :=
  match begin h true 0x44 d with
  | (none, d) => d
  | (some x, d) =>
    let f := field x.entry.p0 0 6
    if !fnPresent d f then endWith x stNotFound 0 0 d
    else
      let n := (d.descs.filter (fun y => y.fn = f)).length
      endWith x stSuccess n 0 (resetFn f d)
/-- FN_RESET (R267). -/
def execFnReset (h : Nat) (s : State) : Answer := onDev (fnReset h) s

/-! ### Parameter sets (R201, R217, Table 11.4) -/

/-- A set's fields are in range: CRC, MAGIC, major version, chemistry and cells of the descriptor,
design capacity and cutoff. -/
def setGood (d : Dev) (bs : List Byte) : Bool :=
  bs.length = 2048 && bytesAt bs 0x7FC 4 = (crc32c (bs.take 2044)).toNat
    && bytesAt bs 0x000 4 = 0x54505053 && bytesAt bs 0x004 1 = 1
    && bytesAt bs 0x006 1 = chemOf d && bytesAt bs 0x007 1 = cellsOf d
    && 500 ≤ bytesAt bs 0x010 4 && bytesAt bs 0x010 4 ≤ 40000
    && (if chemOf d = 1 then 2500 else 1500) ≤ bytesAt bs 0x024 2

def packParamLoad (h : Nat) (data : HostData) (d : Dev) : Dev :=
  match begin h true 0x45 d with
  | (none, d) => d
  | (some x, d) =>
    readBuffer x 2048 data (fun bs d =>
      if d.pkb.desc = [] then endWith x stNotFound 0 0 d
      else if !setGood d bs then endWith x stLength 0 0 d
      else if bytesAt bs 0x008 8 ≠ packSerial d then endWith x stNotFound 0 0 d
      else endWith x stSuccess 0 2048 { d with est := { d.est with shadow := some bs } }) d
/-- PACK_PARAM_LOAD (Table 11.4). -/
def execPackParamLoad (h : Nat) (data : HostData) (s : State) : Answer := onDev (packParamLoad h data) s

def packParamCommit (h : Nat) (d : Dev) : Dev :=
  match begin h true 0x46 d with
  | (none, d) => d
  | (some x, d) =>
    let d := { d with est := { d.est with paramSeq := (d.est.paramSeq + 1) % 256 } }
    if d.spw.warn then endWith x stBrownout 0 0 { d with est := { d.est with outcome := 2 } }
    else if d.est.shadow.isNone then endWith x stNotFound 0 0 d
    else if d.est.learning || d.est.pending ≠ 0 then endWith x stBusy 0 0 d
    else { d with est := { d.est with pending := h } }
/-- PACK_PARAM_COMMIT (R217): pending until the next estimator update. Log entry 154: BUSY while one is pending. -/
def execPackParamCommit (h : Nat) (s : State) : Answer := onDev (packParamCommit h) s

/-- `bs` with the bytes from `off` replaced. -/
def patch (bs : List Byte) (off : Nat) (new : List Byte) : List Byte :=
  bs.take off ++ new ++ bs.drop (off + new.length)

/-- The built-in default as a set, where no host set is in force: no FLAGS bit, tables of the default
profile. -/
def defaultSet (d : Dev) : List Byte :=
  let chem := chemOf d
  let table := fun (f : Nat → Nat → Nat → Nat) =>
    (List.range 231).flatMap (fun i => leBytes 2 (f chem (i / 21) (i % 21)))
  leBytes 4 0x54505053 ++ leBytes 2 1 ++ leBytes 1 chem ++ leBytes 1 (cellsOf d) ++ leBytes 8 (packSerial d)
    ++ leBytes 4 (designMah d) ++ zeros 16 ++ leBytes 2 (vCellMin d) ++ zeros 8 ++ zeros 18
    ++ table Config.profileOcv ++ zeros 2 ++ table Config.profileZs ++ zeros 2 ++ table Config.profileZp
    ++ zeros 590

/-- The set in force with the device's present learned values and a new CRC (R217). -/
def presentSet (d : Dev) : List Byte :=
  let bs := match d.est.params with
    | some bs => bs
    | none => defaultSet d
  let flags := BitVec.ofNat 16 (bytesAt bs 0x2C 2)
  let flags := if d.est.learnedMah ≠ 0 then flags ||| 8 else flags
  let flags := if d.est.probes ≠ [] then flags ||| 16 else flags
  let bs := patch bs 0x14 (leBytes 4 d.est.learnedMah ++ leBytes 8 d.est.learnedHt)
  let bs := patch bs 0x26 (leBytes 2 d.est.zsRatio ++ leBytes 2 d.est.zpRatio ++ leBytes 2 d.est.tau
    ++ leBytes 2 flags.toNat)
  withCrc (bs.take 2044)

def packParamRead (h : Nat) (d : Dev) : Dev :=
  match begin h true 0x47 d with
  | (none, d) => d
  | (some x, d) =>
    if d.pkb.desc = [] then endWith x stNotFound 0 0 d
    else
      let cells : List Cell := (presentSet d).zipIdx.map (fun e => (e.2, e.1))
      let d := emit (.hostWrite 0 x.entry.haddr 2048 cells false) { d with est := { d.est with learnNew := false } }
      endWith x stSuccess 0 2048 d
/-- PACK_PARAM_READ (R217). -/
def execPackParamRead (h : Nat) (s : State) : Answer := onDev (packParamRead h) s

/-! ### LEARN_START (R214) -/

def learnStart (h : Nat) (d : Dev) : Dev :=
  match begin h true 0x48 d with
  | (none, d) => d
  | (some x, d) =>
    inItsMode x (fun d =>
      if d.est.learning then endWith x stBusy 0 0 d
      else if !tracking d then endWith x stNotFound 0 0 d
      else if !learnFits d then endWith x stEnergy 0 0 d
      else startLearning (endWith x stSuccess 0 0 d)) d
/-- LEARN_START (R214): completes at once. -/
def execLearnStart (h : Nat) (s : State) : Answer := onDev (learnStart h) s

end Sys2Proof.Machine
end

