-- ==== Sys2Proof/Machine/Laid.lean ====
section
/-!
DEFINITION. Image content that a host has laid down through the command ports in SERVICE (R320): directories,
record heads (Tables 9.4 to 9.7) and curtain call lists (Tables 9.8, 9.9) read from the segments of foreign units.
Log entry 180.
-/

namespace Sys2Proof.Machine

/-- What a port has programmed in a segment of a unit; a segment not programmed is erased. -/
def portSegment (d : Dev) (u : FUnit) (s : Nat) : List Byte :=
  match (d.flash.segments.find? (fun e => e.1 = (u.cell, u.target, u.position, s))).map Prod.snd with
  | some w => (w.foldl (fun a e => a.setIfInBounds e.1 e.2) (Array.replicate segBytes (0 : Byte))).toList
  | none => List.replicate segBytes 0xFF

/-- `n` segments from `s`. -/
def portSegments (d : Dev) (u : FUnit) (s n : Nat) : List Byte :=
  (List.range n).flatMap (fun i => portSegment d u (s + i))

/-- A structure of `n` bytes ends with the CRC of those before it. -/
def crcHolds (n : Nat) (bs : List Byte) : Bool := fieldAt bs (n - 4) 4 = (crc32c (bs.take (n - 4))).toNat

/-! ### Record heads -/

/-- Record kinds by their code; TEST records never stand in the image (R163). -/
def kindOf (n : Nat) : Option RKind :=
  [RKind.stage, .curtain, .unack, .list, .releaseNote, .lossNote, .retire, .book, .expose, .safe].find? (fun k => k.code = n)

/-- A run descriptor (Table 9.7). -/
def runFrom (bs : List Byte) : Run :=
  let loc := fieldAt bs 0x10 8
  { ht := fieldAt bs 0 8, tag := fieldAt bs 8 8, caddr := loc % 2 ^ 40, extPages := loc / 2 ^ 40 % 256 + 1
    runStart := loc / 2 ^ 48 % 256, runPages := loc / 2 ^ 56 + 1, seq := fieldAt bs 0x18 4, cls := fieldAt bs 0x1C 1 % 16
    unack := fieldAt bs 0x1D 1 % 2 = 1, descId := fieldAt bs 0x1E 2 }

/-- Bytes of a head's descriptors and poison entries, which follow its header. -/
def headTail (h : List Byte) : Nat := 32 * fieldAt h 0x16 2 + 16 * fieldAt h 0x24 2

/-- A head decodes: its MAGIC and HEAD_CRC check (R162). -/
def headDecodes (h : List Byte) : Bool :=
  128 + headTail h ≤ h.length && fieldAt h 0 4 = 0x54524543
    && fieldAt h 0x7C 4 = (crc32c (h.take 0x7C ++ (h.drop 128).take (headTail h))).toNat

/-- The lines that poison entries mark, `ps` being the body's pages (R164). -/
def poisonFrom (ps : List Nat) (bs : List Byte) : List Nat :=
  match ps[fieldAt bs 0 2]? with
  | some p => ((List.range 64).filter (fun n => (fieldAt bs 8 8).testBit n)).map (fun n => pageAddr p + 64 * n)
  | none => []

/-- The runs of a head name pages of the cache, and its FN is as its kind has it (Table 9.5). -/
def headFits (d : Dev) (r : Rec) : Bool :=
  r.runs.all (fun g => rangeBacked d (g.caddr + g.runStart * pageBytes) (g.runPages * pageBytes) && g.runStart + g.runPages ≤ g.extPages)
    && (match r.kind with
      | .stage | .curtain | .unack | .releaseNote | .lossNote => 1 ≤ r.fn && r.fn ≤ 63
      | .list | .retire | .book | .test | .expose | .safe => true)

/-- The record of a head in the directory of a unit, its body from segment `seg` on. -/
def laidRecord (d : Dev) (u : FUnit) (seg : Nat) (h : List Byte) (kind : RKind) : Rec :=
  let runs := (List.range (fieldAt h 0x16 2)).map (fun i => runFrom (h.drop (128 + 32 * i)))
  let ps := runs.flatMap runPageList
  let bytes := pageBytes * fieldAt h 0x26 2
  let body := (portSegments d u seg (segmentsOf bytes)).take bytes
  let good := bytes = 0 || fieldAt h 0x50 4 = (crc32c body).toNat
  let tlc := 200 ≤ u.position && bytes ≠ 0
  { id := fieldAt h 8 8, block := u.cell / 8, kind, fn := fieldAt h 7 1, epochId := fieldAt h 0x10 4
    home := match runs with
      | g :: _ => blockOf g.caddr
      | [] => if kind = .list && fieldAt body 0 4 = 0x544C5354 then fieldAt body 7 1 else u.cell / 8
    slot := fieldAt h 0x14 1, gen := fieldAt h 0x15 1, inv := fieldAt h 0x18 8, pfx := fieldAt h 0x20 4
    runs, poison := (List.range (fieldAt h 0x24 2)).flatMap (fun i => poisonFrom ps (h.drop (128 + 32 * runs.length + 16 * i)))
    firstHt := fieldAt h 0x28 8, lastHt := fieldAt h 0x30 8, writeHt := fieldAt h 0x38 8, hidx := fieldAt h 0x54 2 % 512
    amend := fieldAt h 0x56 1 % 2 = 1, keep := fieldAt h 0x56 1 / 2 % 2 = 1, ref := fieldAt h 0x58 8, verMajor := fieldAt h 4 1
    bytes, cell := u.cell, target := u.target, position := if tlc then 0 else u.position, segment := seg, written := true
    slc := !tlc, readable := good
    tlc := if tlc then some (u.position - 200) else none
    tlcCell := u.cell, tlcTarget := u.target, tlcSegment := seg, tlcVerified := tlc, tlcReadable := good
    part := if fieldAt body 0 4 = 0x544C5354 then 0 else fieldAt body 4072 4 / 1024
    laid := some (h, body) }

/-! ### Directories (R160) -/

/-- Locators with their heads, `n` at most; one that fails its CRC gives no length to go on by. -/
def laidHeads : Nat → List Byte → List (List Byte × List Byte)
  | 0, _ => []
  | n + 1, bs =>
    let len := 32 * fieldAt bs 2 2
    if crcHolds 32 bs then (bs.take 32, (bs.drop 32).take len) :: laidHeads n (bs.drop (32 + len)) else []

/-- A locator is valid in the directory of a unit: it names the unit (Table 9.4). -/
def locates (u : FUnit) (l : List Byte) : Bool :=
  fieldAt l 4 1 = boolNat (200 ≤ u.position) && fieldAt l 5 1 = u.cell && fieldAt l 6 1 = u.target
    && fieldAt l 7 1 = (if 200 ≤ u.position then u.position - 200 else u.position) && fieldAt l 8 8 = u.stripeSeq

/-- The records of a directory. -/
def laidRecords (d : Dev) (u : FUnit) (dir : List Byte) : List Rec :=
  ((laidHeads (fieldAt dir 4 4) ((dir.take (fieldAt dir 8 4)).drop 64)).filter (fun e => locates u e.1 && headDecodes e.2)).filterMap
    (fun e => ((kindOf (fieldAt e.2 6 1)).map (laidRecord d u (fieldAt e.1 0 2) e.2)).filter (headFits d))

/-- Closed units that a port has laid down and that are not part of the image yet: the header is of this major
version, no erase of the unit is open, and the directory's header verifies. -/
def laidUnits (d : Dev) : List (FUnit × List Byte) :=
  (d.flash.segments.filterMap portHeader).filterMap (fun u =>
    if u.verMajor ≠ 1 || 328 ≤ u.position || !d.flash.foreign.contains (u.cell, u.target, u.position)
        || d.flash.intents.contains (u.cell, u.target, u.position) || (findUnit d u.cell u.target u.position).isSome then none
    else
      let dir := portSegments d u 1 (bodyFirst u.position - 1)
      if fieldAt dir 0 4 = 0x54444952 && crcHolds 64 dir && fieldAt dir 0x10 8 = u.stripeSeq then some (u, dir) else none)

/-- No record has this identity: bodies that no locator covers (R162). -/
def unnamedId : Nat := 2 ^ 64 + 2 ^ 56 - 1

/-- Put a record among the others of the image, in the order of writing. A second copy of a record is the same
record (R138). -/
def insertLaid (r : Rec) (d : Dev) : Dev :=
  match findRec d r.id with
  | some q =>
    if q.tlc.isNone && r.tlc.isSome && q.laid.isSome then
      updRec r.id (fun q => { q with
        tlc := r.tlc, tlcCell := r.tlcCell, tlcTarget := r.tlcTarget, tlcSegment := r.tlcSegment, tlcVerified := true
        tlcReadable := r.tlcReadable }) d
    else d
  | none =>
    let before := d.flash.records.takeWhile (fun q => q.writeHt ≤ r.writeHt)
    let d := { d with flash := { d.flash with records := before ++ r :: d.flash.records.drop before.length } }
    updBlk r.block (fun k => { k with serialNext := max k.serialNext (r.id % 2 ^ 56 + 1) }) d

/-- The unit and its records become image content; its stripe is in use until cleaning gives it back. -/
def adoptUnit (d : Dev) (e : FUnit × List Byte) : Dev :=
  let (u, dir) := e
  let rs := laidRecords d u dir
  let covered := fun (s : Nat) => rs.any (fun r => r.bytes ≠ 0 && r.segment ≤ s && s < r.segment + segmentsOf r.bytes)
  let loose := (d.flash.segments.filter (fun e => e.1.1 = u.cell && e.1.2.1 = u.target && e.1.2.2.1 = u.position
    && bodyFirst u.position ≤ e.1.2.2.2 && !covered e.1.2.2.2)).map (fun e => (unnamedId, e.1.2.2.2, 1))
  let unit : FUnit := { u with
    next := unitSegs u.position, full := true, closeHt := some (fieldAt dir 0x18 8), headBytes := fieldAt dir 8 4
    bodies := rs.map (fun r => (r.id, r.segment, segmentsOf r.bytes)) ++ loose }
  let d := { d with flash := { d.flash with units := d.flash.units ++ [unit] } }
  let d := rs.foldl (fun d r => insertLaid r d) d
  updBlk (u.cell / 8) (fun k =>
    if 200 ≤ u.position then
      (if Tab.get .erased k.tlcStripes (u.position - 200) = .erased then { k with
        tlcStripes := Tab.set k.tlcStripes (u.position - 200) .written, tlcSeqs := Tab.set k.tlcSeqs (u.position - 200) u.stripeSeq } else k)
    else if Tab.get .erased k.stripes u.position = .erased then { k with
      stripes := Tab.set k.stripes u.position .written, stripeSeqs := Tab.set k.stripeSeqs u.position u.stripeSeq } else k) d

/-! ### Lists (R168) -/

/-- List entry (Table 9.9). -/
def entryFrom (bs : List Byte) : ListEntry :=
  let loc := fieldAt bs 8 8
  { ht := fieldAt bs 0 8, caddr := loc % 2 ^ 40, pages := loc / 2 ^ 40 % 256 + 1, fn := loc / 2 ^ 48 % 64
    unack := loc.testBit 56, amend := loc.testBit 57, tag := fieldAt bs 0x10 8, seq := fieldAt bs 0x18 4
    descId := fieldAt bs 0x1C 2, cls := fieldAt bs 0x1E 1 % 16 }

/-- The pages of a body. -/
def bodyPagesOf (body : List Byte) : List (List Byte) :=
  (List.range (body.length / pageBytes)).map (fun i => (body.drop (i * pageBytes)).take pageBytes)

/-- Entry page `i` of a list, where it verifies. -/
def entryPage (pages : List (List Byte)) (id i : Nat) : Option (List Byte) :=
  pages.find? (fun p => fieldAt p 4064 8 = id && fieldAt p 4072 4 = i && crcHolds pageBytes p)

/-- The list whose header is the first page of a record's body (Table 9.8). -/
def listFrom (d : Dev) (body : List Byte) : Option CallList :=
  let h := body.take pageBytes
  if fieldAt h 0 4 ≠ 0x544C5354 || !crcHolds pageBytes h then none
  else
    let id := fieldAt h 8 8
    let n := fieldAt h 0x38 4
    let pages := (d.flash.records.filter (fun r => r.kind = .list && r.ref = id)).flatMap (fun r =>
      match r.laid with
      | some (_, b) => bodyPagesOf b
      | none => [])
    let good := ((List.range n).map (fun i => entryPage pages id (i + 1))).takeWhile Option.isSome
    some {
      listId := id, trigger := fieldAt h 6 1, block := fieldAt h 7 1, triggerHt := fieldAt h 0x10 8
      entries := good.flatMap (fun p => (List.range (fieldAt (p.getD []) 4076 2)).map (fun i => entryFrom (((p.getD []).drop (32 * i)).take 32)))
      listedBytes := fieldAt h 0x28 8, baseList := fieldAt h 0x40 8, verMajor := fieldAt h 4 1
      torn := if good.length < n then some good.length else none
      range := some (fieldAt h 0x18 8, fieldAt h 0x20 8) }

/-- What ports have laid down becomes image content before encore reads the image (R320). -/
def adoptLaid (d : Dev) : Dev :=
  let us := laidUnits d
  if us = [] then d
  else
    let d := us.foldl adoptUnit d
    { d with flash := { d.flash with records := d.flash.records.map (fun r =>
        match r.laid with
        | some (_, b) => if r.kind = .list && r.list.isNone then { r with list := listFrom d b } else r
        | none => r) } }

end Sys2Proof.Machine
end

