-- ==== Sys2Proof/Machine/TimeBase.lean ====
section
/-!
DEFINITION. The time base (chapter 3): writes of HT and the epoch label, the references, steering
and slewing, cues, holdover, and the tick of the ordering-point cycle.
-/

namespace Sys2Proof.Machine

/-! ### TMB_STATUS -/

/-- The reference that TMB_CTL.SRC selects is present (R55). -/
def Tmb.refPresent (t : Tmb) : Bool :=
  match t.src with
  | 1 => t.ppsOk
  | 2 => t.ptmFails < 3 && t.epochNs ≠ 0
  | 3 => t.ppsOk && t.ptmFails < 3 && t.epochNs ≠ 0
  | _ => false

/-- A grandmaster's reference is present (R55). -/
def refOk (d : Dev) : Bool := !d.tmb.follower && d.tmb.refPresent

/-- TMB_STATUS.ROLE. -/
def timeRole (d : Dev) : Nat :=
  if d.tmb.follower then 2 else if d.hrk.role = 1 then 1 else if d.hrk.takeover && d.hrk.lead then 3 else 0

/-- TMB_STATUS.FOREIGN_EPOCH (R67): the image holds records of another epoch. -/
def foreignEpoch (d : Dev) : Bool :=
  d.flash.records.any (fun r => r.written && r.ordered && r.epochId ≠ d.tmb.epochId)

/-- TMB_STATUS as read. -/
def tmbStatus (d : Dev) : Nat :=
  commitClass d * 2 ^ 28 + d.tmb.depth % 4 * 2 ^ 26 + timeRole d * 2 ^ 24 + timeState d * 2 ^ 16
    + 128 * boolNat (refOk d) + 64 * boolNat d.tmb.ptmOk + 32 * boolNat d.tmb.ppsOk
    + 16 * boolNat (foreignEpoch d) + 8 * boolNat d.tmb.stepped + 4 * boolNat d.tmb.wrapNear
    + 2 * boolNat (belowStamps d)

/-- TMB_UNC as read. -/
def tmbUnc (d : Dev) : Nat :=
  match uncertainty d with
  | some u => min u 0xFFFFFFFF
  | none => 0xFFFFFFFF

def traceTime (d : Dev) : Dev := trace 0x6001 79 (tmbStatus d) (tmbUnc d) d

/-- A grandmaster's reference is lost, or a follower enters holdover, between two states. Under SRC 0 there
is none to lose. -/
def lostSteering (d e : Dev) : Bool :=
  (refOk d && !refOk e && e.tmb.src ≠ 0 && !e.tmb.follower) || (d.tmb.state ≠ 3 && e.tmb.state = 3)

/-- HT runs at the last steered frequency (R55, R58). The spec gives no rule by which a frequency is
found from the offsets, so it is a free value within the slewing limit of R56: which way a tick goes,
and each how many cycles. The remaining offset is not slewed meanwhile. Log entry 127. -/
def holdFrequency (d : Dev) : Dev :=
  let (v, d) := fresh d
  { d with tmb := { d.tmb with held := true, heldUp := v % 2 = 1, heldGap := v / 2 } }

/-- Do `f`, and trace the timing state if it changed. -/
def tracingTime (f : Dev → Dev) (d : Dev) : Dev :=
  let e := f d
  let e := if lostSteering d e then holdFrequency e else e
  if timeState e = timeState d ∧ refOk e = refOk d then e else traceTime e

/-! ### Steering (R56) -/

/-- One forward step: HT takes the target. -/
def stepForward (target : Nat) (d : Dev) : Dev :=
  let by' := target - d.tmb.ht
  trace 0x6002 79 by' 0 { d with tmb := { d.tmb with
    ht := target, slot := 0, lag := 0, held := false, stepped := true, steps := satAdd 16 d.tmb.steps 1 } }

/-- HT brought toward a target: a lag above TMB_STEP_THRESH steps, the rest is slewed, so that HT never
goes back to a target below it (R56, R61). -/
def steer (target : Int) (d : Dev) : Dev :=
  let lag := (d.tmb.ht : Int) - target
  if (d.tmb.stepThresh.toNat : Int) < -lag then stepForward target.toNat d
  else { d with tmb := { d.tmb with lag, held := false } }

/-- Slewing that brings the offset to zero ends SLEWING_BACK (R57). -/
def slewDone (d : Dev) : Dev :=
  if d.tmb.state = 4 ∧ d.tmb.lag = 0 then
    tracingTime (fun d => { d with tmb := { d.tmb with state := if 8 ≤ d.tmb.goodCues then 2 else 1 } }) d
  else d

/-- The tick: with the time base on, one cycle; with it off, the dark counter runs at 1 MHz while
the retention island is on, one count in a thousand cycles (R60). A cycle in which a full insertion queue holds the ordering point counts in
IDX_STALLS (R275). -/
def tick (d : Dev) : Dev :=
  if d.tmb.powered then
    slewDone { d with
      tmb := d.tmb.closeCycle
      idx := if insqFull d && d.descs.any (fun x => x.phase = .waiting) then
        { d.idx with stalls := satAdd 32 d.idx.stalls 1 } else d.idx }
  else if d.tmb.darkRan then
    { d with tmb := { d.tmb with
      cycles := d.tmb.cycles + 1
      darkUs := if (d.tmb.cycles + 1) % 1000 = 0 then d.tmb.darkUs + 1 else d.tmb.darkUs } }
  else d

/-! ### Writes -/

/-- TMB_SET_HT (R50, R51): before the first commit of the epoch any value within the bounds, from it
on forward only; ignored on a follower. After the first commit the present HT itself is neither a
forward nor a backward value: it is ignored and faulted as a backward one, DESIGN CHOICE (log entry 128). -/
def setHt (w : W64) (d : Dev) : Dev :=
  let v := w.toNat
  if d.tmb.follower then d
  else if 0xF000000000000000 ≤ v then configRejected 78 0x20038 d
  else if d.tmb.epochCommitted then
    (if v ≤ d.tmb.ht then configRejected 78 0x20038 d else stepForward v d)
  else if v ≤ epochNewest d && epochNewest d ≠ 0 then configRejected 78 0x20038 d
  else if d.tmb.ht < v then stepForward v d
  else { d with tmb := { d.tmb with ht := v, slot := 0, lag := 0, held := false } }
def execTmbSetHt (w : W64) (s : State) : Answer := onDev (setHt w) s

/-- TMB_EPOCH (R51): ignored after the first commit of the epoch (Table 22.3). -/
def setEpoch (w : W64) (d : Dev) : Dev :=
  if d.tmb.epochCommitted then d
  else { d with
    tmb := { d.tmb with epochNs := w }
    flash := { d.flash with epoch := d.flash.epoch.map (fun e => (e.1, w)) } }
def execTmbEpoch (w : W64) (s : State) : Answer := onDev (tracingTime (setEpoch w)) s

/-- TMB_CTL: a grandmaster put under SRC 0 runs from the oscillator, with nothing to steer to (Table 3.3). -/
def tmbCtlWrite (x : W32) (d : Dev) : Dev :=
  let d := { d with tmb := { d.tmb with ctl := x &&& 0x00FFF33F } }
  if d.tmb.src = 0 && !d.tmb.follower then { d with tmb := { d.tmb with lag := 0, held := false } } else d

/-- WRAP_NEAR (R50). -/
def execWrapNear (s : State) : Answer :=
  onDev (fun d => if 0xF000000000000000 ≤ d.tmb.ht then { d with tmb := { d.tmb with wrapNear := true } }
    else d) s

/-! ### References (R55, R243) -/

def second : Nat := 4000000000

/-- The HT nearest to `ht` that is congruent to `phase` modulo one second. Of two equally near R55 names none:
the model takes the lower, DESIGN CHOICE (log entry 156). -/
def nearestPhase (ht phase : Nat) : Int :=
  let r := (ht + second - phase % second) % second
  if 2 * r ≤ second then (ht : Int) - r else (ht : Int) + (second - r)

/-- The reference's target, for the offset that every device measures and the steering that only a
grandmaster does (R54). -/
def referenceTarget (target : Int) (d : Dev) : Dev :=
  let d := { d with tmb := { d.tmb with refOffset := (d.tmb.ht : Int) - target } }
  if d.tmb.follower then d else steer target d

/-- PPS_EDGE: steers a grandmaster under SRC 1, and under SRC 3 while PTM is present too. PPS_IN is absent
without VAUX3 (R361). -/
def ppsEdge (falling : Bool) (d : Dev) : Dev :=
  if !d.tmb.powered || !d.pins.vaux3 || falling ≠ d.tmb.ppsFalling then d
  else
    let d := { d with tmb := { d.tmb with ppsOk := true } }
    if (d.tmb.src = 1 || d.tmb.src = 3) && d.tmb.refPresent then referenceTarget (nearestPhase d.tmb.ht d.tmb.ppsPhase.toNat) d
    else d
def execPpsEdge (falling : Bool) (s : State) : Answer := onDev (tracingTime (ppsEdge falling)) s

/-- REFERENCE_LOSS: 3 s without a PPS edge; HT runs on at the last steered frequency, a free value
(log entry 127). -/
def execReferenceLoss (s : State) : Answer :=
  onDev (tracingTime (fun d => { d with tmb := { d.tmb with ppsOk := false } })) s

/-- Whole seconds between a time and PTM's (SRC 3): the phase is that of the PPS edges. -/
def wholeSeconds (at' target : Int) : Int := (target - at' + (second : Int) / 2).fdiv second

/-- PTM's part under SRC 3, while the PPS edges come: it moves the target by whole seconds and leaves the phase to
them. -/
def ptmSecond (target : Int) (d : Dev) : Dev :=
  let k := wholeSeconds ((d.tmb.ht : Int) - d.tmb.lag) target
  if k = 0 || !d.tmb.ppsOk then d else referenceTarget ((d.tmb.ht : Int) - d.tmb.lag + k * second) d

/-- PTM_REQUEST: an answered exchange steers; PTM_OK shows the last exchange, and three failures in a
row, or no epoch label, lose the reference. -/
def ptmRequest (reply : Option Nat) (d : Dev) : Dev :=
  if !(d.tmb.powered && linkUp d && d.ept.ptmEn && (d.tmb.src = 2 || d.tmb.src = 3)) then d
  else
    let d := emit (.ptmRequest d.tmb.ht) d
    match reply with
    | none => { d with tmb := { d.tmb with ptmFails := d.tmb.ptmFails + 1, ptmOk := false } }
    | some ns =>
      let d := { d with tmb := { d.tmb with ptmFails := 0, ptmOk := true } }
      if d.tmb.epochNs = 0 then d
      else
        let target : Int := ((ns : Int) - d.tmb.epochNs.toNat) * 4
        if d.tmb.src = 2 then referenceTarget target d else ptmSecond target d
def execPtmRequest (reply : Option Nat) (s : State) : Answer := onDev (tracingTime (ptmRequest reply)) s

/-- The present cycle holds an HT congruent to TMB_PPS_PHASE modulo one second (R56). -/
def ppsDue (t : Tmb) : Bool :=
  (t.ppsPhase.toNat % second + second - (t.ht - t.slot) % second) % second < t.span

/-- PPS_OUT_EDGE (R56): the rise at its phase, and the fall 1 ms later; undriven without VAUX3 or while
the time base is off. -/
def ppsOutEdge (d : Dev) : Dev :=
  if !(d.tmb.ppsOutEn && d.tmb.powered && d.pins.vaux3) then { d with pins := { d.pins with ppsOut := false } }
  else if d.pins.ppsOut then
    (if d.tmb.ppsRise + 4000000 ≤ d.tmb.ht then { d with pins := { d.pins with ppsOut := false } } else d)
  else if ppsDue d.tmb then
    { d with pins := { d.pins with ppsOut := true }, tmb := { d.tmb with ppsRise := d.tmb.ht } }
  else d
def execPpsOutEdge (s : State) : Answer := onDev ppsOutEdge s

/-! ### Cues (R57, R183) -/

/-- Median of an even or odd number of values, in 1/16 tick. -/
def median (l : List Int) : Int :=
  let s := sortBy (fun (x : Int) => (x + 2 ^ 40).toNat) l
  let n := s.length
  if n % 2 = 1 then s.getD (n / 2) 0 else (s.getD (n / 2 - 1) 0 + s.getD (n / 2) 0) / 2

/-- The exchange that a cue completes (R57): t1 to t3 are of the cue before it, t4 comes in this one.
None where T4 is 0 or the cue before was not received. -/
def exchange (d : Dev) (c : CueFrame) : Option (Nat × Nat × Nat × Nat) :=
  match d.tmb.prevCue with
  | some (seq, t1, t2, t3) => if c.t4 ≠ 0 ∧ (seq + 1) % 65536 = c.seq % 65536 then some (t1, t2, t3, c.t4) else none
  | none => none

/-- delay and offset of an exchange in 1/16 tick. -/
def cueDelay (d : Dev) (x : Nat × Nat × Nat × Nat) : Int :=
  (((x.2.2.2 : Int) - x.1) - ((x.2.2.1 : Int) - x.2.1)) * 8 + d.tmb.asym.toInt
def cueOffset (d : Dev) (x : Nat × Nat × Nat × Nat) : Int := ((x.2.1 : Int) - x.1) * 16 - cueDelay d x

/-- The median test, once 16 accepted delays exist. -/
def cueAccepted (d : Dev) (x : Nat × Nat × Nat × Nat) : Bool :=
  d.tmb.delays.length < 16 || (cueDelay d x - median d.tmb.delays).natAbs ≤ 64

/-- The image holds commits of an epoch. -/
def imageCommits (d : Dev) : Bool := d.flash.records.any Rec.ordered

/-- A worker follows cues of its own epoch; of another only where its image holds no commit, or while
it passes BOOT, when it adopts the epoch. Until then it stays its own grandmaster (R178). -/
def mayFollow (d : Dev) (c : CueFrame) : Bool :=
  c.epochId = d.tmb.epochId || !imageCommits d || d.chp.mode = .boot

/-- Adopt the epoch of an accepted cue: older records become a foreign segment (R51, R67). -/
def adoptEpoch (id : Nat) (d : Dev) : Dev :=
  if d.tmb.epochId = id then d
  else
    { d with
      tmb := { d.tmb with
        epochId := id, epochNs := 0
        epochCommitted := d.flash.records.any (fun r => r.epochId = id && r.ordered) }
      flash := { d.flash with epoch := some (id, 0) } }

/-- The state of a follower after an accepted cue: ahead by 2 ticks or more it slews back; eight good
cues in a row lock it. -/
def followState (d : Dev) (good : Nat) : Nat :=
  if 2 ≤ d.tmb.lag then 4 else if 8 ≤ good then 2 else if d.tmb.state = 2 then 2 else 1

/-- An accepted cue steers HT by the exchange it completes. The offset is kept to 1/16 tick and HT counts whole
ticks; how the target is rounded R57 does not say: to the nearest tick, half up, DESIGN CHOICE (log entry 157). A
target not above the image's stamps is reported until the first commit after BOOT (R61). -/
def followCue (p : Nat) (c : CueFrame) (x : Nat × Nat × Nat × Nat) (d : Dev) : Dev :=
  let off := cueOffset d x
  let delay := cueDelay d x
  let d := adoptEpoch c.epochId d
  let good := if off.natAbs < 32 then d.tmb.goodCues + 1 else 0
  let target : Int := (d.tmb.ht : Int) - (off + 8).fdiv 16
  let top := max (epochNewest d) d.tmb.restartHt
  let d := { d with tmb := { d.tmb with
    follower := true, everCue := true, cueOffset := off, cueDelay := delay
    delays := (delay :: d.tmb.delays).take 16, goodCues := good, uUp := c.u, floorU := c.f
    depth := c.depth + 1, belowImage := !d.tmb.bootCommit && target ≤ (top : Int) && top ≠ 0 } }
  let d := steer target d
  let d := { d with tmb := { d.tmb with lastCueHt := d.tmb.ht, state := followState d good } }
  countPort p 4 1 { d with tmb := { d.tmb with uLast := d.tmb.cueU } }

/-- CUE_RESP goes back at once (R183): t2 is HT as the cue arrived, t3 as the response leaves, after a forward step
that the cue may have brought. -/
def answerCue (p : Nat) (c : CueFrame) (t2 : Nat) (d : Dev) : Dev :=
  sendOn p 2 0xFFFE false (cueRespBytes { seq := c.seq % 65536, followsTakeover := c.takeover, gmIdx := c.gmIdx })
    { d with tmb := { d.tmb with prevCue := some (c.seq, c.t1, t2, d.tmb.ht) } }

/-- The answer to a restarted manager's cue of a device under the lead of worker 1: GM_IDX 1, and nothing is
steered (R195). -/
def answerManager (p : Nat) (c : CueFrame) (d : Dev) : Dev :=
  sendOn p 2 0xFFFE false (cueRespBytes { seq := c.seq % 65536, followsTakeover := true, gmIdx := 1 }) d

/-- What a follower learns of the lead from its uplink's cues (R180); cues of an index 0 lead end a
switch to standby (R193). -/
def leadFromCue (c : CueFrame) (d : Dev) : Dev :=
  let d := { d with hrk := { d.hrk with takeover := c.takeover } }
  if c.takeover then d else endStandby d

/-- A cue on a port that is not the uplink: on the standby port it is noted for the switch; on HK0 after
a switch, a bounded one from index 0 ends it (R193), and an unbounded one is answered (R195). -/
def sideCue (p : Nat) (c : CueFrame) (d : Dev) : Dev :=
  if p = d.hrk.standbyPort then
    { d with hrk := { d.hrk with sawTakeover := c.takeover && c.epochId = d.tmb.epochId } }
  else if p = 0 && d.hrk.onStandby && c.gmIdx = 0 && !c.takeover then
    (if c.u < 0xFFFFFFFF then
      endStandby { d with hrk := { d.hrk with takeover := false, sawTakeover := false } }
     else answerManager p c d)
  else d

/-- A cue that fails the median test: counted, and not answered, so that the next carries no T4. -/
def rejectCue (p : Nat) (d : Dev) : Dev :=
  trace 0x6003 79 p 0 (countPort p 5 1 { d with tmb := { d.tmb with
    rejected := satAdd 16 d.tmb.rejected 1, goodCues := 0, prevCue := none } })

/-- CUE (R57): on the uplink it steers. A waiting manager follows worker 1 on the link to it (R195). A cue
that completes no exchange, the first on a link among them, steers nothing and is answered, so that the
next one can. DESIGN CHOICE (log entry 143). Worker 1 as lead answers a restarted manager (R195). -/
def cue (p : Nat) (c : CueFrame) (d : Dev) : Dev :=
  if p ≠ uplink d then sideCue p c d
  else if d.hrk.lead && d.hrk.takeover && c.gmIdx = 0 && !c.takeover then answerManager p c d
  else if !subordinate d || d.hrk.inWaiting && !c.takeover then d
  else if 3 ≤ c.depth || !mayFollow d c then leadFromCue c d
  else match exchange d c with
  | none => answerCue p c d.tmb.ht (leadFromCue c d)
  | some x =>
    if !cueAccepted d x then rejectCue p (leadFromCue c d)
    else
      let d := updPort p (fun q => { q with following := true }) (leadFromCue c d)
      answerCue p c d.tmb.ht (followCue p c x d)

/-- HOLDOVER (R58): the missed cue periods have passed on a follower. -/
def holdover (d : Dev) : Dev :=
  if d.tmb.follower && d.tmb.powered && d.tmb.state ≠ 3 then
    countChip 1 1 { d with tmb := { d.tmb with state := 3, goodCues := 0 } }
  else d
def execHoldover (s : State) : Answer := onDev (tracingTime holdover) s

end Sys2Proof.Machine
end

