-- ==== Sys2Proof/Machine/Boot.lean ====
section
/-!
DEFINITION. Power-on (R373, row 12), the milestones B2 to B5, VAUX3 (R361), and the supply thresholds
(R104).
-/

namespace Sys2Proof.Machine

/-! ### Row 12 -/

/-- The role of Table 10.1 at the end of the power-on sequence: a low strap is standalone until JOIN
is granted. A manager waits for its children's responses (R195). -/
def takeRole (d : Dev) : Dev :=
  if d.board.roleMgr then
    { d with hrk := { d.hrk with role := 1, lead := true, index := 0, waitResponses := true } }
  else { d with hrk := { d.hrk with role := 0, lead := true, index := 0 } }

/-- TM0 to TM3 read at power-on (R353). -/
def testPinFault (d : Dev) : Dev :=
  if d.board.testPins = 0 then d
  else
    let d := raiseFault { code := 0x0408, level := 4, island := 79, severity := 4, detail := d.board.testPins.toNat } d
    { d with chp := { d.chp with fatalBoot := true, fatalIslands := 79 :: d.chp.fatalIslands, cause := 0x1A } }

def mainSupplyGood (mv : Nat) (d : Dev) : Dev :=
  let d := { d with pins := { d.pins with vinMv := mv } }
  if d.chp.mode ≠ .dark || mv < 10700 || !d.pins.vaux3 then checkRetention d
  else
    let d := powerOn d
    let d := takeRole { d with spw := { d.spw with mv, good := d.spw.goodMv ≤ mv } }
    let d := trace 0x0001 82 (0x00 + 1 * 256 + 1 * 65536) 0 d
    testPinFault (postEvent 1 0 [0, 1, 1, d.chp.seq] d)
/-- MAIN_SUPPLY_GOOD (R359, R373): row 12. -/
def execMainSupplyGood (mv : Nat) (s : State) : Answer :=
  if vinMax < mv then .fault .absoluteMaximum else onDev (mainSupplyGood mv) s

/-! ### VAUX3 (R361) -/

/-- PERST_N reads asserted while VAUX3 is away; the pin's own level is kept. -/
def vaux3Loss (d : Dev) : Dev :=
  if !d.pins.vaux3 then d
  else
    let level := d.pins.perstN
    let d := if level then endpointReset .perst d else d
    { d with pins := { d.pins with vaux3 := false, perstN := level, clkreqN := true, ppsOut := false } }
def execVaux3Loss (s : State) : Answer := onDev vaux3Loss s

def vaux3Return (d : Dev) : Dev :=
  let d := { d with pins := { d.pins with vaux3 := true, clkreqN := false } }
  if endpointOn d && d.pins.perstN && d.ept.link = .down then { d with ept := { d.ept with link := .training } }
  else d
def execVaux3Return (s : State) : Answer := onDev vaux3Return s

/-! ### B2: the twin (R329) -/

/-- Newest entry of a twin. -/
def twinSeq (d : Dev) (t : Nat) : Nat := ((d.rom.selectors.filter (fun e => e.twin = t)).map Selector.seq).foldl max 0

/-- The valid twin whose newest selector entry has the higher SEQ. -/
def bootTwin (d : Dev) : Option Nat :=
  let ok := fun t => 0 < twinSeq d t && Tab.get false d.rom.twinValid t
  let first := if twinSeq d 0 < twinSeq d 1 then 1 else 0
  if ok first then some first else if ok (1 - first) then some (1 - first) else none

def twinSelected (d : Dev) : Dev :=
  if d.chp.mode ≠ .boot || d.rom.booted || d.chp.fatalBoot then d
  else match bootTwin d with
  | some t => { d with
      rom := { d.rom with running := t, booted := true }
      board := { d.board with fwVersion := BitVec.ofNat 32 (Tab.get 0 d.rom.twinVersion t) } }
  | none =>
    let d := raiseFault { code := 0x0407, level := 4, island := 79, severity := 4 } d
    { d with chp := { d.chp with fatalBoot := true, cause := 0x1A } }
/-- TWIN_SELECTED (B2). -/
def execTwinSelected (s : State) : Answer := onDev twinSelected s

/-! ### B3: the modules (R295, R315, R343) -/

/-- A block's module and flash pass the checks of BOOT: its LPCAMM2 module is present, of block 0's
capacity and trained; its TSM-1 answers with the serial on record (blocks 1 to 7); a pipe works. -/
def modulePasses (d : Dev) (b cap0 : Nat) (ms : List ModuleFound) : Bool :=
  match ms.find? (fun m => m.block = b) with
  | none => false
  | some m =>
    m.trained && m.capacityGib = cap0 && (cap0 = 32 || cap0 = 64 || cap0 = 128)
      && (b = 0 || (m.tsmSerial ≠ 0 && (d.flash.neverBooted || m.tsmSerial = (getBlk d b).tsmSerial)))
      && 0 < workingPipes d b

/-- A block is held out (R135); the entries of the functions with data in it change (R187). -/
def holdOut (b : Nat) (d : Dev) : Dev :=
  if (getBlk d b).heldOut then d else dirHeldOut b (updBlk b (fun k => { k with heldOut := true }) d)

/-- One block at B3: held out with a record of code 0x020A, or ready; the identities found are kept either way
(R71, R135, R295). -/
def moduleStep (cap0 : Nat) (ms : List ModuleFound) (d : Dev) (b : Nat) : Dev :=
  let m := (ms.find? (fun m => m.block = b)).getD { block := b, capacityGib := 0, identity := 0, tsmSerial := 0, trained := false }
  let found := fun (k : Blk) => { k with
    moduleId := m.identity, tsmFound := if b = 0 then k.tsmFound else m.tsmSerial }
  if modulePasses d b cap0 ms then
    let d := if (getBlk d b).selfRefresh then countBlk b 16 8 d else d
    updBlk b (fun k => { found k with
      heldOut := false, portOk := true, dramOn := true, selfRefresh := false, fspOk := true, moduleGib := m.capacityGib
      tsmSerial := if b ≠ 0 && d.flash.neverBooted then m.tsmSerial else k.tsmSerial, trainCount := satAdd 16 k.trainCount 1 }) d
  else
    holdOut b (raiseFault { code := 0x020A, level := 2, island := 64 + b, severity := 1 }
      (updBlk b (fun k => { found k with fspOk := false }) d))

/-- The measured e_byte is used only for the population and the modules it was measured with (R71). The spec does not
say whether a BOOT that reverted to the data-sheet values ends the stored ones: the model keeps them, and takes them
again when the recorded modules return. DESIGN CHOICE (log entry 160). ADM_P_CURTAIN may change, which DIS_LIMIT
follows (Table 12.5). -/
def checkEByte (d : Dev) : Dev :=
  let n := d.board.blocks
  match d.reh.storedEByte with
  | some (e, r) =>
    if d.reh.storedPop = n && d.reh.storedModules = modulesFound d then
      disLimit { d with adm := { d.adm with eByteMeasured := true, eByteFj := e, rateRef := r } }
    else disLimit { d with adm := { d.adm with eByteMeasured := false, eByteFj := dsEByte n * 12 / 10, rateRef := dsRate n } }
  | none => d

def modulesTrained (ms : List ModuleFound) (d : Dev) : Dev :=
  if d.chp.mode ≠ .boot || !d.rom.booted || d.rom.modulesOk then d
  else
    let cap0 := ((ms.find? (fun m => m.block = 0)).map ModuleFound.capacityGib).getD 0
    let d := if cap0 = 32 || cap0 = 64 || cap0 = 128 then { d with board := { d.board with moduleGib := cap0 } } else d
    let d := (blockList d).foldl (moduleStep cap0 ms) d
    let d := if d.chp.prev = .dark then
        { d with drc := { d.drc with fspCfg := (d.drc.fspCfg &&& 0x300) ||| (Config.moduleTopRate (getBlk d 0).moduleId).zeroExtend 32 } }
      else d
    checkEByte { d with rom := { d.rom with modulesOk := true } }
/-- MODULES_TRAINED (B3). -/
def execModulesTrained (ms : List ModuleFound) (s : State) : Answer := onDev (modulesTrained ms) s

/-! ### B4: the flash (R326, R191, R342) -/

/-- Every open intent's unit is erased again, with a new intent of SOURCE 2, and its stripe is erased
when none is left (R326). R105 starts no erase under WARN; of the two, R326 is followed, since row 13 waits for
these erases. DESIGN CHOICE (log entry 138). -/
def redoIntents (d : Dev) : Dev :=
  let units := d.flash.intents
  let d := units.foldl (fun d u => clearUnit u.1 u.2.1 u.2.2 d) d
  let d := units.foldl (fun d u => countCell u.1 2 1
    (trace 0x3001 u.1 (u.1 + u.2.1 * 256 + u.2.2 * 65536) 0
      { d with flash := { d.flash with journalSeq := Tab.upd 0 d.flash.journalSeq u.1 (· + 1) } })) d
  let d := { d with
    flash := { d.flash with intents := [] }
    cells := Tab.mapVals (fun (c : CellSt) => { c with erases := [] }) d.cells }
  let back := fun (t : Tab StripeState) => Tab.mapVals (fun e => if e = .erasing then .erased else e) t
  { d with blk := Tab.mapVals (fun (k : Blk) => { k with stripes := back k.stripes, tlcStripes := back k.tlcStripes }) d.blk }

/-- Every unit that a block opened after its stripe `seq` is erased again. -/
def eraseSince (b seq : Nat) (d : Dev) : Dev :=
  let ps := ((getBlk d b).stripeSeqs.filter (fun e => seq < e.2)).map Prod.fst
  let us := d.flash.units.filter (fun u => u.cell / 8 = b && ps.contains u.position)
  let d := us.foldl (fun d u => countCell u.cell 2 1 (clearUnit u.cell u.target u.position d)) d
  updBlk b (fun k => { k with stripes := ps.foldl (fun t p => Tab.set t p .erased) k.stripes }) d

/-- What a transfer without SUCCESS had brought is erased (R191). -/
def undoTransfer (d : Dev) : Dev :=
  match d.flash.xferIntent with
  | none => { d with flash := { d.flash with xferRecs := [], xferVaults := [] } }
  | some b =>
    let d := eraseSince b d.flash.xferSeq d
    let d := dropRecs (fun r => d.flash.xferRecs.contains r.id) d
    { d with
      flash := { d.flash with
        xferIntent := none, xferRecs := [], xferVaults := [], xferNonces := [] }
      cip := { d.cip with vault := d.cip.vault.filter (fun v => !d.flash.xferVaults.contains (v.slot, v.gen)) } }

/-- Loss notes that only the retention island held are written through the first block that can
(R342). -/
def writeKeptNotes (d : Dev) : Dev :=
  match (blockList d).find? (logWorks d) with
  | none => d
  | some b =>
    let d := d.err.notes.foldl (fun d n =>
      let (id, d) := headOnly b n.home .lossNote n.fn n.runs n.firstHt 0 true d
      updRec id (fun r => { r with epochId := n.epochId, hidx := n.hidx }) d) d
    { d with err := { d.err with notes := [] } }

/-- The entry of a slot that stands: of those written, the one of largest LOAD_HT, the later of two at the same
HT (R173). An entry of another major version does not decode (R175). -/
def standingEntry (d : Dev) (s : Nat) : Option Vault :=
  (d.cip.vault.filter (fun v => v.slot = s && v.written && v.verMajor = 1)).foldl (fun m v =>
    match m with
    | some w => if v.loadHt < w.loadHt then m else some v
    | none => some v) none

/-- The slots that standing vault entries bind, with the vault-held keys unwrapped (R173, R289). A
slot that the retention island kept stays as it is. -/
def bindSlot (d : Dev) (s : Nat) : Dev :=
  if (getSlot d s).bound then d
  else match standingEntry d s with
  | none => d
  | some v =>
    if v.eraseHt ≠ 0 then d
    else
      let key := if v.hostHeld then none else Config.unwrapKey d.board.serial v.wrapped
      let older := (d.cip.vault.filter (fun o => o.slot = s && o.written && o.verMajor = 1 && o.eraseHt = 0 && !o.hostHeld
        && o.gen ≠ v.gen)).filterMap (fun o => (Config.unwrapKey d.board.serial o.wrapped).map (fun k => (o.gen, k)))
      updSlot s (fun k => { k with
        bound := true, loaded := key.isSome, key := key.getD 0, gen := v.gen, fn := v.fn, hostHeld := v.hostHeld
        kcv := v.kcv, pfx := v.pfx, older }) d

/-- A grandmaster whose image holds no epoch creates one, its identifier drawn at random (R51); a subordinate
takes its lead's. -/
def createEpoch (d : Dev) : Dev :=
  if d.flash.epoch.isSome || d.tmb.follower then d
  else
    let (r, d) := fresh d
    { d with
      flash := { d.flash with epoch := some (r % 2 ^ 32, d.tmb.epochNs) }
      tmb := { d.tmb with epochId := r % 2 ^ 32, epochCommitted := false } }

/-- A book verifies: it is of this major version (R175), its block reads, and the cell that holds it. -/
def bookReads (d : Dev) (k : Book) : Bool :=
  k.readable && k.verMajor = 1 && !(getBlk d k.block).heldOut && (findRec d k.recordId).any (fun r => r.readable && copyReads d r.cell r.target)

/-- The newest readable sealed book of the device, by seal HT. -/
def newestBook (d : Dev) : Option Book :=
  (d.flash.books.filter (bookReads d)).foldl (fun o b =>
    match o with
    | some x => if x.sealHt < b.sealHt then some b else some x
    | none => some b) none

/-- After a power-on the last-curtain registers hold what the newest book recorded. -/
def loadCurtainRegs (d : Dev) : Dev :=
  match newestBook d with
  | none => d
  | some b =>
    let w : W32 := BitVec.ofNat 32 b.status
    if d.chp.prev ≠ .dark then d
    else { d with cur := { d.cur with
      milestone := field w 0 4, fromInt := bit w 4, plannedFlag := bit w 5, protectiveFlag := bit w 6
      stopped := bit w 7, short := bit w 8, faultFlag := bit w 9, packLost := bit w 10, listPartial := bit w 11
      seqNo := field w 24 8, failHt := b.failHt, sealHt := b.sealHt, bytes := b.bytes, saved := b.saved
      lost := b.lost, energyMj := b.energyMj, unackDropped := b.unackDropped, unackSaved := b.unackSaved
      durUs := b.durUs, msHt := b.msHt } }

/-- The pin-driving instructions of the TAP (R351). -/
def pinDriving : TapIr → Bool
  | .extest | .extestPulse | .extestTrain | .clamp | .highz => true
  | .bypass | .idcode | .samplePreload => false

/-- A block whose newest unit header is of another major version is held out (R175). -/
def checkVersion (d : Dev) (b : Nat) : Dev :=
  if (newestUnit d b).any (fun u => u.verMajor ≠ 1) then holdOut b d else d

/-- B4; not while the TAP holds the flash channels' chip enables deasserted (R351). -/
def flashReady (d : Dev) : Dev :=
  if d.chp.mode ≠ .boot || !d.rom.modulesOk || d.rom.flashReady || d.chp.fatalBoot || pinDriving d.obs.tapIr then d
  else
    let d := adoptLaid (undoTransfer (redoIntents ((blockList d).foldl checkVersion d)))
    let d := writeKeptNotes d
    let d := (List.range 64).foldl bindSlot d
    let d := loadCurtainRegs (createEpoch d)
    { d with
      flash := { d.flash with neverBooted := false }
      rom := { d.rom with flashReady := true } }
/-- FLASH_READY (B4). -/
def execFlashReady (s : State) : Answer := onDev flashReady s

/-- PLAYBILL_WRITTEN (B5): row 13. A device whose TAP has driven pins stays in BOOT (R351). -/
def execPlaybillWritten (s : State) : Answer :=
  onDev (fun d =>
    if d.chp.mode = .boot && d.rom.flashReady && !d.rom.playbill && !d.chp.fatalBoot && !d.chp.tapDrove then
      recomputeNow (transition .encore 0x02 { d with rom := { d.rom with playbill := true } })
    else d) s

/-! ### SPW_THRESH (R104) -/

/-- The bounds of R104, in mV. -/
def threshOk (t : W32) : Bool :=
  let fail := 20 * field t 0 10
  let warn := 20 * field t 10 10
  let good := 20 * field t 20 10
  9800 ≤ fail && fail ≤ 11000 && fail + 300 ≤ warn && warn + 200 ≤ good && good ≤ 12400

def spwThresh (w : W32) (d : Dev) : Dev :=
  if threshOk w then { d with spw := { d.spw with thresh := w &&& 0x3FFFFFFF } }
  else configRejected 80 0x30004 d
def execSpwThresh (w : W32) (s : State) : Answer := onDev (spwThresh w) s

end Sys2Proof.Machine
end

