-- ==== Sys2Proof/Machine/Encore.lean ====
section
/-!
DEFINITION. Encore and reconcile (chapter 8): locating the image, the header scan, winners, lists,
restoration function by function, the running order, the order store and ORDER_READ.
-/

namespace Sys2Proof.Machine

/-! ### E1: the image located (R133, R134, R148) -/

/-- Blocks that encore restores: populated and not held out. -/
def readBlocks (d : Dev) : List Nat := (blockList d).filter (fun b => !(getBlk d b).heldOut)

/-- A block's newest book that verifies. -/
def newestBookOf (d : Dev) (b : Nat) : Option Book := ((booksOf d b).filter (bookReads d)).getLast?

def encMilestone (e : Nat) (d : Dev) : Dev :=
  trace (0x030 + e) 79 (2 ^ d.board.blocks - 1) 0
    { d with enc := { d.enc with msHt := Tab.set d.enc.msHt e d.tmb.ht } }

def rcnMilestone (c : Nat) (d : Dev) : Dev :=
  trace (0x040 + c) 79 (2 ^ d.board.blocks - 1) 0
    { d with enc := { d.enc with rcnHt := Tab.set d.enc.rcnHt c d.tmb.ht } }

/-- Records that the scan reads: counted written, their head named (`headNamed`) and of this major
version, their block not held out (R20, R137, R162, R175). -/
def scanned (d : Dev) (r : Rec) : Bool :=
  r.written && headNamed d r.id && r.verMajor = 1 && !(getBlk d r.block).heldOut

/-- Lists that no RETIRE record names, with the record that carries their header, which is of this major version
(R175). -/
def unretired (d : Dev) : List (Rec × CallList) :=
  let gone := (d.flash.records.filter (fun r => r.kind = .retire && scanned d r)).map Rec.ref
  d.flash.records.filterMap (fun r =>
    if scanned d r && !gone.contains r.ref then (r.list.filter (fun l => l.verMajor = 1)).map (fun l => (r, l)) else none)

/-- A list held back: the listed block, its writer or the listed block's region partner is held out
(R141). -/
def heldBackList (d : Dev) (e : Rec × CallList) : Bool :=
  let out := fun b => populated d b && (getBlk d b).heldOut
  out e.2.block || out e.1.block || out (partner e.2.block)

/-- The newest of a block's EXPOSE and SAFE records, unretired list headers and books (R385). -/
def newestOf (d : Dev) (b : Nat) : Option Rec :=
  let lists := (unretired d).map (fun e => e.1.id)
  (d.flash.records.filter (fun r => r.home = b && scanned d r && (r.kind = .expose || r.kind = .safe
    || (r.kind = .list && lists.contains r.id)
    || (r.kind = .book && d.flash.books.any (fun k => k.recordId = r.id && bookReads d k))))).getLast?

/-- Exposed blocks with the mark's HT and mask. -/
def exposedBlocks (d : Dev) : List (Nat × Nat × Nat) :=
  (readBlocks d).filterMap (fun b =>
    match newestOf d b with
    | some r => if r.kind = .expose then some (b, r.lastHt, r.ref) else none
    | none => none)

/-- An unretired list stands after every readable sealed book. -/
def listNewest (d : Dev) : Bool :=
  let marks := d.flash.records.filter (fun r => scanned d r && (r.kind = .list || r.kind = .book))
  match (marks.filter (fun r => (r.kind = .list && (unretired d).any (fun e => e.1.id = r.id))
      || (r.kind = .book && d.flash.books.any (fun k => k.recordId = r.id && bookReads d k)))).getLast? with
  | some r => r.kind = .list
  | none => false

/-- The index reserve of a block matches the CRC that its book recorded (R148). Log entry 137. -/
def indexMatches (d : Dev) (k : Book) : Bool :=
  k.index = indexBytes d k.block || Config.indexCrc k.index = Config.indexCrc (indexBytes d k.block)

/-- The checks of R148. -/
def shortOk (d : Dev) : Bool :=
  (readBlocks d = blockList d) && (readBlocks d).all (fun b =>
    match (booksOf d b).getLast? with
    | some k => bookReads d k && k.indexSealed && k.sealHt = d.cur.sealHt && indexMatches d k
    | none => false)
  && !listNewest d && exposedBlocks d = []

/-- CHP_ENC_STATUS.KIND (Table 8.1, R133). -/
def encoreKind (d : Dev) : Nat :=
  if d.chp.sealRetained && shortOk d then
    (if (newestBook d).any (fun k => k.reason = 2) then 4 else 2)
  else if listNewest d || exposedBlocks d ≠ [] then 3
  else if d.flash.records.all (fun r => r.kind = .test) && d.flash.books = [] then 0
  else 1

def Enc.short (e : Enc) : Bool := e.kind = 2 || e.kind = 4

def imageLocated (p : Dev × List Host.Cell) : Dev × List Host.Cell :=
  let (d, m) := p
  if d.chp.mode ≠ .encore || d.enc.located then (d, m)
  else
    let kind := encoreKind d
    let seals := (readBlocks d).filterMap (fun b => (newestBookOf d b).map Book.sealHt)
    let differ := seals.any (fun h => seals.any (fun g => g ≠ h))
    let d := { d with
      enc := { d.enc with
        located := true, kind, exposed := exposedBlocks d, mismatch := differ
        shortFallback := d.chp.sealRetained && !(kind = 2 || kind = 4)
        bookOk := maskOf ((readBlocks d).filter (fun b => (newestBookOf d b).isSome)) }
      fns := Tab.mapVals (fun (f : FnSt) => { f with restored := false, keyPending := false, keyArrival := 0 }) d.fns }
    let d := if differ then postEvent 0x0C 0 seals d else d
    let d := encMilestone 1 d
    if d.enc.short then (d, m)
    else ({ d with
      pages := [], exts := [], idx := { d.idx with leftOut := [] }
      fns := Tab.mapVals (fun (f : FnSt) => { f with segs := [], respreads := [] }) d.fns, drc := { d.drc with poison := [] }
      int := { d.int with pendingGranules := [] }, chp := { d.chp with sealRetained := false } }, [])
/-- IMAGE_LOCATED (E1). -/
def execImageLocated (s : State) : Answer := onBoth imageLocated s

/-! ### E2: headers scanned (R64, R136) -/

/-- A record enciphered under a slot. -/
def Rec.enciphered (r : Rec) : Bool := r.bytes ≠ 0 && r.kind ≠ .list && r.kind ≠ .book

/-- The nonce marks of a slot's standing generation: in the newest books, but for a slot that a book shows
NONCE_UNKNOWN (Table 9.11), and in the records. -/
def nonceMarks (d : Dev) (s g : Nat) : List Nat :=
  ((readBlocks d).filterMap (newestBookOf d)).flatMap (fun k =>
      (k.nonces.filter (fun n => n.1 = s && n.2.1 = g && !k.unknown.contains s)).map (fun n => n.2.2.2.2))
    ++ (d.flash.records.filter (fun r => scanned d r && r.enciphered && r.slot = s && r.gen = g)).map Rec.inv
    ++ (d.flash.xferNonces.filter (fun n => n.1 = s && n.2.1 = g)).map (fun n => n.2.2)

/-- The counter of a slot resumes 2²⁰ above its mark, or the slot is NONCE_UNKNOWN (R136). -/
def resumeNonce (d : Dev) (s : Nat) : Dev :=
  if !(getSlot d s).bound then d
  else match nonceMarks d s (getSlot d s).gen with
  | [] => updSlot s (fun k => { k with nonceUnknown := true }) d
  | n :: ns => updSlot s (fun k => { k with
      ctr := ns.foldl max n + 2 ^ 20, hwm := ns.foldl max n, nonceUnknown := false }) d

/-- The largest SEQ of a function in the image, plus one (R64). -/
def resumeSeq (d : Dev) (f : Nat) : Nat :=
  let rs := d.flash.records.filter (scanned d)
  let seqs := (rs.filter (fun r => r.fn = f)).flatMap (fun r => r.runs.map Run.seq)
    ++ (rs.filterMap Rec.list).flatMap (fun l => (l.entries.filter (fun e => e.fn = f)).map ListEntry.seq)
    ++ (d.enc.orderStore.filter (fun e => e.fn = f)).map OrderEntry.seq
  match seqs with
  | [] => 0
  | n :: ns => (ns.foldl max n + 1) % 2 ^ 32

def headersScanned (d : Dev) : Dev :=
  if d.chp.mode ≠ .encore || !d.enc.located || d.enc.scanned then d
  else
    let d := (List.range 64).foldl resumeNonce d
    let d := fnNumbers.foldl (fun d f =>
      let n := resumeSeq d f
      if (getFn d f).seqNext = n then d else updFn f (fun s => { s with seqNext := n }) d) d
    encMilestone 2 { d with
      blk := Tab.mapVals (fun (k : Blk) => if k.heldOut then k else { k with logKnown := true })
        ((blockList d).map (fun b => (b, getBlk d b)))
      enc := { d.enc with
        scanned := true, orderStore := [], newestHt := imageNewest d
        sealHt := ((newestBook d).map Book.sealHt).getD 0
        records := min (2 ^ 32 - 1) (d.flash.records.filter (scanned d)).length } }
/-- HEADERS_SCANNED (E2). -/
def execHeadersScanned (s : State) : Answer := onDev headersScanned s

/-! ### E3: the winner of every page (R137 to R140) -/

/-- What a head says of a page: its sort key, the record and the run. -/
structure Claim where
  key : Nat
  head : Rec
  run : Run

/-- At equal HT a record wins over a note, and among records the one later in the order of R63. -/
def claimKey (r : Rec) (q : Run) : Nat :=
  let rank := match r.kind with
    | .lossNote => 0
    | .releaseNote => 1
    | _ => 2
  (((q.ht * 4 + rank) * 512 + r.hidx % 512) * 64 + r.fn % 64) * 2 ^ 32 + q.seq % 2 ^ 32

/-- Records and notes that take part in the winner rule. -/
def claims (d : Dev) : List Rec :=
  d.flash.records.filter (fun r => scanned d r
    && (r.kind = .stage || r.kind = .curtain || r.kind = .releaseNote || r.kind = .lossNote))

def claimsOf (rs : List Rec) (p : Nat) : List Claim :=
  rs.flatMap (fun r => (r.runs.filter (fun q => (runPageList q).contains p)).map (fun q =>
    { key := claimKey r q, head := r, run := q }))

/-- The winner of a page. -/
def winner (rs : List Rec) (p : Nat) : Option Claim :=
  (claimsOf rs p).foldl (fun o c =>
    match o with
    | some w => if w.key ≤ c.key then some c else some w
    | none => some c) none

/-- One extent of a run descriptor, with no identity yet. -/
def extentOf (r : Rec) (q : Run) : Extent :=
  { eid := 0, fn := r.fn, tag := q.tag, caddr := q.caddr, pages := q.extPages, ht := q.ht, cls := q.cls
    seq := q.seq, hidx := r.hidx, epochId := r.epochId }

/-- Records of other extents that carry a page at the winner's HT (R138). -/
def equals (rs : List Rec) (p : Nat) (w : Claim) : List Claim :=
  (claimsOf rs p).filter (fun c => c.run.ht = w.run.ht && c.head.id ≠ w.head.id
    && extentOf c.head c.run ≠ extentOf w.head w.run && (c.head.kind = .stage || c.head.kind = .curtain))

/-- Every page that some head names, but for those of a block held out, which is not restored now (R135). -/
def namedPages (d : Dev) (rs : List Rec) : List Nat :=
  (rs.flatMap (fun r => r.runs.flatMap runPageList)).eraseDups.filter (fun p => !(getBlk d (blockOf (pageAddr p))).heldOut)

/-- Place of a position in a block's ring order, and within its stripe by serial. -/
def placeKey (d : Dev) (b pos id : Nat) : Nat := ((pos + 200 - (getBlk d b).wb) % 200) * 2 ^ 56 + id % 2 ^ 56
def ringPlace (d : Dev) (r : Rec) : Nat := placeKey d r.block r.position r.id

/-- Bodies of a unit that no head names: in a closed unit every one that no locator covers, in an open one
those between named bodies (R162). -/
def unnamedIn (d : Dev) (u : FUnit) : List Nat :=
  let known := fun (x : Nat × Nat × Nat) => d.flash.records.any (fun r => r.id = x.1 && r.written && headNamed d r.id)
  let loose := u.bodies.filter (fun x => !known x)
  let between := fun (x : Nat × Nat × Nat) =>
    u.bodies.any (fun y => known y && y.2.1 < x.2.1) && u.bodies.any (fun y => known y && x.2.1 < y.2.1)
  (if u.closeHt.isSome then loose else loose.filter between).map (fun x =>
    if u.position < 200 then placeKey d (u.cell / 8) u.position x.1 else 0)

/-- Places of a block's unnamed records: bodies that no head names, retired units aside, and records of another
major version (R162, R175). -/
def unnamedOf (d : Dev) (b : Nat) : List Nat :=
  if (getBlk d b).heldOut then []
  else
    (d.flash.units.filter (fun u => u.cell / 8 = b
        && !d.flash.retired.contains (u.cell, u.target, u.position))).flatMap (unnamedIn d)
      ++ (d.flash.records.filter (fun r => r.block = b && r.written && r.verMajor ≠ 1)).map (ringPlace d)

/-- R140: an unnamed record of the block stands later in ring order, or the winner is in TLC. -/
def suspect (d : Dev) (r : Rec) : Bool :=
  (unnamedOf d r.block).any (fun n => !r.onSlc || ringPlace d r < n)

/-- An entry of the index is the extent `x`, whichever identity it has there and whether it has a page or not. -/
def Extent.isExtent (y x : Extent) : Bool := { y with eid := 0, legacy := false } = { x with eid := 0, legacy := false }

/-- The extent of a run that wins a page, entered once; one that had been entered or left out for a page lost at
equal HT has an own page now. -/
def enterExtent (x : Extent) (d : Dev) : Nat × Dev :=
  let d := { d with idx := { d.idx with leftOut := d.idx.leftOut.filter (fun y => !y.isExtent x) } }
  match d.exts.find? (fun y => y.isExtent x) with
  | some y => (y.eid, if y.legacy then
      { d with exts := d.exts.map (fun z => if z.eid = y.eid then { z with legacy := false } else z) } else d)
  | none => (d.nextEid, { d with exts := d.exts ++ [{ x with eid := d.nextEid }], nextEid := d.nextEid + 1 })

/-- A legacy extent that loses a page at equal HT is entered too while index slots remain, else left out (R138,
R273). -/
def enterLegacy (x : Extent) (d : Dev) : Dev :=
  if d.exts.any (fun y => y.isExtent x) || d.idx.leftOut.any (fun y => y.isExtent x) then d
  else if idxSlots d ≤ idxEntries d (blockOf x.caddr) then
    { d with idx := { d.idx with leftOut := d.idx.leftOut ++ [{ x with legacy := true }] } }
  else { d with exts := d.exts ++ [{ x with eid := d.nextEid, legacy := true }], nextEid := d.nextEid + 1 }

/-- What a page holds by its winner; data is restored later, at the function's E4. -/
def placeWinner (rs : List Rec) (d : Dev) (p : Nat) : Dev :=
  match winner rs p with
  | none => d
  | some c =>
    let bad := fun (r : Rec) => !r.reads d || suspect d r
    match c.head.kind with
    | .lossNote => updPage p (fun _ => { kind := if c.head.ref = 0 then .plost else .lost, fn := c.head.fn }) d
    | .releaseNote =>
      if !c.head.keep then d
      else match findRec d c.head.ref with
      | none => d
      | some r =>
        if scanned d r && r.reads d then
          let (eid, d) := match r.runs.find? (fun q => (runPageList q).contains p) with
            | some q => enterExtent (extentOf r q) d
            | none => (0, d)
          updPage p (fun _ => { kind := .clean, eid, fn := r.fn, record := some r.id, restorePend := true
                                untrusted := suspect d r }) d
        else d
    | _ =>
      let d := (equals rs p c).foldl (fun d l => enterLegacy (extentOf l.head l.run) d) d
      let (eid, d) := enterExtent (extentOf c.head c.run) d
      updPage p (fun _ => { kind := .held, eid, fn := c.head.fn, record := some c.head.id, restorePend := true
                            untrusted := bad c.head }) d

/-! ### Lists, UNACK entries and exposed blocks (R141 to R143, R385) -/

/-- Pages of a held entry that no record or note at or after its commit HT covers (R141). The record that an
amendment replaces covers nothing where it does not read: pages of the amendment that were not saved are lost
(Table 6.3). -/
def unsatisfied (d : Dev) (rs : List Rec) (e : ListEntry) : List Nat :=
  (pagesOf e.caddr e.pages).filter (fun p =>
    match winner rs p with
    | some c => c.run.ht < e.ht
        || (e.amend && c.run.ht = e.ht && (c.head.kind = .stage || c.head.kind = .curtain) && !c.head.reads d)
    | none => true)

/-- The restore-list entry of a list's entry; index and epoch are of the list's own record (R63, R163). -/
def entryOf (r : Rec) (e : ListEntry) (status : Nat) : OrderEntry :=
  { ht := e.ht, tag := e.tag, caddr := e.caddr, pages := e.pages, fn := e.fn, cls := e.cls, status, seq := e.seq
    hidx := r.hidx, epochId := r.epochId, unack := e.unack, poisoned := 0, descId := e.descId }

/-- The UNACK record of an entry, if it counts written. -/
def unackRecord (d : Dev) (e : ListEntry) : Option Rec :=
  d.flash.records.find? (fun r => r.kind = .unack && scanned d r && r.fn = e.fn
    && r.runs.any (fun q => q.ht = e.ht && q.caddr = e.caddr))

def addEntry (o : OrderEntry) (d : Dev) : Dev := { d with enc := { d.enc with order := d.enc.order ++ [o] } }

/-- A list's entry has been reported already, from another list that names it (R63). -/
def told (d : Dev) (e : ListEntry) : Bool :=
  d.enc.order.any (fun o => o.ht = e.ht && o.caddr = e.caddr && o.fn = e.fn && o.unack = e.unack)

/-- One list entry resolved (R141, R142). -/
def resolveEntry (rs : List Rec) (head : Rec) (l : CallList) (d : Dev) (e : ListEntry) : Dev :=
  if told d e then d
  else if e.unack then
    match unackRecord d e with
    | some r =>
      addEntry { entryOf head e (if r.reads d then stSuccess else stUntrusted) with
          poisoned := (r.poison.map pageOf).eraseDups.length }
        { d with enc := { d.enc with unackWrites := d.enc.unackWrites ++ [(e.fn, r.id)] } }
    | none => addEntry (entryOf head e stLost) d
  else
    match unsatisfied d rs e with
    | [] => d
    | ps =>
      let x : Extent := {
        eid := 0, fn := e.fn, tag := e.tag, caddr := e.caddr, pages := e.pages, ht := e.ht, cls := e.cls, seq := e.seq
        hidx := head.hidx, epochId := head.epochId }
      let d := updPages ps (fun _ => { kind := .lost, fn := e.fn }) d
      addEntry (entryOf head e stLost) { d with enc := { d.enc with
        lost := d.enc.lost + 1
        lossNotes := d.enc.lossNotes ++ [{ block := l.block, list := l.listId, base := l.baseList = 0, ext := x, pages := ps }] } }

/-- Part `i` of a list's chain reads (R168). -/
def partReads (d : Dev) (l : CallList) (i : Nat) : Bool :=
  d.flash.records.any (fun r => r.kind = .list && r.ref = l.listId && r.part = i && scanned d r && r.readable
    && copyReads d r.cell r.target)

/-- A list is complete when all its entry pages verify. -/
def listComplete (d : Dev) (l : CallList) : Bool :=
  l.torn.isNone && ((List.range (partPages (1 + entryPages l.entries.length)).length).all (partReads d l))

/-- The entries that verify. -/
def readEntries (d : Dev) (l : CallList) : List ListEntry :=
  let es := match l.torn with
    | some n => l.entries.take (127 * n)
    | none => l.entries
  ((List.range (partPages (1 + entryPages l.entries.length)).length).filter (partReads d l)).flatMap (partEntries es)

/-- The mask of the newest EXPOSE of a block before a list. -/
def maskBefore (d : Dev) (b id : Nat) : Nat :=
  (((d.flash.records.takeWhile (fun r => r.id ≠ id)).filter (fun r =>
    r.home = b && r.kind = .expose && scanned d r)).getLast?.map Rec.ref).getD 0

/-- A loss reported by range (R119): PROTECTION_LOST for each function over the block's whole cache
range, with an HT range and a byte count. -/
def rangeReport (b first last bytes : Nat) (fs : List Nat) (d : Dev) : Dev :=
  fs.foldl (fun d f => postEvent 8 f [b * blockSpan, usable d, first, last, bytes] d)
    { d with cur := { d.cur with listPartial := true } }

def maskFns (mask : Nat) : List Nat := fnNumbers.filter (fun f => mask.testBit f)

/-- One unretired list resolved, or reported by range where its entries are incomplete. -/
def resolveList (rs : List Rec) (d : Dev) (e : Rec × CallList) : Dev :=
  if heldBackList d e then d
  else
    let l := e.2
    let d := { d with enc := { d.enc with resolved := d.enc.resolved ++ [e.1.id] } }
    if listComplete d l then l.entries.foldl (resolveEntry rs e.1 l) d
    else
      let fs := fnNumbers.filter (fun f => (maskBefore d l.block e.1.id).testBit f || (readEntries d l).any (fun x => x.fn = f))
      rangeReport l.block l.firstHt l.lastHt l.listedBytes fs
        { d with enc := { d.enc with rangeBytes := d.enc.rangeBytes + (if l.baseList = 0 then l.listedBytes else 0) } }

/-- R119 ended the curtain that wrote a list: no seal followed it, and it is a curtain's own list, or that of an
intermission of which a curtain began to save. -/
def cutShort (d : Dev) (e : Rec × CallList) : Bool :=
  let after := (d.flash.records.dropWhile (fun r => r.id ≠ e.1.id)).filter (scanned d)
  !(after.any (fun r => r.kind = .book))
    && (e.2.trigger = 1 || e.2.trigger = 2 || (e.2.trigger = 3 && after.any (fun r => r.kind = .curtain)))

/-- The last-curtain registers after an unsealed encore (R143): bytes of the base lists, and as lost those
reported LOST_AT_CURTAIN or by range. A block with exposure marks and no list is taken as R119's. DEDUCED
(log entry 170). -/
def unsealedRegs (d : Dev) : Dev :=
  let ls := (unretired d).filter (fun e => !heldBackList d e)
  let lostOf := fun (ns : List LossNote) => sumNat (ns.map (fun n => pageBytes * n.pages.length))
  let bytes := sumNat ((ls.filter (fun e => e.2.baseList = 0)).map (fun e => e.2.listedBytes))
  let un := d.enc.order.filter OrderEntry.unack
  { d with cur := { d.cur with
    bytes, lost := lostOf d.enc.lossNotes + d.enc.rangeBytes
    saved := bytes - lostOf (d.enc.lossNotes.filter LossNote.base) - d.enc.rangeBytes
    unackDropped := (un.filter (fun e => e.status = stLost)).length
    unackSaved := (un.filter (fun e => e.status ≠ stLost)).length
    failHt := (ls.map (fun e => e.2.triggerHt)).foldl max 0
    packLost := ls.any (cutShort d) || d.enc.exposed ≠ []
    sealHt := 0, energyMj := 0, durUs := 0, msHt := [] } }

/-! ### Entries and functions after E3 -/

/-- A record of an extent that lost its page at equal HT does not read, or may have been superseded. -/
def legacyBad (d : Dev) (rs : List Rec) (x : Extent) : Bool :=
  x.legacy && rs.any (fun r => (r.kind = .stage || r.kind = .curtain)
    && r.runs.any (fun q => (extentOf r q).isExtent x) && (!r.reads d || suspect d r))

/-- Restore-list entries of the held extents (R137, R139, R153), and of those that lost a page at equal HT and won
none (R273): these have no winning page, and their status tells whether their record reads. DEDUCED (log
entry 171). -/
def extentEntries (d : Dev) (rs : List Rec) : List OrderEntry :=
  (d.exts ++ d.idx.leftOut).filterMap (fun x =>
    let own := (ownPages d x).filter (fun p => (getPage d p).kind = .held)
    if own = [] && !x.legacy then none
    else
      let recs := (own.filterMap (fun p => (getPage d p).record)).eraseDups.filterMap (findRec d)
      some {
        ht := x.ht, tag := x.tag, caddr := x.caddr, pages := x.pages, fn := x.fn, cls := x.cls
        status := if own.any (fun p => (getPage d p).untrusted) || legacyBad d rs x then stUntrusted else stSuccess
        seq := x.seq, hidx := x.hidx, epochId := x.epochId, unack := false
        poisoned := (own.filter (fun p => recs.any (fun r => r.poison.any (fun a => pageOf a = p))
          || d.drc.poison.any (fun a => pageOf a = p))).length
        descId := 0, partialExt := own.length < x.pages, suspect := recs.any (suspect d) })

/-- The UNACK record of a restore-list entry is found not to read. -/
def unackBad (d : Dev) (e : OrderEntry) : Bool :=
  d.flash.records.any (fun r => r.kind = .unack && scanned d r && r.fn = e.fn && !r.reads d
    && r.runs.any (fun q => q.ht = e.ht && q.caddr = e.caddr))

/-- Extents whose winning data, and UNACK holds whose data, is found untrusted after E3 change their entry's status,
the extents the count too (R139, R142). -/
def refreshStatus (d : Dev) : Dev :=
  if !d.enc.chosen then d
  else
    let bad := fun (e : OrderEntry) => e.status = stSuccess && (if e.unack then unackBad d e else d.exts.any (fun x =>
      x.ht = e.ht && x.caddr = e.caddr && x.fn = e.fn
        && (ownPages d x).any (fun p => (getPage d p).kind = .held && (getPage d p).untrusted)))
    { d with enc := { d.enc with
      untrusted := d.enc.untrusted + (d.enc.order.filter (fun e => bad e && !e.unack)).length
      order := d.enc.order.map (fun e => if bad e then { e with status := stUntrusted } else e)
      orderStore := d.enc.orderStore.map (fun e => if bad e then { e with status := stUntrusted } else e) } }

/-- Bytes still to restore of a function. -/
def pendingPages (d : Dev) (f : Nat) : List (Nat × Page) := d.pages.filter (fun e => e.2.restorePend && e.2.fn = f)

/-- A function with data waiting for E4. -/
def toRestore (d : Dev) (f : Nat) : Bool :=
  pendingPages d f ≠ [] || d.enc.unackWrites.any (fun u => u.1 = f)

/-- Every function's state after E3: key-pending, or restored at once where nothing waits. A short
encore restores the functions that hold data here (R144, R148). A function with no data is set restored without
an event: the spec does not say. DESIGN CHOICE (log entry 165). -/
def settleFns (d : Dev) : Dev :=
  fnNumbers.foldl (fun d f =>
    let wait := waitsKey d f
    let d := updFn f (fun s => { s with keyPending := wait, restored := !wait && !toRestore d f }) d
    if d.enc.short && (getFn d f).restored && d.exts.any (fun x => x.fn = f) then postEvent 9 f [f] d else d) d

def winnersChosen (d : Dev) : Dev :=
  if d.chp.mode ≠ .encore || !d.enc.scanned || d.enc.chosen then d
  else
    let rs := claims d
    let d := if d.enc.short then d else (namedPages d rs).foldl (placeWinner rs) d
    let d : Dev := (unretired d).foldl (resolveList rs) d
    let d : Dev := d.enc.exposed.foldl (fun d e => rangeReport e.1 e.2.1 e.2.1 (2 ^ 64 - 1) (maskFns e.2.2) d) d
    let d := prune d
    let es := extentEntries d rs
    let d : Dev := { d with enc := { d.enc with
      chosen := true, order := es ++ d.enc.order
      unackWrites := if d.enc.short then [] else d.enc.unackWrites
      unnamed := (blockList d).any (fun b => unnamedOf d b ≠ [])
      untrusted := (es.filter (fun (e : OrderEntry) => e.status = stUntrusted)).length
      total := pageBytes * (d.pages.filter (fun (e : Nat × Page) => e.2.restorePend)).length } }
    let d : Dev := { d with enc := { d.enc with extents := (runEntries d).length } }
    let d := if d.enc.kind = 3 then unsealedRegs d else d
    encMilestone 3 (settleFns d)
/-- WINNERS_CHOSEN (E3). -/
def execWinnersChosen (s : State) : Answer := onDev winnersChosen s

/-! ### E4 to E6 (R144 to R146) -/

def fnHostHeld (d : Dev) (f : Nat) : Bool := fnCustody d f = 1

/-- Place of a function in the order of R145. -/
def restoreKey (d : Dev) (f : Nat) : Nat :=
  if bit d.enc.first f then f
  else if !fnHostHeld d f then 64 + f
  else 128 + (getFn d f).keyArrival

/-- The function whose E4 comes next. -/
def nextRestore (d : Dev) : Option Nat :=
  (sortBy (restoreKey d) (fnNumbers.filter (fun f => toRestore d f && !(getFn d f).restored && !(getFn d f).keyPending))).head?

/-- UNACK data goes to DRAM but for pages whose winner is held (R142). -/
def writeUnack (id : Nat) (p : Dev × List Host.Cell) : Dev × List Host.Cell :=
  let (d, m) := p
  match findRec d id with
  | none => (d, m)
  | some r =>
    let ps := (r.runs.flatMap runPageList).filter (fun p => (getPage d p).kind ≠ .held)
    let stay := d.drc.poison.filter (fun a => !ps.contains (pageOf a))
    ({ d with drc := { d.drc with poison := stay ++ r.poison.filter (fun a => ps.contains (pageOf a)) } },
      ps.foldl (fun m p =>
        let m := memClear m (pageAddr p) pageBytes
        if r.reads d then memOverlay m (memSlice r.body (pageAddr p) pageBytes)
        else memWriteBytes m (pageAddr p) (sensedPage r p)) m)

def restoreFn (f : Nat) (p : Dev × List Host.Cell) : Dev × List Host.Cell :=
  let (d, m) := p
  if !d.enc.chosen || nextRestore d ≠ some f || d.chp.mode = .curtain || d.chp.mode = .sealed
      || d.chp.mode = .dark || d.chp.mode = .intermission || d.chp.mode = .boot || d.chp.mode = .service then (d, m)
  else
    let ps := pendingPages d f
    let unack := (d.enc.unackWrites.filter (fun u => u.1 = f)).map Prod.snd
    let d := (recordsOf ps ++ unack).foldl (fun d id => senseCopies 2 id d) d
    let (d, m) := ps.foldl (fun p e => reloadPage e p) (d, m)
    let d := updPages (ps.map Prod.fst) (fun g => { g with restorePend := false }) d
    let (d, m) := unack.foldl (fun p id => writeUnack id p) (d, m)
    let d := (recordsOf ps).foldl (fun d id =>
      match findRec d id with
      | some r => countCell (r.readCell d) 0 (segmentsOf r.bytes) d
      | none => d) d
    let d := (blockList d).foldl (fun d b =>
      countBlk b 3 (pageBytes * (ps.filter (fun e => blockOf (pageAddr e.1) = b)).length) d) d
    let d := (List.range 64).foldl (fun d s =>
      if (getSlot d s).bound && (getSlot d s).fn = f && (getSlot d s).older ≠ [] then
        updSlot s (fun k => { k with older := [] }) d else d) d
    let d := updFn f (fun s => { s with restored := true })
      { d with enc := { d.enc with
        done := d.enc.done + pageBytes * ps.length, unackWrites := d.enc.unackWrites.filter (fun u => u.1 ≠ f) } }
    (refreshStatus (postEvent 9 f [f] (encMilestone 4 d)), m)
/-- FUNCTION_RESTORED (E4), in the order of R145; not in SERVICE, where no flow writes cache DRAM (R40). -/
def execFunctionRestored (f : Nat) (s : State) : Answer := onBoth (restoreFn f) s

/-- Every function with data in a block is restored or key-pending. -/
def blockReady (d : Dev) (b : Nat) : Bool :=
  d.pages.all (fun e => !(e.2.restorePend && blockOf (pageAddr e.1) = b) || (getFn d e.2.fn).keyPending)
    && d.enc.unackWrites.all (fun u => (getFn d u.1).keyPending || match findRec d u.2 with
      | some r => r.home ≠ b
      | none => true)

def blockRestored (b : Nat) (d : Dev) : Dev :=
  if d.chp.mode ≠ .encore || !d.enc.chosen || !(readBlocks d).contains b || d.enc.blockDone.contains b
      || !blockReady d b then d
  else
    let d := { d with enc := { d.enc with blockDone := b :: d.enc.blockDone } }
    let d := trace 0x035 79 (maskOf d.enc.blockDone) 0 d
    if (readBlocks d).all (fun k => d.enc.blockDone.contains k) then
      { d with enc := { d.enc with msHt := Tab.set d.enc.msHt 5 d.tmb.ht } } else d
/-- BLOCK_RESTORED (E5). -/
def execBlockRestored (b : Nat) (s : State) : Answer := onDev (blockRestored b) s

/-- The restore summary (R149, R188) of this device. -/
def ownSummary (d : Dev) : SummaryFrame :=
  let hts := (runEntries d).map OrderEntry.ht
  { newestHt := d.enc.newestHt, sealHt := d.enc.sealHt
    firstHt := hts.foldl min (hts.headD 0), lastHt := hts.foldl max 0
    entries := hts.length, lost := d.enc.lost, untrusted := d.enc.untrusted
    keyPending := (fnNumbers.filter (fun f => (getFn d f).keyPending)).length
    epochId := d.tmb.epochId, heldOut := maskOf ((blockList d).filter (fun b => (getBlk d b).heldOut)) }

/-- C1: a worker sends its summary; the lead and a standalone device take their own (R149). -/
def sendSummary (d : Dev) : Dev :=
  if subordinate d then sendFrame 8 (leadIndex d) true (summaryBytes (ownSummary d) d.enc.kind) d else d

/-- R62: a lead that is not above the newest stamp of every summary steps to the largest + 4,000,000 ticks. -/
def raiseHt (d : Dev) : Dev :=
  let top := (d.hrk.summaries.map (fun s => max s.2.newestHt s.2.sealHt)).foldl max 0
  if actsLead d && d.chp.mode = .reconcile && d.tmb.ht ≤ top && top ≠ 0 then stepForward (top + 4000000) d else d

def encoreComplete (d : Dev) : Dev :=
  if d.chp.mode ≠ .encore || !d.enc.chosen
      || !(d.enc.short || (readBlocks d).all (fun b => d.enc.blockDone.contains b)) then d
  else
    let d := encMilestone 6 d
    let d := countChip 15 1 (recomputeNow (transition .reconcile 0x03 { d with chp := { d.chp with sealRetained := false } }))
    tryC2 (raiseHt (sendSummary (rcnMilestone 1 d)))
/-- ENCORE_COMPLETE (E6, row 14, C1). -/
def execEncoreComplete (s : State) : Answer := onDev encoreComplete s

/-! ### The running order (R63, R65, R67, R150) -/

/-- Bound of a class in ticks (Table 3.2). -/
def classBound (c : Nat) : Nat := 8 * 4 ^ c

/-- Two entries are linked (R65). -/
def linked (a b : Nat × OrderKey) : Bool :=
  a.1 ≠ b.1 && (a.2.cls = 15 || b.2.cls = 15
    || max a.2.ht b.2.ht - min a.2.ht b.2.ht < classBound a.2.cls + classBound b.2.cls)

/-- Give every member of both groups the lower number. -/
def joinGroups (g h : Nat) (gs : List Nat) : List Nat := gs.map (fun x => if x = max g h then min g h else x)

/-- Group numbers by position: start apart, then join the groups of every linked pair. -/
def groupsOf (es : List (Nat × OrderKey)) : List Nat :=
  let idx := es.zipIdx
  idx.foldl (fun gs a => idx.foldl (fun gs b =>
    if a.2 < b.2 && linked a.1 b.1 then joinGroups (gs.getD a.2 0) (gs.getD b.2 0) gs else gs) gs)
    (List.range es.length)

/-- Positions and groups of one epoch's segment: each entry with its place. -/
def placeSegment (es : List (Nat × OrderKey)) : List ((Nat × OrderKey) × OrderPlace) :=
  let es := sortBy (fun e => orderKeyNat e.2) es
  let gs := groupsOf es
  es.zipIdx.map (fun e =>
    let g := gs.getD e.2 0
    (e.1, { position := e.2, group := g, conc := 1 < (gs.filter (· = g)).length }))

/-- All segments, one for each epoch (R67); a device index stands for the device of an entry. R150 links a
standalone device's entries only "across epoch segments", and R67 never interleaves segments: the model links no
two entries of different segments. DESIGN CHOICE (log entry 145). -/
def placeAll (es : List (Nat × OrderKey)) : List ((Nat × OrderKey) × OrderPlace) :=
  ((es.map (fun e => e.2.epochId)).eraseDups).flatMap (fun ep =>
    placeSegment (es.filter (fun e => e.2.epochId = ep)))

/-- Give this device's running-order entries their places, in the order of their local index. -/
def takePlaces (places : List (Nat × OrderPlace)) (unmerged : Bool) (d : Dev) : Dev :=
  let step := fun (acc : List OrderEntry × Nat) (e : OrderEntry) =>
    if e.unack then (acc.1 ++ [e], acc.2)
    else
      let e := match places.find? (fun p => p.1 = acc.2) with
        | some (_, q) => { e with position := q.position, group := q.group, conc := q.conc, unmerged }
        | none => { e with unmerged }
      (acc.1 ++ [e], acc.2 + 1)
  { d with enc := { d.enc with order := (d.enc.order.foldl step ([], 0)).1 } }

def ownEntries (d : Dev) : List (Nat × OrderKey) := (ownKeys d).map (fun k => (d.hrk.index, k))

/-- A local order: positions and groups within the device alone (R150). -/
def mergeLocal (unmerged : Bool) (d : Dev) : Dev :=
  let places := (placeAll (ownEntries d)).map (fun e => (e.1.2.localIdx, e.2))
  let d := takePlaces places unmerged d
  rcnMilestone 3 { d with enc := { d.enc with merged := !unmerged, unmerged } }

/-- RECON_RESULT frames of up to 255 results for one device; `n` bounds the frames. -/
def sendResults : Nat → Nat → Nat → List OrderPlace → Dev → Dev
  | 0, _, _, _, d => d
  | n + 1, dst, first, ps, d =>
    if ps = [] then d
    else
      let now := ps.take 255
      sendResults n dst (first + now.length) (ps.drop 255)
        (sendFrame 0x0A dst true (resultsBytes first now) d)

/-- A device has reported: every key of its summary has come in, which it sends once HT is above its newest stamp;
one without an entry has shown that HT in a status (R62). -/
def reported (d : Dev) (i : Nat) (s : SummaryFrame) : Bool :=
  (d.hrk.keys.filter (fun k => k.1 = i)).length = s.entries
    && (s.entries ≠ 0 || max s.newestHt s.sealHt < (Tab.get {} d.hrk.nodes i).status.sentHt)

/-- The places of a device's keys, in the order of its keys, told by the FIRST of their frames (R188). -/
def placesOf (all : List ((Nat × OrderKey) × OrderPlace)) (ks : List (Nat × Nat × OrderKey)) (i : Nat) : List OrderPlace :=
  (sortBy (fun k => k.2.1) (ks.filter (fun k => k.1 = i))).filterMap (fun k => (all.find? (fun e => e.1 = (k.1, k.2.2))).map Prod.snd)

/-- The lead's merge of every stream that has come in whole, its results and RECON_DONE (R62, R188). -/
def mergeAll (d : Dev) : Dev :=
  let whole := d.hrk.summaries.filter (fun s => reported d s.1 s.2)
  let all := placeAll (ownEntries d ++ (d.hrk.keys.filter (fun k => whole.any (fun s => s.1 = k.1))).map (fun k => (k.1, k.2.2)))
  let devs := whole.map Prod.fst
  let d := takePlaces ((all.filter (fun e => e.1.1 = d.hrk.index)).map (fun e => (e.1.2.localIdx, e.2))) false d
  let left := d.hrk.dir.any (fun e => e.hidx ≠ d.hrk.index && !devs.contains e.hidx)
  let d := devs.foldl (fun d i =>
    let ps := placesOf all d.hrk.keys i
    sendResults (ps.length + 1) i 0 ps d) d
  let d := if devs = [] then d else sendDown 0x0B (reconDoneBytes (devs.length + 1)) d
  rcnMilestone 3 { d with
    enc := { d.enc with merged := true, partialMerge := left }
    hrk := { d.hrk with summaries := [], keys := [] } }

/-- Every present device has reported, with all its keys. -/
def allReported (d : Dev) : Bool :=
  d.hrk.nodes.all (fun e => !e.2.present || e.1 = d.hrk.index || d.hrk.summaries.any (fun s => s.1 = e.1))
    && d.hrk.summaries.all (fun s => reported d s.1 s.2)

def rcnOpen (d : Dev) : Bool := d.chp.mode = .reconcile && !d.enc.merged && !d.enc.unmerged

/-- The lead's mode as last heard is a settled one (R150). -/
def leadSettled (d : Dev) : Bool := d.hrk.upMode = 4 || d.hrk.upMode = 5 || d.hrk.upMode = 6

/-- MERGE_COMPLETE (C3): a standalone device merges locally, the lead when all have reported, and a
worker whose manager is already in a settled mode takes a local order. -/
def mergeComplete (d : Dev) : Dev :=
  if !rcnOpen d || Tab.get 0 d.enc.rcnHt 2 = 0 then d
  else if d.hrk.role = 0 then mergeLocal false d
  else if d.hrk.lead then (if allReported d && !d.hrk.waitResponses then mergeAll d else d)
  else if leadSettled d then mergeLocal true d
  else d
def execMergeComplete (s : State) : Answer := onDev mergeComplete s

/-- RECONCILE_TIMEOUT (R150): the lead merges what it has; another device keeps a local order. -/
def reconcileTimeout (d : Dev) : Dev :=
  if !rcnOpen d then d
  else
    let d := { d with enc := { d.enc with timedOut := true } }
    if d.hrk.role = 0 then mergeLocal false d
    else if d.hrk.lead && !d.hrk.waitResponses then mergeAll d
    else mergeLocal true d
def execReconcileTimeout (s : State) : Answer := onDev reconcileTimeout s

/-! ### C4 and C5 (R151, R154) -/

/-- Loss notes of the extents reported LOST_AT_CURTAIN (R151). -/
def writeLossNotes (d : Dev) : Dev :=
  let d := d.enc.lossNotes.foldl (fun d n =>
    match listLog d n.block with
    | none => d
    | some lb =>
      headAs n.ext.epochId n.ext.hidx
        (headOnly lb n.block .lossNote n.ext.fn (noteRunsOf n.ext n.ext.ht n.pages) n.ext.ht n.list true d)) d
  { d with enc := { d.enc with lossNotes := [] } }

/-- Held pages whose record a cell failure took during encore enter the unstaged counts (R97). -/
def takeRestage (d : Dev) : Dev :=
  { d with pages := Tab.mapVals (fun (g : Page) =>
      if g.restage && g.record.isNone && g.kind = .held then { g with unstaged := true } else g) d.pages }

def orderStoreWritten (d : Dev) : Dev :=
  if d.chp.mode ≠ .reconcile || !(d.enc.merged || d.enc.unmerged) then d
  else
    let d := rcnMilestone 4 { d with enc := { d.enc with orderStore := d.enc.order } }
    let d := recompute (takeRestage (rcnMilestone 5 d))
    let d := enterSettled (if d.enc.timedOut then 0x04 else 0x15) d
    let d := writeLossNotes (retireLists d.enc.resolved d)
    let d := { d with enc := { d.enc with resolved := [] }, cur := { d.cur with lists := [] } }
    reevaluate false (sendAllDir d)
/-- ORDER_STORE_WRITTEN (C4, C5, row 15). -/
def execOrderStoreWritten (s : State) : Answer := onDev orderStoreWritten s

/-! ### ORDER_READ (R152, R153) -/

/-- An order entry's bytes (Table 8.4). -/
def orderBytes (epoch : Nat) (e : OrderEntry) : List Byte :=
  let none8 := 2 ^ 64 - 1
  withCrc (leBytes 8 e.ht ++ leBytes 8 (if e.unack then none8 else e.position)
    ++ leBytes 8 (if e.unack then none8 else e.group) ++ leBytes 8 e.tag ++ leBytes 8 (e.caddr % 2 ^ 40)
    ++ leBytes 4 e.seq ++ leBytes 2 (e.hidx % 512) ++ leBytes 1 e.fn
    ++ leBytes 1 (boolNat e.conc + 2 * boolNat e.unmerged + 4 * boolNat (e.epochId ≠ epoch) + 8 * boolNat e.unack
        + 16 * boolNat e.partialExt + 32 * boolNat e.suspect)
    ++ leBytes 2 e.pages ++ leBytes 1 e.status ++ leBytes 1 (e.cls % 16) ++ leBytes 4 e.epochId
    ++ leBytes 4 e.poisoned)

/-- The entries that ORDER_READ reads. -/
def orderEntries (d : Dev) : List OrderEntry :=
  if d.chp.mode = .reconcile then d.enc.order else d.enc.orderStore

/-- The entries of a function in a scope, in its order. -/
def scopeEntries (d : Dev) (f scope : Nat) : List OrderEntry :=
  let mine := (orderEntries d).filter (fun e => e.fn = f && !e.released)
  if scope = 0 then sortBy (fun e => e.ht * 2 ^ 32 + e.seq) mine
  else sortBy (fun e => (if e.epochId = d.tmb.epochId then 0 else e.epochId + 1) * 2 ^ 64 + e.position)
    (mine.filter (fun e => !e.unack))

/-- Bytes as the cells of one host write. -/
def asCells (bs : List Byte) : List Cell := bs.zipIdx.map (fun e => (e.2, e.1))

def releaseOrder (f : Nat) (d : Dev) : Dev :=
  let mark := fun (es : List OrderEntry) => es.map (fun e => if e.fn = f then { e with released := true } else e)
  { d with enc := { d.enc with order := mark d.enc.order, orderStore := mark d.enc.orderStore } }

def orderRead (h : Nat) (d : Dev) : Dev :=
  match begin h false 7 d with
  | (none, d) => d
  | (some x, d) =>
    let d := countFn x.fn 11 1 d
    let scope := field x.entry.p0 0 1
    if scope = 1 && d.chp.mode = .reconcile && !d.enc.merged && !d.enc.unmerged then endWith x stBusy 0 0 d
    else
      let es := (scopeEntries d x.fn scope).drop x.entry.p1
      if es = [] then endWith x stNotFound 0 0 d
      else
        let now := es.take (x.entry.hlen / 64)
        let bs := now.flatMap (orderBytes d.tmb.epochId)
        let d := emit (.hostWrite x.fn x.entry.haddr bs.length (asCells bs) false (relaxed d x)) d
        let d := if bit x.entry.flags 4 then releaseOrder x.fn d else d
        endWith x stSuccess now.length bs.length d
/-- ORDER_READ. -/
def execOrderRead (h : Nat) (s : State) : Answer := onDev (orderRead h) s

end Sys2Proof.Machine
end

