-- ==== Sys2Proof/Machine/Faults.lean ====
section
/-!
DEFINITION. Faults of cells, blocks and regions (R18, R20 to R24, R97, R284, R336 to R342, Table 6.3).
-/

namespace Sys2Proof.Machine

/-- The newest record of an island whose code is below a region's: the cause of the next level's. -/
def lastSeq (d : Dev) (island : Nat) : Nat :=
  match d.err.records.find? (fun r => r.island = island) with
  | some r => r.seq
  | none => 0xFFFFFFFF

/-! ### Pages whose live record can no longer be read (R97, Table 6.3) -/

/-- Pages of the records lost in BOOT, ENCORE and RECONCILE: restored held pages wait for the settled
mode, a page not yet restored reads as R139 says, its entry with it, a clean one not yet restored as released.
Before E3 no page is placed: the winner rule then finds the record unreadable. -/
def lostEarly (lostRec : Nat → Bool) (d : Dev) : Dev :=
  let step := fun (e : Nat × Page) =>
    match e.2.record with
    | some id =>
      if !lostRec id then e
      else if e.2.restorePend then
        (if e.2.kind = .held then (e.1, { e.2 with untrusted := true }) else (e.1, {}))
      else if e.2.kind = .held then (e.1, { e.2 with record := none, restage := true })
      else (e.1, { e.2 with record := none })
    | none => e
  refreshStatus { d with pages := d.pages.map step }

/-- The extents of a block with pages due for an amendment, as list entries (R120). -/
def amendEntries (d : Dev) (b : Nat) : List ListEntry :=
  ((unstagedExts d b).filter (fun x => (ownUnstaged d x).any (fun p => (getPage d p).restage))).map (fun x => {
    ht := x.ht, caddr := x.caddr, pages := x.pages, fn := x.fn, unack := false, amend := true
    tag := x.tag, seq := x.seq, descId := 0, cls := x.cls })

/-- A block's amendment, once its list has been written (R120, R168). -/
def writeAmendment (b : Nat) (d : Dev) : Dev :=
  match (d.cur.lists.filter (fun l => l.block = b)).head? with
  | none => d
  | some l =>
    let es := amendEntries d b
    if es = [] then d
    else writeEntries b l.trigger d.tmb.ht es (sumNat (es.map (fun e => e.pages * pageBytes))) l.listId d

/-- A fault of Table 6.3 shows in SPW_CURTAIN_STATUS. -/
def curtainFault (d : Dev) : Dev :=
  if d.chp.mode = .curtain then { d with cur := { d.cur with faultFlag := true } } else d

/-- The live records that `lostRec` picks can no longer be read. -/
def loseRecords (b : Nat) (lostRec : Nat → Bool) (d : Dev) : Dev :=
  match d.chp.mode with
  | .boot | .encore | .reconcile => lostEarly lostRec d
  | .curtain =>
    let d := returnPages lostRec (curtainFault d)
    if streams d || 6 ≤ d.cur.milestone then writeAmendment b d else d
  | _ => returnPages lostRec d

/-- The copy in force of a record reads (R99): of one live in TLC its freed pSLC source counts no longer. At BOOT,
ENCORE and RECONCILE that source serves too while it stands (R138). -/
def Rec.standsIn (d : Dev) (r : Rec) : Bool :=
  if r.inTlc && !(d.chp.mode = .boot || d.chp.mode = .encore || d.chp.mode = .reconcile) then
    r.tlcReadable && r.tlcAuthentic && copyReads d r.tlcCell r.tlcTarget
  else r.reads d

/-- After a part's failure `f`: the block's records whose copy read before and does not now are lost. -/
def loseUnread (b : Nat) (f : Dev → Dev) (d : Dev) : Dev :=
  let e := f d
  let ids := (d.flash.records.filter (fun r => r.block = b && r.written && r.bytes ≠ 0 && r.standsIn d && !r.standsIn e)).map Rec.id
  loseRecords b (fun id => ids.contains id) e

/-- Programs under way on parts of a block that have gone are issued again elsewhere (R20); TLC copies not yet
verified there are abandoned (R99). -/
def reissueStranded (b : Nat) (d : Dev) : Dev :=
  let lost := fun (r : Rec) => r.block = b && (match r.moving with
    | some p => !placeWorks d p.1 p.2.1
    | none => !r.written && (if r.bytes = 0 then (getCell d r.cell).failed else !placeWorks d r.cell r.target))
  let ids := (d.flash.records.filter lost).map Rec.id
  let d := { d with flash := { d.flash with records := d.flash.records.map (fun r =>
      if r.block = b && r.tlc.isSome && !r.tlcVerified && !placeWorks d r.tlcCell r.tlcTarget then { r with tlc := none } else r) } }
  ids.foldl (fun d id => reissue id d) d

/-! ### Cells -/

/-- Mask of a cell's working targets. -/
def targetMask (d : Dev) (c : Nat) : Nat :=
  maskOf ((List.range 8).filter (fun t => !(getCell d c).deadTargets.contains t))

/-- A block's data path stops with its DRAM readable or not: the block record, once. What it was writing is given
up. -/
def failPath (b code : Nat) (d : Dev) : Dev :=
  if (getBlk d b).pathFailed then d
  else
    let cause := lastSeq d (64 + b)
    let open_ := d.flash.records.filter (fun r => r.block = b && !r.written && r.bytes ≠ 0 && r.kind ≠ .test)
    open_.foldl (fun d r => giveUp r d) (curtainFault (raiseFault { code, level := 2, island := 64 + b, severity := 2, cause }
      (updBlk b (fun k => { k with pathFailed := true }) d)))

/-- The open erases of a cell's targets are given up: stripes are erased without them. -/
def dropErases (c : Nat) (t : Nat → Bool) (d : Dev) : Dev :=
  let mine := d.flash.intents.filter (fun i => i.1 = c && t i.2.1)
  let d := updCell c (fun k => { k with erases := k.erases.filter (fun e => !t e.1) })
    { d with flash := { d.flash with intents := d.flash.intents.filter (fun i => !(i.1 = c && t i.2.1)) } }
  mine.foldl (fun d i => stripeDone (c / 8) i.2.2 d) d

/-- A cell is lost: its erases, the records that read from it alone, the programs under way on it. -/
def failCell (c : Nat) (d : Dev) : Dev :=
  let d := loseUnread (c / 8) (updCell c (fun k => { k with failed := true, port := .idle, arm := .disarmed, left := 0 })) d
  reissueStranded (c / 8) (dropErases c (fun _ => true) d)

/-- A cell stops: its record, the block's 0x0201, the restripe and the re-staging of R97; the last
one stops the block's data path. -/
def cellStops (c code : Nat) (d : Dev) : Dev :=
  if !blockOn d (c / 8) || (getCell d c).failed then d
  else
    let b := c / 8
    let seq := d.err.seqNext
    let d := raiseFault { code, level := 1, island := c, severity := 2, detail := targetMask d c } d
    let d := raiseFault { code := 0x0201, level := 2, island := 64 + b, severity := 1, cause := seq } d
    let d := failCell c d
    recomputeNow (if workingCells d b = [] then failPath b 0x0209 d else d)

def cellCode : CellCause → Nat
  | .sequencer => 0x0107 | .codec => 0x0108 | .pageBuffer => 0x0109 | .targetsLow => 0x010A

/-- CELL_FAILURE (R18, R97, Table 19.3). -/
def execCellFailure (c : Nat) (cause : CellCause) (s : State) : Answer := onDev (cellStops c (cellCode cause)) s

/-- TARGET_DEAD (R20, R97): records that cannot be sensed are re-staged, the others are left for
cleaning to move; fewer than two working targets stop the cell. -/
def targetDead (c t : Nat) (sensable : Bool) (d : Dev) : Dev :=
  if !blockOn d (c / 8) || (getCell d c).failed || (getCell d c).deadTargets.contains t || 8 ≤ t then d
  else
    let d := updCell c (fun k => { k with deadTargets := t :: k.deadTargets }) d
    let d := raiseFault { code := 0x0105, level := 1, island := c, severity := 1, target := t, detail := targetMask d c } (curtainFault d)
    let d := if sensable then d
      else loseUnread (c / 8) (updCell c (fun k => { k with unsensed := t :: k.unsensed })) d
    let d := reissueStranded (c / 8) (dropErases c (· = t) d)
    if 8 < (getCell d c).deadTargets.length + 2 then cellStops c 0x010A d else recomputeNow d
def execTargetDead (c t : Nat) (sensable : Bool) (s : State) : Answer := onDev (targetDead c t sensable) s

/-- CIPHER_PIPE_FAULT (R284): the request runs again on the other pipe; the second failure stops the
block's data path. -/
def pipeFault (b p : Nat) (d : Dev) : Dev :=
  let k := getBlk d b
  let ok := if p = 0 then k.pipe0Ok else k.pipe1Ok
  if !blockOn d b || 2 ≤ p || !ok then d
  else
    let other := if p = 0 then k.pipe1Ok else k.pipe0Ok
    let d := updBlk b (fun k => if p = 0 then { k with pipe0Ok := false } else { k with pipe1Ok := false }) d
    if !other then recomputeNow (failPath b 0x0206 d)
    else
      let rerun := k.cipherActive ≠ []
      let d := if rerun then countBlk b 12 1 { d with cip := { d.cip with reRuns := satAdd 32 d.cip.reRuns 1 } } else d
      recomputeNow (raiseFault { code := 0x0203, level := 2, island := 64 + b, severity := 1, detail := p } d)
def execCipherPipeFault (b p : Nat) (s : State) : Answer := onDev (pipeFault b p) s

/-! ### Regions -/

def blockCode : BlockCause → Nat
  | .pipesFailed => 0x0206 | .stagingBuffer => 0x0208 | .noCell => 0x0209

/-- What of the block a path fault takes with it. -/
def breakBlock (b : Nat) (c : BlockCause) (d : Dev) : Dev :=
  match c with
  | .pipesFailed => updBlk b (fun k => { k with pipe0Ok := false, pipe1Ok := false }) d
  | .stagingBuffer => d
  | .noCell => (workingCells d b).foldl (fun d c => failCell c d) d

/-- A block can carry its partner's save: populated, in admission, its own path and cells working. -/
def usablePartner (d : Dev) (p : Nat) : Bool :=
  populated d p && !blkOut d p && !(getBlk d p).pathFailed && (workingCells d p) ≠ [] && 0 < workingPipes d p

/-- CROSS_SAVE (R23, code 0x0301). -/
def crossSave (b : Nat) (c : BlockCause) (d : Dev) : Dev :=
  if !blockOn d b || blkOut d b || (getBlk d b).crossSave || !usablePartner d (partner b)
      || !(getBlk d b).portOk then d
  else
    let d := failPath b (blockCode c) (breakBlock b c d)
    let cause := lastSeq d (64 + b)
    let d := raiseFault { code := 0x0301, level := 3, island := 72 + b / 2, severity := 1, cause } d
    recomputeNow (updBlk b (fun k => { k with crossSave := true }) d)
def execCrossSave (b : Nat) (c : BlockCause) (s : State) : Answer := onDev (crossSave b c) s

/-- Loss notes with REF 0 for the unstaged pages of a fenced block's extents (R342): in the block's
own log where it can program, else in the lowest-numbered unfenced block's, else kept in the
retention island. `out` are the blocks that the same fault fences. -/
def lossNotes (b : Nat) (own : Bool) (out : List Nat) (xs : List Extent) (d : Dev) : Dev :=
  let able := own && (workingCells d b) ≠ []
  let other := (blockList d).find? (fun k => !out.contains k && !blkOut d k && (workingCells d k) ≠ [])
  xs.foldl (fun d x =>
    let runs := noteRunsOf x x.ht (ownUnstaged d x)
    match (if able then some b else other) with
    | some lb => headAs x.epochId x.hidx (headOnly lb b .lossNote x.fn runs x.ht 0 true d)
    | none =>
      let note : Rec := {
        id := 0, block := b, home := b, kind := .lossNote, fn := x.fn, runs, epochId := x.epochId, hidx := x.hidx
        firstHt := x.ht, lastHt := x.ht, writeHt := d.tmb.ht }
      { d with err := { d.err with notes := d.err.notes ++ [note] } }) d

/-- The reports of R341 for one extent. -/
def reportLost (d : Dev) (x : Extent) : Dev :=
  postEvent 8 x.fn [x.caddr, x.pages, x.ht] { d with err := { d.err with
    plost := Tab.upd 0 d.err.plost x.fn (fun n => n + x.pages * pageBytes) } }

/-- Descriptors touching a block that is fenced complete with PROTECTION_LOST (R255). -/
def endFencedDescs (b : Nat) (d : Dev) : Dev :=
  (d.descs.filter (fun x => x.fn ≠ 0 && x.block = b
    && (x.phase = .waiting || x.phase = .staging || x.phase = .reading || x.phase = .running || x.phase = .noted)
    && usesRange x.entry.opcode)).foldl (fun d x => endWith x stPlost 0 0 d) d

/-- The unsaved pages of a block fenced in a curtain are lost, and counted so. -/
def loseUnsaved (b : Nat) (d : Dev) : Dev :=
  let n := unstagedB d b
  { d with
    cur := { d.cur with lost := d.cur.lost + n, lostB := Tab.upd 0 d.cur.lostB b (· + n) }
    pages := d.pages.map (fun e =>
      if e.2.unstaged && blockOf (pageAddr e.1) = b then
        (e.1, { e.2 with unstaged := false, kind := .lost, record := none }) else e) }

/-- Fence one block (R24, R341, R342): its unstaged pages leave the counts (R77), its ports and erases stop, its
granules are not reloaded; its entries leave the index (R281). In CURTAIN its unsaved data is lost and reported at encore from its list (Table 6.3);
elsewhere every extent with an unstaged page is reported now. `detail` is the SEQ of the
other record and `out` the blocks fenced, where one fault fences two. -/
def fenceBlock (b code cause detail : Nat) (own : Bool) (out : List Nat) (d : Dev) : Dev :=
  if !populated d b || (getBlk d b).fenced then d
  else
    let inCurtain := d.chp.mode = .curtain
    let xs := if inCurtain then [] else unstagedExts d b
    let d := xs.foldl reportLost d
    let d := raiseFault {
      code, level := 3, island := 72 + b / 2, severity := 3, cause, caddr := b * blockSpan, bytes := usable d
      detail := xs.length + detail * 2 ^ 32 } d
    let d := lossNotes b own out xs d
    let gone := xs.flatMap (ownUnstaged d)
    let d := prune (updPages gone (fun g => { kind := .plost, fn := g.fn }) d)
    let d := if inCurtain then loseUnsaved b d else d
    let open_ := d.flash.records.filter (fun r => (r.block = b || r.home = b) && !r.written && r.bytes ≠ 0)
    let d := open_.foldl (fun d r => giveUp r d) (syncIndex (updBlk b (fun k => { k with fenced := true, crossSave := false }) d))
    let d := { d with
      int := { d.int with pendingGranules := d.int.pendingGranules.filter (fun g => blockOf (g * 16777216) ≠ b) }
      cells := d.cells.map (fun e => if e.1 / 8 = b then
        (e.1, { e.2 with port := .idle, arm := .disarmed, left := 0, ready := false, erases := [] }) else e) }
    if inCurtain then curtainFault d else endFencedDescs b d

/-- Both blocks of a region fenced by one fault: the two records share the cause and name each
other. -/
def fenceRegion (g code : Nat) (own : Bool) (d : Dev) : Dev :=
  let bs := [2 * g, 2 * g + 1].filter (fun b => populated d b && !(getBlk d b).fenced)
  let n := d.err.seqNext
  match bs with
  | [a, b] => fenceBlock b code 0xFFFFFFFF n own bs (fenceBlock a code 0xFFFFFFFF (n + 1) own bs d)
  | [a] => fenceBlock a code 0xFFFFFFFF 0 own [a, partner a] d
  | _ => d

/-- A block fenced with code 0x0302, and with it a partner whose save it was carrying; in CURTAIN that partner's
DRAM still reads, and its unsaved extents are lost by its list (Table 6.3). -/
def fenceWithPartner (b : Nat) (own : Bool) (d : Dev) : Dev :=
  let p := partner b
  let cause := lastSeq d (64 + b)
  let n := d.err.seqNext
  if populated d p && (getBlk d p).crossSave && !(getBlk d p).fenced then
    (if d.chp.mode = .curtain then
      updBlk p (fun k => { k with crossSave := false }) (fenceBlock b 0x0302 cause 0 own [b] d)
     else fenceBlock p 0x0302 cause n true [b, p] (fenceBlock b 0x0302 cause (n + 1) own [b, p] d))
  else fenceBlock b 0x0302 cause 0 own [b] d

/-- FENCE (R24, R338). In CURTAIN a block that fails with no usable partner and readable DRAM is not
streamed, and its list is written by another block (Table 6.3). -/
def fence (b : Nat) (c : FenceCause) (d : Dev) : Dev :=
  if !blockOn d b || blkOut d b then d
  else match c with
  | .noPartner cause =>
    if usablePartner d (partner b) then d
    else
      let d := failPath b (blockCode cause) (breakBlock b cause d)
      if d.chp.mode = .curtain then
        recomputeNow (updBlk (partner b) (fun k => { k with crossSave := false }) (curtainFault d))
      else recomputeNow (fenceWithPartner b (cause ≠ .noCell) d)
  | .dramPort =>
    let d := updBlk b (fun k => { k with portOk := false, pathFailed := true })
      (raiseFault { code := 0x0207, level := 2, island := 64 + b, severity := 2 } d)
    recomputeNow (fenceWithPartner b true d)
  | .fabric => recomputeNow (fenceRegion (b / 2) 0x0303 true d)
  | .powerDomain =>
    recomputeNow (fenceRegion (b / 2) 0x0304 false d)
def execFence (b : Nat) (c : FenceCause) (s : State) : Answer := onDev (fence b c) s

end Sys2Proof.Machine
end

