-- ==== Sys2Proof/Machine/Dram.lean ====
section
/-!
DEFINITION. The DRAM controllers (chapter 17): poisoned lines, refresh, mode register 4, training,
ZQ calibration, frequency set points and the address map.
-/

namespace Sys2Proof.Machine

/-- A block's channel is active: its module powered and not in self-refresh. -/
def channelOn (d : Dev) (b : Nat) : Bool :=
  blockOn d b && (getBlk d b).dramOn && !(getBlk d b).selfRefresh

/-! ### Poison (R301) -/

/-- DRC_CH_POISON_LOG: the port, the reserve mark, and the address or the offset in the reserve. -/
def poisonWord (d : Dev) (line port : Nat) : Nat :=
  let off := line % blockSpan
  if off < usable d then port % 8 * 2 ^ 61 + line % 2 ^ 40
  else port % 8 * 2 ^ 61 + 2 ^ 60 + (off - usable d) % 2 ^ 40

/-- DRAM_UNCORRECTABLE: a newly found line is poisoned, logged and reported; more than 64 within one
second on a channel fail the block's DRAM port. -/
def uncorrectable (addr port : Nat) (d : Dev) : Dev :=
  let line := addr - addr % 64
  let b := blockOf line
  if !channelOn d b || d.drc.poison.contains line then d
  else
    let w := poisonWord d line port
    let recent := (d.tmb.ht :: (getBlk d b).poisonRecent).filter (fun h => d.tmb.ht < h + 4000000000)
    let d := updBlk b (fun k => { k with
      eccUncorrected := satAdd 32 k.eccUncorrected 1, poisonLog := w, poisonRecent := recent }) d
    let d := if line % blockSpan < usable d then { d with drc := { d.drc with poison := line :: d.drc.poison } } else d
    let d := raiseFault { code := 0x0202, level := 2, island := 64 + b, severity := 1, caddr := line, bytes := 64, detail := port } d
    let d := trace 0x4004 (64 + b) w 0 d
    if 64 < recent.length then fence b .dramPort d else d
def execDramUncorrectable (addr port : Nat) (s : State) : Answer := onDev (uncorrectable addr port) s

/-! ### Refresh (R303, R304) -/

/-- L: the limit of the debt and of the pull-in count. -/
def refreshLimit (k : Blk) : Nat := 8 / k.mult

/-- A refresh falls due. With the channel idle the debt is paid and refreshes are pulled in to L. -/
def refreshDue (b : Nat) (idle : Bool) (d : Dev) : Dev :=
  if !channelOn d b then d
  else
    let k := getBlk d b
    let l := refreshLimit k
    let d := if 0 < k.pullIn then updBlk b (fun k => { k with pullIn := k.pullIn - 1 }) d
      else if k.refDebt < l then updBlk b (fun k => { k with refDebt := k.refDebt + 1 }) d
      else countBlk b 16 1 (countBlk b 17 1 d)
    if !idle then d
    else
      let k := getBlk d b
      countBlk b 16 (k.refDebt + (l - k.pullIn)) (updBlk b (fun k => { k with refDebt := 0, pullIn := l }) d)
/-- REFRESH_DUE (R303). `idle` says that the channel has no request pending. -/
def execRefreshDue (b : Nat) (idle : Bool) (s : State) : Answer := onDev (refreshDue b idle) s

/-- The multiplier for a reported rate, in hundredths of ×1. -/
def multOf (rate : Nat) : Nat := if rate ≤ 100 then 1 else if rate ≤ 200 then 2 else 4

def mr4Poll (b rate : Nat) (d : Dev) : Dev :=
  if !channelOn d b then d
  else
    let k := getBlk d b
    let m := multOf rate
    let d := if rate ≤ 400 then d
      else raiseFault { code := 0x0205, level := 2, island := 64 + b, severity := 0 } d
    if m = k.mult then d
    else
      let l := 8 / m
      let extra := k.refDebt - l
      let d := updBlk b (fun k => { k with mult := m, refDebt := min k.refDebt l, pullIn := min k.pullIn l }) d
      trace 0x4001 (64 + b) (b + m * 256 + (getBlk d b).refDebt * 65536) 0 (countBlk b 16 extra d)
/-- MR4_POLL (R304). The operand is the refresh rate that mode register 4 asks for, in hundredths of
×1; the code of each rate is the module standard's. Log entry 24. -/
def execMr4Poll (b rate : Nat) (s : State) : Answer := onDev (mr4Poll b rate) s

/-! ### Training, ZQ calibration (R306 to R308) -/

/-- Retraining runs in the modes that leave the channel to traffic. -/
def trains (d : Dev) (b : Nat) : Bool := channelOn d b && d.chp.mode ≠ .curtain && d.chp.mode ≠ .boot

/-- RETRAIN_TIMER: a sequence of the active set point starts; `passed` says whether its result meets
the margins, at the first try or the repeat. -/
def execRetrainTimer (b : Nat) (passed : Bool) (s : State) : Answer :=
  onDev (fun d =>
    if trains d b && !(getBlk d b).training then
      updBlk b (fun k => { k with training := true, trainFsp := d.drc.fspNow, trainPass := passed }) d
    else d) s

/-- DRC_FSP_STATUS as traced. -/
def fspStatus (d : Dev) : Nat :=
  d.drc.addedUs % 256 * 2 ^ 24 + 32 * boolNat d.drc.restarted + 16 * (d.drc.fspNow % 2) + d.drc.fspState % 8

def traceFsp (d : Dev) : Dev := trace 0x4003 79 (fspStatus d) 0 d

/-- No channel has a training step gathering samples. -/
def noStep (d : Dev) : Bool := (blockList d).all (fun b => !(getBlk d b).training)

/-- The held change executes: SWITCHING. -/
def startSwitch (d : Dev) : Dev :=
  traceFsp { d with drc := { d.drc with
    fspState := 2, restarted := (blockList d).any (fun b => (getBlk d b).trainAgain) } }

/-- TRAINING_STEP_END: a change held for the step discards its samples and goes on (R307); else the
sequence ends with its result (R308). -/
def stepEnd (b : Nat) (d : Dev) : Dev :=
  let k := getBlk d b
  if !k.training then d
  else if d.drc.fspState = 1 then
    let d := updBlk b (fun k => { k with training := false, trainAgain := k.trainFsp = d.drc.fspTarget }) d
    if noStep d then startSwitch d else d
  else
    let d := updBlk b (fun k => { k with
      training := false, trainCount := satAdd 16 k.trainCount 1
      trainFails := if k.trainPass then k.trainFails else satAdd 8 k.trainFails 1 }) d
    if k.trainPass then d else raiseFault { code := 0x0204, level := 2, island := 64 + b, severity := 0 } d
def execTrainingStepEnd (b : Nat) (s : State) : Answer := onDev (stepEnd b) s

/-- ZQ_TIMER: calibration, in CURTAIN too. -/
def execZqTimer (b : Nat) (s : State) : Answer :=
  onDev (fun d => if channelOn d b then updBlk b (fun k => { k with zqCount := k.zqCount + 1 }) d else d) s

/-! ### Frequency set points (R306, R307) -/

/-- FSP_TARGET: held in CURTAIN and INTERMISSION, deferred behind a training step, else executed. -/
def fspRequest (w : W32) (d : Dev) : Dev :=
  let t := field w 0 1
  let d := { d with drc := { d.drc with fspTarget := t } }
  if d.drc.fspState = 2 || (t = d.drc.fspNow && d.drc.fspState ≠ 1 && d.drc.fspState ≠ 4) then d
  else if t = d.drc.fspNow then traceFsp { d with drc := { d.drc with fspState := 0 } }
  else if d.chp.mode = .curtain || d.chp.mode = .intermission || !orderingPowered d then
    traceFsp { d with drc := { d.drc with fspState := 4 } }
  else if noStep d then startSwitch d
  else traceFsp { d with drc := { d.drc with fspState := 1, restarted := false } }
def execFspTarget (w : W32) (s : State) : Answer := onDev (fspRequest w) s

/-- FREQUENCY_SWITCH_DONE: the target is in use; a sequence of it restarts from its first step. The
latency added is bounded (60 µs after a deferral) and not otherwise given: a free value. -/
def switchDone (d : Dev) : Dev :=
  if d.drc.fspState ≠ 2 then d
  else
    let (r, d) := fresh d
    traceFsp { d with
      drc := { d.drc with fspState := 3, fspNow := d.drc.fspTarget, addedUs := r % 61 }
      blk := Tab.mapVals (fun (k : Blk) =>
        if k.trainAgain then { k with trainAgain := false, training := true, trainFsp := d.drc.fspTarget } else k) d.blk }
def execFrequencySwitchDone (s : State) : Answer := onDev switchDone s

/-- DRC_MAP_NEXT (R297): stored in SERVICE, ignored elsewhere. -/
def execDrcMapNext (w : W32) (s : State) : Answer :=
  onDev (fun d => if d.chp.mode = .service then { d with drc := { d.drc with mapNext := field w 4 2 } } else d) s

end Sys2Proof.Machine
end

