-- ==== Sys2Proof/Machine/ImageBytes.lean ====
section
/-!
DEFINITION. The bytes of the image's structures (chapter 9): unit headers, directories, journal word lines,
locators, record heads, bodies of records, lists and prompt books, anchor and vault entries, selector
entries (R329), the trace tail, and what stands in a segment of a unit.
-/

namespace Sys2Proof.Machine

/-- Lines of a page that are poisoned, as a mask (Table 9.7). -/
def poisonMask (poison : List Nat) (p : Nat) : Nat :=
  sumNat (((poison.filter (fun a => pageOf a = p)).map (fun a => a % pageBytes / 64)).eraseDups.map (fun n => 2 ^ n))

/-- The record's pages in body order. -/
def bodyPages (r : Rec) : List Nat := if r.bytes = 0 then [] else r.runs.flatMap runPageList

/-- Poison entries, in ascending body page order (R164). -/
def poisonEntries (r : Rec) : List Byte :=
  (bodyPages r).zipIdx.flatMap (fun e =>
    let m := poisonMask r.poison e.1
    if m = 0 then [] else leBytes 2 e.2 ++ zeros 6 ++ leBytes 8 m)

def runPoisoned (r : Rec) (g : Run) : Bool := (runPageList g).any (fun p => poisonMask r.poison p ≠ 0)

/-- Descriptors of a test record, whose pages are no cache page's: the spec gives no extent, the model takes runs of
256 pages at the top of the address field, with the HT of the record. DESIGN CHOICE (log entry 166). -/
def testRuns (r : Rec) : List Run :=
  (List.range (r.bytes / mib)).map (fun i => {
    ht := r.firstHt, tag := 0, caddr := 2 ^ 40 - r.bytes + i * mib, extPages := 256, runStart := 0, runPages := 256
    seq := 0, cls := 0, unack := false, descId := 0 })

/-- A record's run descriptors as its head carries them (Table 9.6). -/
def headRuns (r : Rec) : List Run := if r.kind = .test then testRuns r else r.runs

/-- Descriptors, then poison entries. -/
def headRest (r : Rec) : List Byte :=
  (headRuns r).flatMap (fun g => runBytes g (runPoisoned r g)) ++ poisonEntries r

/-- The record header up to HEAD_CRC (Table 9.5). -/
def headStart (r : Rec) (tag dataCrc : Nat) : List Byte :=
  leBytes 4 0x54524543 ++ leBytes 1 r.verMajor ++ [0] ++ leBytes 1 r.kind.code ++ leBytes 1 (if r.kind = .test then 1 else r.fn) ++ leBytes 8 r.id
    ++ leBytes 4 r.epochId ++ leBytes 1 r.slot ++ leBytes 1 r.gen ++ leBytes 2 (headRuns r).length
    ++ leBytes 8 r.inv ++ leBytes 4 r.pfx ++ leBytes 2 ((poisonEntries r).length / 16)
    ++ leBytes 2 (r.bytes / pageBytes) ++ leBytes 8 r.firstHt ++ leBytes 8 r.lastHt ++ leBytes 8 r.writeHt
    ++ leBytes 16 tag ++ leBytes 4 dataCrc ++ leBytes 2 (r.hidx % 512)
    ++ leBytes 1 (boolNat r.amend + 2 * boolNat r.keep) ++ leBytes 1 (segmentsOf r.bytes) ++ leBytes 8 r.ref
    ++ zeros 28

/-- Padded with zero to a multiple of 32 bytes. -/
def pad32 (bs : List Byte) : List Byte := bs ++ zeros ((32 - bs.length % 32) % 32)

/-- The head with TAG and DATA_CRC given, padded. -/
def headBytes (r : Rec) (tag dataCrc : Nat) : List Byte :=
  let a := headStart r tag dataCrc
  pad32 (a ++ leBytes 4 (crc32c (a ++ headRest r)).toNat ++ headRest r)

/-- Associated data of R165: the head, TAG and HEAD_CRC as zero, without padding. -/
def headAad (r : Rec) (dataCrc : Nat) : List Byte := headStart r 0 dataCrc ++ zeros 4 ++ headRest r

/-- Initialisation vector of R165 as a number. -/
def recIv (r : Rec) : Nat := r.pfx + r.inv * 2 ^ 32

/-- The plaintext of a page record, or of a test image, whose content is not given. -/
def plainBody (r : Rec) : List Byte :=
  if r.kind = .test then (List.range r.bytes).map (Config.rawFlashByte (r.id % 2 ^ 56))
  else (bodyPages r).flatMap (fun p => memReadBytes r.body (pageAddr p) pageBytes)

/-- The ciphertext of a body under a key. -/
def cipherBody (r : Rec) (key : Nat) : List Byte :=
  (plainBody r).zipIdx.map (fun e => Config.cipherByte key (recIv r) e.2 e.1)

/-- List header page (Table 9.8). -/
def listHeader (l : CallList) : List Byte :=
  let un := (l.entries.filter ListEntry.unack).length
  withCrc (leBytes 4 0x544C5354 ++ leBytes 1 l.verMajor ++ [0] ++ leBytes 1 l.trigger ++ leBytes 1 l.block ++ leBytes 8 l.listId
    ++ leBytes 8 l.triggerHt ++ leBytes 8 l.firstHt ++ leBytes 8 l.lastHt
    ++ leBytes 8 l.listedBytes ++ leBytes 4 (l.entries.length - un) ++ leBytes 4 un
    ++ leBytes 4 (entryPages l.entries.length) ++ zeros 4 ++ leBytes 8 l.baseList ++ zeros 4020)

/-- Entry page `i` from 1: 127 entries and the trailer (R168). -/
def listPage (l : CallList) (i : Nat) : List Byte :=
  let es := (l.entries.drop (127 * (i - 1))).take 127
  withCrc ((es.flatMap listEntryBytes ++ zeros 4064).take 4064 ++ leBytes 8 l.listId ++ leBytes 4 i
    ++ leBytes 2 es.length ++ zeros 14)

/-- Body of part `part` of a list's chain: its pages of the header and the entry pages, 1,024 a part. A page
whose writing was cut off holds what the flash holds. -/
def listBody (l : CallList) (part : Nat) : List Byte :=
  let last := entryPages l.entries.length
  (((List.range (last + 1)).drop (1024 * part)).take 1024).flatMap (fun i =>
    if i = 0 then listHeader l
    else if l.torn.any (fun n => n < i) then (List.range pageBytes).map (Config.rawFlashByte (l.listId + i))
    else listPage l i)

/-! ### The trace tail -/

/-- A trace tail (newest first) as a ring of 65,536 bytes; the oldest event lies at its start. -/
def tailRing (tail : List TraceEv) : List Byte :=
  (tail.reverse.flatMap (fun t => traceBytes t false) ++ zeros 65536).take 65536

def oldestHt (tail : List TraceEv) : Nat := (tail.getLast?.map TraceEv.ht).getD 0
def newestTail (tail : List TraceEv) : Nat := (tail.head?.map TraceEv.ht).getD 0

/-! ### Prompt book (Tables 9.10, 9.11, 9.13) -/

/-- Rotation-window state (Table 9.13). -/
def windowBytes (w : Window) : List Byte :=
  leBytes 1 w.wb ++ leBytes 1 w.wp ++ leBytes 1 w.sinceShift ++ leBytes 1 (boolNat w.deferred)
    ++ leBytes 4 w.payloadMib ++ leBytes 8 w.shifts ++ leBytes 8 w.stripeSeq ++ zeros 8

/-- The nonce entry of a slot: slot, generation, function, prefix, largest counter. -/
def nonceBytes (k : Book) (s : Nat) : List Byte :=
  match k.nonces.find? (fun n => n.1 = s) with
  | none => zeros 16
  | some (_, g, f, p, hwm) =>
    leBytes 1 s ++ leBytes 1 g ++ leBytes 1 (1 + 2 * boolNat (k.unknown.contains s)) ++ leBytes 1 f ++ leBytes 4 p ++ leBytes 8 hwm

def bookBlocks (k : Book) : List Byte :=
  (List.range 8).flatMap (fun b =>
    match k.lists.find? (fun l => l.1 = b) with
    | none => zeros 32
    | some (_, id, listed, saved, lost) => leBytes 8 id ++ leBytes 8 listed ++ leBytes 8 saved ++ leBytes 8 lost)

def bookBody (k : Book) : List Byte :=
  let head := withCrc (leBytes 4 0x54424F4B ++ leBytes 1 k.verMajor ++ [0] ++ leBytes 1 k.block
    ++ leBytes 1 k.populated ++ leBytes 8 k.seqNo ++ leBytes 8 k.sealHt ++ leBytes 8 k.prevBook
    ++ leBytes 4 k.status ++ leBytes 1 k.reason ++ leBytes 1 k.faults.length ++ leBytes 2 k.hidx
    ++ leBytes 4 k.epochId ++ leBytes 4 (if k.indexSealed then (Config.indexCrc k.index).toNat else 0)
    ++ leBytes 8 k.epochNs.toNat ++ leBytes 8 k.serial
    ++ (List.range 10).flatMap (fun i => leBytes 8 (Tab.get 0 k.msHt (i + 1)))
    ++ leBytes 8 k.credit ++ leBytes 8 k.debt ++ windowBytes k.window
    ++ bookBlocks k ++ leBytes 4 0 ++ leBytes 4 (32 * k.trace.length)
    ++ leBytes 8 (oldestHt k.trace) ++ leBytes 8 (newestTail k.trace) ++ zeros 548)
  let rest := (List.range 64).flatMap (nonceBytes k)
    ++ ((k.faults.reverse.flatMap faultBytes) ++ zeros 4096).take 4096 ++ zeros 59388
  head ++ withCrc rest ++ tailRing k.trace

/-! ### Small entries -/

/-- Locator (Table 9.4) of a body at a place, of STRIPE_SEQ `seq`, whose padded head is `len` bytes. -/
def locatorBytes (p : Place) (seq len : Nat) : List Byte :=
  withCrc (leBytes 2 p.2.2.2 ++ leBytes 2 (len / 32) ++ leBytes 1 (boolNat (200 ≤ p.2.2.1)) ++ leBytes 1 p.1
    ++ leBytes 1 p.2.1 ++ leBytes 1 (if 200 ≤ p.2.2.1 then p.2.2.1 - 200 else p.2.2.1) ++ leBytes 8 seq ++ zeros 12)

/-- Anchor entry (R172), with the locator as it was written. -/
def anchorBytes (a : Anchor) : List Byte :=
  withCrc (leBytes 4 0x54414E43 ++ zeros 4 ++ leBytes 8 a.seqNo ++ leBytes 8 a.sealHt
    ++ locatorBytes (a.cell, a.target, a.position, a.segment) a.stripeSeq 128 ++ zeros 4)

/-- Vault entry (Table 9.12). -/
def vaultBytes (v : Vault) : List Byte :=
  withCrc (leBytes 4 0x54564C54 ++ leBytes 1 v.verMajor ++ [0] ++ leBytes 1 v.slot ++ leBytes 1 v.gen ++ leBytes 1 v.fn
    ++ leBytes 1 (boolNat v.hostHeld) ++ zeros 2 ++ leBytes 4 v.pfx ++ leBytes 8 v.loadHt ++ leBytes 8 v.kcv
    ++ leBytes 40 v.wrapped ++ leBytes 8 v.eraseHt ++ zeros 44)

/-- Selector entry (R329). -/
def selectorBytes (e : Selector) : List Byte :=
  withCrc (leBytes 4 0x5453454C ++ leBytes 1 e.twin ++ zeros 3 ++ leBytes 8 e.seq ++ leBytes 4 e.length
    ++ leBytes 4 e.crc ++ leBytes 4 e.version ++ zeros 4 ++ leBytes 8 e.ht ++ zeros 20)

/-! ### Heads with their check codes -/

/-- Whether a record's body is enciphered (Table 9.6). -/
def isEnciphered (r : Rec) : Bool := r.bytes ≠ 0 && r.kind ≠ .list && r.kind ≠ .book

/-- Padded to whole pages, as DATA_CRC covers them. -/
def padPages (n : Nat) (bs : List Byte) : List Byte := (bs ++ zeros n).take n

/-- The list of whose chain a record is a part. -/
def listOf (d : Dev) (r : Rec) : Option CallList :=
  ((d.flash.records ++ d.flash.ghosts).find? (fun q => q.kind = .list && q.id = r.ref)).bind Rec.list

/-- The body as stored, enciphered under the key of its writing (R165), or as a port has laid it down (R320). -/
def storedBody (d : Dev) (r : Rec) : List Byte :=
  match r.laid with
  | some (_, b) => b
  | none =>
  match r.kind with
  | .list => (match listOf d r with
    | some l => padPages r.bytes (listBody l r.part)
    | none => zeros r.bytes)
  | .book => (match d.flash.books.find? (fun k => k.recordId = r.id) with
    | some k => bookBody k
    | none => zeros r.bytes)
  | _ => cipherBody r r.ckey

/-- A record's padded head, as it was written. -/
def recHead (d : Dev) (r : Rec) : List Byte :=
  match r.laid with
  | some (h, _) => h
  | none =>
  let crc := if r.bytes = 0 then 0 else (crc32c (storedBody d r)).toNat
  let tag := if isEnciphered r then Config.gcmTag r.ckey (recIv r) (headAad r crc) (plainBody r)
    else match d.flash.books.find? (fun k => k.recordId = r.id) with
      | some k => Config.bookTag d.board.serial (k.block + k.seqNo * 2 ^ 32) (headAad r crc ++ bookBody k)
      | none => 0
  headBytes r tag crc

/-! ### Units: header, directory, journal, segments -/

/-- Unit header (Table 9.3); position 340 names the journal unit of the target's number. -/
def unitHeader (u : FUnit) : List Byte :=
  withCrc (leBytes 4 0x54554E31 ++ leBytes 1 u.verMajor ++ [0] ++ leBytes 1 (if u.position = 340 then 2 else boolNat (200 ≤ u.position))
    ++ leBytes 1 (u.cell / 8) ++ leBytes 1 u.cell ++ leBytes 1 u.target
    ++ leBytes 1 (if u.position = 340 then u.target else if 200 ≤ u.position then u.position - 200 else u.position)
    ++ leBytes 1 u.cells
    ++ leBytes 4 u.epochId ++ leBytes 8 u.stripeSeq ++ leBytes 8 u.openHt ++ leBytes 8 u.serial
    ++ leBytes 2 (u.hidx % 512) ++ zeros 6 ++ windowBytes u.window ++ zeros 172)

/-- Locator and head of a record at a place. -/
def locatedHead (d : Dev) (p : Place) (seq : Nat) (r : Rec) : List Byte :=
  locatorBytes p seq (recHead d r).length ++ recHead d r

/-- The records of a unit in body order, each with its first segment. -/
def unitRecords (d : Dev) (u : FUnit) : List (Rec × Nat) :=
  u.bodies.filterMap (fun x => (findRec d x.1).map (fun r => (r, x.2.1)))

/-- The directory of a unit closed at `ht` (R160). -/
def directoryBytes (d : Dev) (u : FUnit) (ht : Nat) : List Byte :=
  let rs := unitRecords d u
  let heads := rs.flatMap (fun e => locatedHead d (u.cell, u.target, u.position, e.2) u.stripeSeq e.1)
  withCrc (leBytes 4 0x54444952 ++ leBytes 4 rs.length ++ leBytes 4 (64 + heads.length) ++ zeros 4
    ++ leBytes 8 u.stripeSeq ++ leBytes 8 ht ++ zeros 28) ++ heads

/-- A journal word line (R161): header, then the locators as they were written, with their heads. -/
def journalLine (d : Dev) (l : JLine) : List Byte :=
  let rs := l.heads.filterMap (fun h => ((d.flash.records ++ d.flash.ghosts).find? (fun r => r.id = h.id)).map (fun r => (h, r)))
  withCrc (leBytes 4 0x544A524E ++ leBytes 4 rs.length ++ leBytes 8 l.seq ++ leBytes 8 l.writeHt ++ zeros 36)
    ++ rs.flatMap (fun e => locatedHead d e.1.place e.1.stripeSeq e.2)

/-- One segment of bytes from `off`, filled with zero. -/
def segmentAt (bs : List Byte) (off : Nat) : List Byte := ((bs.drop off).take segBytes ++ zeros segBytes).take segBytes

/-- What stands in a segment of a unit that the device has programmed: the header, the directory of a closed unit,
the body segments of its records, and on unit 340 (named as it is) the cell's journal lines (R158 to R161). None where
it has programmed none of these there: the directory segments past BYTES stay erased. -/
def unitSegment (d : Dev) (c t pos s : Nat) : Option (List Byte) :=
  if pos = 340 then
    (if 4 ≤ t then none
     else if s = 0 then ((journalOf d c).units.find? (fun u => u.target = t)).map (fun u => segmentAt (unitHeader u) 0)
     else ((((journalOf d c).lines.filter (fun l => l.unit = t)).reverse)[s - 1]?).map (fun l => segmentAt (journalLine d l) 0))
  else
    (findUnit d c t pos).bind (fun u =>
      if s = 0 then some (segmentAt (unitHeader u) 0)
      else if s < bodyFirst pos then u.closeHt.bind (fun ht =>
        let bs := directoryBytes d u ht
        if (s - 1) * segBytes < bs.length then some (segmentAt bs ((s - 1) * segBytes)) else none)
      else (u.bodies.find? (fun x => x.2.1 ≤ s && s < x.2.1 + x.2.2)).bind (fun x =>
        ((findRec d x.1).filter Rec.written).map (fun r => segmentAt (storedBody d r) ((s - x.2.1) * segBytes))))

end Sys2Proof.Machine
end

