-- ==== Sys2Proof/Machine/Transfer.lean ====
section
/-!
DEFINITION. Image transfer (R189 to R191, Table 10.7): the command and what the destination does with
chunks, and the source's stream of chunks.
-/

namespace Sys2Proof.Machine

/-! ### The destination -/

/-- Complete IMAGE_TRANSFER, with the head and body bytes moved. -/
def xferComplete (status : Nat) (d : Dev) : Dev :=
  let d := { d with
    svc := { d.svc with xferDone := true }, hrk := { d.hrk with xferKeys := [] }
    chp := { d.chp with sealRetained := false } }
  match findDesc d d.hrk.xferHandle with
  | some x => endWith x status (xferStatus d) d.hrk.xferBytes d
  | none => d

/-- A transfer ends without SUCCESS (R191): what it brought is erased, then the command completes. While WARN is
asserted no new erase starts (R105): the intent stays open, and the erase is that of the next BOOT. DEDUCED (log entry
175). -/
def endTransfer (status cause : Nat) (d : Dev) : Dev :=
  let d := if d.spw.warn then d else undoTransfer d
  xferComplete status { d with hrk := { d.hrk with xferState := 5, xferCause := cause } }

/-- XFER_ABORT to the peer, with the status (log entry 141). -/
def sendAbort (status : Nat) (d : Dev) : Dev := sendFrame 0x14 d.hrk.xferPeer false (words [status]) d

/-- The destination block is populated and holds no live record and no unretired list (R189). -/
def blockBlank (d : Dev) (b : Nat) : Bool :=
  populated d b && !(getBlk d b).fenced && !(getBlk d b).heldOut
    && !(d.flash.records.any (fun r => r.block = b && recLive d r.id))
    && !((unretired d).any (fun e => e.1.block = b))

/-- The slot holds a transfer key. -/
def xferKey (d : Dev) (s : Nat) : Bool := (getSlot d s).bound && (getSlot d s).loaded && (getSlot d s).fn = 0

/-- Serial of a device in the directory. The spec does not say how a device outside it learns the serial
that XFER_OPEN carries: a free value. -/
def peerSerial (i : Nat) (d : Dev) : Nat × Dev :=
  match d.hrk.dir.find? (fun e => e.hidx = i) with
  | some e => (e.serial, d)
  | none => fresh d

def imageTransfer (h : Nat) (d : Dev) : Dev :=
  match begin h true 0x4B d with
  | (none, d) => d
  | (some x, d) =>
    if xferDest d && d.hrk.xferHandle = h then d
    else inItsMode x (fun d =>
      if xferRuns d || d.flash.xferIntent.isSome then endWith x stBusy (xferStatus d) 0 d
      else
        let d := xferNamed x d
        let src := d.hrk.xferPeer
        let b := d.hrk.xferLocal
        let slot := d.hrk.xferSlot
        let stop := fun status cause (d : Dev) =>
          let d := { d with hrk := { d.hrk with xferState := 5, xferCause := cause } }
          endWith x status (xferStatus d) 0 d
        if !xferKey d slot then stop stKey 4 d
        else if !blockBlank d b then stop stSpace 4 d
        else if !(getPort d (portTo d src)).trained then stop stNotFound 1 d
        else
          let seq := (getBlk d b).stripeSeq
          match openStripe b d with
          | none => stop stBusy 5 d
          | some d =>
            let (session, d) := fresh d
            let (serial, d) := peerSerial src d
            sendFrame 0x10 src true (xferOpenBytes {
                srcIdx := ownIndex d, srcSerial := serial, dstSerial := d.board.serial
                srcBlock := d.hrk.xferPeerBlk, dstBlock := b, slot, kcv := (getSlot d slot).kcv
                session := session % 2 ^ 32 })
              { d with
                flash := { d.flash with
                  xferIntent := some b, xferSeq := seq, xferRecs := [], xferVaults := [], xferNonces := [] }
                hrk := { d.hrk with xferSession := session % 2 ^ 32 } }) d
/-- IMAGE_TRANSFER (R189, R190): the checks that the destination makes alone, the intent, XFER_OPEN. -/
def execImageTransfer (h : Nat) (s : State) : Answer := onDev (imageTransfer h) s

/-- A vault entry stands for a slot, from before the transfer. -/
def slotTaken (d : Dev) (s : Nat) : Bool :=
  d.cip.vault.any (fun v => v.slot = s && v.eraseHt = 0 && !d.flash.xferVaults.contains (v.slot, v.gen))

/-- A function holds data on the destination, from before the transfer. -/
def fnTaken (d : Dev) (f : Nat) : Bool :=
  f ≠ 0 && (d.pages.any (fun e => e.2.fn = f && (e.2.kind = .held || e.2.kind = .clean))
    || d.flash.records.any (fun r => r.fn = f && r.written && recLive d r.id && !d.flash.xferRecs.contains r.id))

/-- The body of a record that comes in. -/
def landedBody (r : Rec) : List Byte :=
  match r.kind, r.list with
  | .list, some l => padPages r.bytes (listBody l r.part)
  | _, _ => cipherBody r r.ckey

/-- The data key of a slot's generation: held by the device, or vault-held and brought by the transfer (R190). -/
def landedKey (d : Dev) (keys : List (Nat × Nat × Nat)) (s g : Nat) : Option Nat :=
  match keyOf d s g with
  | some k => some k
  | none => (keys.find? (fun e => e.1 = s && e.2.1 = g)).map (fun e => e.2.2)

/-- The vault-held keys that the items bring. -/
def itemKeys (cs : List XferContent) : List (Nat × Nat × Nat) :=
  cs.filterMap (fun c => match c with
    | .vault v => if v.hostHeld then none else some (v.slot, v.gen, v.key)
    | _ => none)

/-- HEAD_CRC and DATA_CRC of a record that comes in, and its own tag where the device holds the data key (R190). A
part of a list's chain comes without the list, so that its DATA_CRC is told by `readable`. -/
def landsWhole (d : Dev) (keys : List (Nat × Nat × Nat)) (r : Rec) (head : List Byte) : Bool :=
  let rest := (head.drop 128).take (headRest r).length
  let crc := fieldAt head 80 4
  fieldAt head 124 4 = (crc32c (head.take 124 ++ rest)).toNat && r.readable
    && (r.bytes = 0 || (r.kind = .list && r.list.isNone) || crc = (crc32c (landedBody r)).toNat)
    && (!isEnciphered r || match landedKey d keys r.slot r.gen with
      | some k => k = r.ckey && fieldAt head 64 16 = Config.gcmTag k (recIv r) (headAad r crc) (plainBody r) % 2 ^ 128
      | none => true)

/-- Room in the destination block's log for a record that comes in; a head alone takes none. -/
def landRoom (r : Rec) (headLen : Nat) (d : Dev) : Option ((Nat × Nat × Nat × Nat) × Dev) :=
  let b := d.hrk.xferLocal
  if r.bytes = 0 then some (((cellsInTurn d b).headD (8 * b), 0, 0, 0), d) else takeRoom b r.id r.bytes headLen d

/-- Land one record in the destination block's log: head and body unchanged, a new place, the head in two
journals. -/
def landRecord (r : Rec) (head : List Byte) (d : Dev) : Option Dev :=
  let b := d.hrk.xferLocal
  let n := head.length + 32 + r.bytes
  match landRoom r head.length d with
  | none => none
  | some ((c, t, pos, seg), d) =>
    let d := drawCredit b n (addRec { r with
      block := b, home := b, cell := c, target := t, position := pos, segment := seg, slc := true, written := true
      moving := none, tlc := none, tlcVerified := false, handle := 0 } d)
    let d := closeUnits (journalBoth c r.id (countCell c 1 (segmentsOf r.bytes) d))
    let d := if r.id / 2 ^ 56 = b then
        updBlk b (fun k => { k with serialNext := max k.serialNext (r.id % 2 ^ 56 + 1) }) d else d
    some { d with
      flash := { d.flash with xferRecs := d.flash.xferRecs ++ [r.id] }
      hrk := { d.hrk with xferBytes := d.hrk.xferBytes + n, xferCrc := head.foldl crcByte d.hrk.xferCrc } }

/-- One item of a chunk: landed, or the status and cause with which the transfer ends. -/
def landItem (c : XferContent) (d : Dev) : Dev ⊕ (Nat × Nat) :=
  match c with
  | .vault v =>
    if slotTaken d v.slot then .inr (stKey, 4)
    else
      let e : Vault := {
        slot := v.slot, gen := v.gen, fn := v.fn, hostHeld := v.hostHeld, pfx := v.pfx, loadHt := d.tmb.ht, kcv := v.kcv
        wrapped := if v.hostHeld then 0 else Config.wrapKey d.board.serial v.key, eraseHt := 0, written := true }
      let d := addVault e d
      .inl { d with flash := { d.flash with xferVaults := (v.slot, v.gen) :: d.flash.xferVaults } }
  | .nonce n =>
    .inl { d with flash := { d.flash with xferNonces := (n.slot, n.gen, n.hwm) :: d.flash.xferNonces } }
  | .record r head =>
    if fnTaken d r.fn then .inr (stSpace, 4)
    else match landRecord r head d with
      | some d => .inl d
      | none => .inr (stBusy, 5)

def landItems : List XferContent → Dev → Dev ⊕ (Dev × Nat × Nat)
  | [], d => .inl d
  | c :: cs, d =>
    match landItem c d with
    | .inl d => landItems cs d
    | .inr e => .inr (d, e.1, e.2)

/-- XFER_ACK: the count of chunks taken in order. -/
def sendChunkAck (d : Dev) : Dev := sendFrame 0x12 d.hrk.xferPeer false (words [d.hrk.xferNext]) d

/-- A chunk verifies: its own tag, and the check codes of every record that it brings. -/
def chunkGood (d : Dev) (c : XferChunk) : Bool :=
  c.verified && c.content.all (fun x => match x with
    | .record r head => landsWhole d (d.hrk.xferKeys ++ itemKeys c.content) r head
    | _ => true)

/-- A chunk fails: it is asked for again, up to 8 times. -/
def chunkFails (d : Dev) : Dev :=
  let d := { d with hrk := { d.hrk with xferFails := d.hrk.xferFails + 1 } }
  if 8 ≤ d.hrk.xferFails then endTransfer stBusy 2 (sendAbort stBusy d) else sendChunkAck d

/-- One chunk at the destination (R190). -/
def takeChunk (c : XferChunk) (d : Dev) : Dev :=
  if !xferDest d then d
  else if c.chunk ≠ d.hrk.xferNext then sendChunkAck d
  else if !chunkGood d c then chunkFails d
  else match landItems c.content d with
    | .inr (d, status, cause) => endTransfer status cause (sendAbort status d)
    | .inl d => sendChunkAck { d with hrk := { d.hrk with
        xferState := 2, xferNext := d.hrk.xferNext + 1, xferFails := 0, xferKeys := d.hrk.xferKeys ++ itemKeys c.content } }
/-- XFER_DATA (R190), forwarded by a device between (R182). -/
def execXferData (f : Received XferChunk) (s : State) : Answer :=
  onDev (receive f.head 0x11 f.body.payload
    (fun d => if f.head.src = d.hrk.xferPeer then takeChunk f.body d else d)) s

/-- Functions whose data a transfer brought. -/
def xferFns (d : Dev) : List Nat :=
  fnNumbers.filter (fun f => d.flash.records.any (fun r => r.fn = f && d.flash.xferRecs.contains r.id))

/-- Count and head CRC of an XFER_CLOSE match. -/
def closeMatches (count : Nat) (crc : W32) (d : Dev) : Bool :=
  count = d.hrk.xferNext && crc = d.hrk.xferCrc ^^^ 0xFFFFFFFF

/-- XFER_CLOSE that matches: the intent is completed. -/
def closeTransfer (d : Dev) : Dev :=
  if !xferDest d then d
  else
    let d := { d with
      flash := { d.flash with xferIntent := none }
      hrk := { d.hrk with xferState := 4 } }
    xferComplete stSuccess ((xferFns d).foldl (fun d f => dirChanged f 5 d) d)

/-- XFER_CLOSE at the destination: acknowledged where it matches. Where it does not, the transfer ends without
an acknowledgement, so that the source does not take it as done, and the spec names no cause: a free value. -/
def closeFrame (h : FrameIn) (count : Nat) (crc : W32) (d : Dev) : Dev :=
  if xferDest d && h.src = d.hrk.xferPeer && !closeMatches count crc d then
    let (v, d) := fresh d
    endTransfer stBusy (v % 16) (sendAbort stBusy d)
  else acked h h.src (fun d => if h.src = d.hrk.xferPeer then closeTransfer d else d) d
/-- XFER_CLOSE. -/
def execXferClose (head : FrameIn) (count : Nat) (crc : W32) (s : State) : Answer :=
  onDev (arrive head (words [count, crc.toNat])
    (overTree head (routed head 0x13 (words [count, crc.toNat]) (closeFrame head count crc)))) s

/-! ### The source -/

/-- The block's live page records, oldest RECORD_ID first; then its unretired lists; then the notes that
still win a page. -/
def xferRecords (d : Dev) (b : Nat) : List Rec :=
  let mine := d.flash.records.filter (fun r => r.block = b && r.written)
  let rs := claims d
  let lists := (unretired d).map (fun e => e.1.ref)
  sortBy Rec.id (mine.filter (fun r => recLive d r.id))
    ++ mine.filter (fun r => r.kind = .list && lists.contains r.ref)
    ++ mine.filter (fun r => (r.kind = .releaseNote || r.kind = .lossNote)
        && (r.runs.flatMap runPageList).any (fun p => match winner rs p with
          | some c => c.head.id = r.id
          | none => false))

/-- Generations of slots that the records name, as kept vault entries. -/
def xferVaultsOf (d : Dev) (b : Nat) : List Vault :=
  d.cip.vault.filter (fun v => v.written && v.eraseHt = 0
    && (xferRecords d b).any (fun r => isEnciphered r && r.slot = v.slot && r.gen = v.gen))

/-- A vault entry as sent: the data key unwrapped in the wrapped key's place. -/
def xferVaultBytes (d : Dev) (v : Vault) : List Byte :=
  vaultBytes { v with wrapped := (keyOf d v.slot v.gen).getD 0 }

def xferNonceBytes (d : Dev) (v : Vault) : List Byte :=
  leBytes 1 v.slot ++ leBytes 1 v.gen ++ leBytes 1 1 ++ leBytes 1 v.fn ++ leBytes 4 v.pfx
    ++ leBytes 8 ((nonceMarks d v.slot v.gen ++ [if (getSlot d v.slot).gen = v.gen then (getSlot d v.slot).hwm else 0]).foldl max 0)

/-- Locator, head and body of a record. -/
def xferRecBytes (d : Dev) (r : Rec) : List Byte :=
  let h := recHead d r
  locatorBytes r.place (placeStripe d r.place) h.length ++ h ++ (if r.bytes = 0 then [] else storedBody d r)

def keyPart (d : Dev) (b : Nat) : List Byte :=
  (xferVaultsOf d b).flatMap (xferVaultBytes d) ++ (xferVaultsOf d b).flatMap (xferNonceBytes d)

/-- Everything the source sends of a block, in the order of R190. -/
def xferStream (d : Dev) (b : Nat) : List Byte := keyPart d b ++ (xferRecords d b).flatMap (xferRecBytes d)

def chunkSize : Nat := 4064
def xferTotal (d : Dev) : Nat := ((xferStream d d.hrk.xferLocal).length + chunkSize - 1) / chunkSize

/-- Chunk `n` as sent: header, ciphertext and tag under the transfer key. The KIND codes are not given:
a free value. -/
def sendChunk (n : Nat) (d : Dev) : Dev :=
  let part := padPages chunkSize ((xferStream d d.hrk.xferLocal).drop (chunkSize * n))
  let (kind, d) := fresh d
  let head := leBytes 8 n ++ leBytes 1 kind ++ zeros 7
  let key := (getSlot d d.hrk.xferSlot).key
  let iv := d.hrk.xferSession + n * 2 ^ 32
  let body := part.zipIdx.map (fun e => Config.cipherByte key iv e.2 e.1)
  sendFrame 0x11 d.hrk.xferPeer false
    (head ++ body ++ leBytes 16 (Config.gcmTag key iv head part)) d

/-- Send what may stand unacknowledged, up to 64 chunks; XFER_CLOSE once every chunk is acknowledged. -/
def pump : Nat → Dev → Dev
  | 0, d => d
  | n + 1, d =>
    let total := xferTotal d
    if total ≤ d.hrk.xferAcked then
      sendFrame 0x13 d.hrk.xferPeer true
        (words [total, (crc32c ((xferRecords d d.hrk.xferLocal).flatMap (recHead d))).toNat])
        { d with hrk := { d.hrk with xferState := 3 } }
    else if total ≤ d.hrk.xferNext || d.hrk.xferAcked + 64 ≤ d.hrk.xferNext then d
    else pump n (sendChunk d.hrk.xferNext { d with hrk := { d.hrk with xferNext := d.hrk.xferNext + 1 } })

/-- XFER_OPEN at the source (R189, R190): refused with a status, or the stream starts. -/
def openSource (f : XferOpenFrame) (d : Dev) : Dev :=
  let no := fun status => sendFrame 0x14 f.srcIdx false (words [status]) d
  if xferRuns d then no stBusy
  else if d.chp.mode ≠ .service then no stMode
  else if !xferKey d f.slot || (getSlot d f.slot).kcv ≠ f.kcv then no stKey
  else pump 65 { d with hrk := { d.hrk with
    xferState := 2, xferCause := 0, xferSource := true, xferLocal := f.srcBlock, xferPeerBlk := f.dstBlock
    xferPeer := f.srcIdx, xferBytes := 0, xferHandle := 0, xferSlot := f.slot, xferNext := 0, xferAcked := 0
    xferFails := 0, xferSession := f.session } }
/-- XFER_OPEN. The frame's `srcIdx` is the device that sends it, the destination of the image. -/
def execXferOpen (head : FrameIn) (f : XferOpenFrame) (s : State) : Answer :=
  onDev (receive head 0x10 (xferOpenBytes f) (openSource f)) s

/-- XFER_ACK at the source: `n` chunks are taken; an acknowledgement that does not advance asks for the
next chunk again. -/
def chunkAck (n : Nat) (d : Dev) : Dev :=
  if !xferSends d || d.hrk.xferState ≠ 2 || d.hrk.xferNext < n then d
  else if n ≤ d.hrk.xferAcked then
    (if n = d.hrk.xferAcked && n < d.hrk.xferNext then sendChunk n { d with hrk := { d.hrk with xferFails := d.hrk.xferFails + 1 } } else d)
  else
    let len := (xferStream d d.hrk.xferLocal).length
    pump 65 { d with hrk := { d.hrk with
      xferAcked := n, xferFails := 0, xferBytes := min (n * chunkSize) len - (keyPart d d.hrk.xferLocal).length } }
/-- XFER_ACK. -/
def execXferAck (f : Received Nat) (s : State) : Answer :=
  onDev (receive f.head 0x12 (words [f.body])
    (fun d => if f.head.src = d.hrk.xferPeer then chunkAck f.body d else d)) s

/-- The close is acknowledged: the source's entries of the functions moved take STATE 4. -/
def sourceDone (d : Dev) : Dev :=
  if !(xferSends d && d.hrk.xferState = 3) then d
  else
    let fs := fnNumbers.filter (fun f => (xferRecords d d.hrk.xferLocal).any (fun r => r.fn = f))
    fs.foldl (fun d f => dirChanged f 4 d) { d with hrk := { d.hrk with xferState := 4 } }

/-! ### XFER_ABORT, and a path lost -/

/-- The source gives up. -/
def endSource (cause : Nat) (d : Dev) : Dev := { d with hrk := { d.hrk with xferState := 5, xferCause := cause } }

/-- XFER_ABORT: before the first chunk its status says which check of Table 10.7 the source failed; later
it ends the transfer with BUSY, cause 1, or 3 where it says that the source reaches DARK. -/
def abortTransfer (status : Nat) (d : Dev) : Dev :=
  if xferDest d then
    (if d.hrk.xferNext ≠ 0 then endTransfer stBusy (if status = 3 then 3 else 1) d
     else if status = stMode || status = stKey then endTransfer status 4 d
     else endTransfer stBusy (if status = stBusy then 0 else if status = 3 then 3 else 1) d)
  else if xferSends d then endSource 1 d
  else d
/-- XFER_ABORT (R191, Table 10.7). -/
def execXferAbort (f : Received Nat) (s : State) : Answer :=
  onDev (receive f.head 0x14 (words [f.body])
    (fun d => if f.head.src = d.hrk.xferPeer then abortTransfer f.body d else d)) s

/-- The port toward the peer is lost, or the path changes (Tables 10.7 and 10.9). -/
def xferPathLost (d : Dev) : Dev :=
  if xferDest d then endTransfer stBusy 1 d else if xferSends d then endSource 1 d else d

end Sys2Proof.Machine
end

