-- ==== Sys2Proof/Machine/Hierarchy.lean ====
section
/-!
DEFINITION. The hierarchy (R178 to R188, R192 to R196): ports, cues, JOIN and ASSIGN, status and
rehearsal slots, the directory, reconcile frames, acknowledgement, takeover and return.
-/

namespace Sys2Proof.Machine

/-- HRK_STATUS. -/
def hrkStatus (d : Dev) : Nat :=
  let h := d.hrk
  h.role % 4 * 2 ^ 30 + h.depth % 4 * 2 ^ 28 + boolNat d.board.roleMgr * 2 ^ 27 + boolNat h.lead * 2 ^ 26
    + boolNat h.takeover * 2 ^ 25 + boolNat h.deposed * 2 ^ 24 + boolNat h.inWaiting * 2 ^ 23
    + boolNat h.onStandby * 2 ^ 22 + boolNat h.joinRefused * 2 ^ 21 + h.index % 512

def traceLead (d : Dev) : Dev := trace 0x6005 77 (hrkStatus d) 0 d

def getNode (d : Dev) (i : Nat) : Node := Tab.get {} d.hrk.nodes i
def updNode (i : Nat) (g : Node → Node) (d : Dev) : Dev :=
  { d with hrk := { d.hrk with nodes := Tab.upd {} d.hrk.nodes i g } }

/-- u as a 32-bit field, 0xFFFF_FFFF unbounded. -/
def uField (d : Dev) : Nat :=
  match uncertainty d with
  | some u => min u 0xFFFFFFFF
  | none => 0xFFFFFFFF

/-- A device that has just turned to another lead in RECONCILE sends it its summary, and its keys after
C2 (Table 10.9). -/
def resendRecon (d : Dev) : Dev :=
  if !(rcnOpen d && subordinate d) then d
  else
    let d := sendSummary d
    if Tab.get 0 d.enc.rcnHt 2 = 0 then d else sendKeyFrames (d.enc.order.length + 1) 0 (ownKeys d) d

/-! ### The manager's wait and return (R195) -/

/-- The lead's view of the other devices starts anew from their summaries (R192, R195). -/
def forgetNodes (d : Dev) : Dev :=
  { d with hrk := { d.hrk with
    nodes := Tab.mapVals (fun (n : Node) => { n with present := false, reported := false, status := {} }) d.hrk.nodes
    summaries := [], keys := [] } }

/-- A manager whose children report no takeover leads, after a wait for worker 1 too (R195). -/
def resumeLead (d : Dev) : Dev :=
  let d := { d with hrk := { d.hrk with waitResponses := false } }
  if d.hrk.lead then d
  else traceLead { d with
    hrk := { d.hrk with lead := true, takeover := false, depth := 0 }
    tmb := { d.tmb with follower := false, depth := 0, lag := 0 } }

/-- A waiting manager becomes lead again, its HT kept and its floor at its u. -/
def leadAgain (d : Dev) : Dev :=
  let u := uField d
  let d := forgetNodes d
  traceLead { d with
    hrk := { d.hrk with inWaiting := false, lead := true, takeover := false, depth := 0 }
    tmb := { d.tmb with follower := false, floorU := u, depth := 0, lag := 0 } }

/-- The manager follows worker 1 at depth 1. -/
def standAside (d : Dev) : Dev :=
  resendRecon (traceLead { d with
    hrk := { d.hrk with waitResponses := false, inWaiting := true, lead := false, takeover := true, depth := 1 }
    tmb := { d.tmb with follower := true, delays := [], goodCues := 0 } })

/-- 3 CUE_RESP frames on every trained downlink end the wait. -/
def releaseManager (d : Dev) : Dev :=
  if !(d.hrk.waitResponses && harkaOn d && (downlinks d).all (fun p => 3 ≤ (getPort d p).responses)) then d
  else if d.hrk.respGm1 then standAside d
  else resumeLead d

/-! ### Ports (R179, R180, R196) -/

/-- Direction of a port that trains: HK0 the uplink, the standby port of a depth-1 device other than
worker 1, else a downlink. While the uplink is switched the standby port is it, and HK0 is shown unused: DESIGN CHOICE
(log entry 177). -/
def dirOf (d : Dev) (p : Nat) : Nat :=
  if d.hrk.onStandby && p = 0 then 3
  else if p = 0 || (d.hrk.onStandby && p = d.hrk.standbyPort) then 0
  else if p = d.hrk.standbyPort && d.hrk.depth = 1 && d.hrk.index ≠ 1 then 2
  else 1

def portTrained (p : Nat) (d : Dev) : Dev :=
  if !harkaOn d || !bit d.hrk.ctl p || (p = 0 && d.board.roleMgr) || (p ≠ 0 && 3 ≤ d.hrk.depth) then d
  else
    let dir := dirOf d p
    let d := updPort p (fun q => { q with
      trained := true, dir, following := false, responses := 0, lost := false, tree := false }) d
    let d := { d with hrk := { d.hrk with seenSeqs := d.hrk.seenSeqs.filter (fun e => e.1 ≠ p) } }
    if p = 0 then sendJoin { d with tmb := { d.tmb with delays := [] } } else d
/-- HARKA_PORT_TRAINED (R180). HK0 of a manager is not used, and a device at depth 3 leaves its downlinks
untrained. -/
def execHarkaPortTrained (p : Nat) (s : State) : Answer := onDev (portTrained p) s

def portLost (p : Nat) (d : Dev) : Dev :=
  if !(getPort d p).trained then d
  else
    let up := p = uplink d
    let path := xferRuns d && portTo d d.hrk.xferPeer = p
    let d := updPort p (fun q => { q with
      trained := false, following := false, lost := q.dir = 1, dir := 3, responses := 0, tree := false }) d
    let d := if path then xferPathLost d else d
    releaseManager (if up then holdover d else d)
/-- HARKA_PORT_LOST (R196). -/
def execHarkaPortLost (p : Nat) (s : State) : Answer := onDev (tracingTime (portLost p)) s

/-! ### Cues (R183) -/

/-- The cue that leaves on a port now (Table 10.4). -/
def cueOn (d : Dev) (p : Nat) : CueFrame :=
  { t1 := d.tmb.ht, t4 := Tab.get 0 d.hrk.t4 p, u := uField d, f := d.tmb.floorU, seq := d.hrk.cueSeq
    depth := d.tmb.depth, takeover := d.hrk.takeover, deposed := d.hrk.deposed, gmIdx := leadIndex d
    epochId := d.tmb.epochId }

def sendCue (d : Dev) (p : Nat) : Dev :=
  sendOn p 1 0xFFFE false (cueBytes (cueOn d p)) { d with hrk := { d.hrk with t4 := Tab.drop d.hrk.t4 p } }

def sendCues (d : Dev) : Dev :=
  if !harkaOn d then d
  else
    let d := (belowPorts d).foldl sendCue d
    releaseManager { d with hrk := { d.hrk with cueSeq := (d.hrk.cueSeq + 1) % 65536 } }
/-- CUE_SEND. -/
def execCueSend (s : State) : Answer := onDev (tracingTime sendCues) s

/-- A cue that comes in: it tells of the peer, and may tell of another lead. -/
def cueFrame (h : FrameIn) (c : CueFrame) (d : Dev) : Dev :=
  let d := updPort h.port (fun q => { q with peer := h.src }) d
  let e := tracingTime (cue h.port c) d
  if e.hrk.takeover = d.hrk.takeover then e else resendRecon e
/-- CUE (R57), which travels only on its own link (R182). -/
def execCue (f : Received CueFrame) (s : State) : Answer :=
  onDev (fun d => tryC2 (arrive f.head (cueBytes f.body) (cueFrame f.head f.body) d)) s

def cueResp (h : FrameIn) (r : CueRespFrame) (d : Dev) : Dev :=
  let p := h.port
  let d := updPort p (fun q => { q with peer := h.src, responses := q.responses + 1 }) d
  let d := if (r.seq + 1) % 65536 = d.hrk.cueSeq then
      { d with hrk := { d.hrk with t4 := Tab.set d.hrk.t4 p d.tmb.ht } } else d
  let d := if d.hrk.waitResponses && r.gmIdx = 1 then { d with hrk := { d.hrk with respGm1 := true } } else d
  let d := if d.hrk.deposed && h.src = 1 && r.gmIdx = 0 then
      traceLead { d with hrk := { d.hrk with deposed := false } } else d
  let d := if d.hrk.inWaiting && h.src = 1 && r.gmIdx = 0 then leadAgain d else d
  releaseManager d
/-- CUE_RESP (R183, R194, R195). -/
def execCueResp (head : FrameIn) (r : CueRespFrame) (s : State) : Answer :=
  onDev (arrive head (cueRespBytes r) (tracingTime (cueResp head r))) s

/-! ### JOIN and ASSIGN (R179, R180) -/

/-- A node is that of the joining device: by its serial. After a takeover the lead does not know the serial of a
device that its directory mirror does not name: the one at the index that the device asks for is taken to be it,
DESIGN CHOICE (log entry 146). -/
def joinersOwn (f : JoinFrame) (e : Nat × Node) : Bool :=
  e.2.serial = f.serial || (e.2.serial = 0 && e.1 = f.storedIdx)

/-- Another present device holds an index, or the lead itself does. -/
def indexHeld (d : Dev) (i : Nat) (f : JoinFrame) : Bool :=
  i = d.hrk.index || ((getNode d i).present && !joinersOwn f (i, getNode d i))

def presentWorkers (d : Dev) : Nat :=
  (d.hrk.nodes.filter (fun e => e.2.present && e.1 ≠ d.hrk.index)).length

/-- Present workers but for the joining device. -/
def otherWorkers (d : Dev) (f : JoinFrame) : Nat :=
  (d.hrk.nodes.filter (fun e => e.2.present && e.1 ≠ d.hrk.index && !joinersOwn f e)).length

/-- The answer to a JOIN: RESULT, and the index where it is granted. The lead sees the device's depth by the path
of its JOIN. -/
def decideJoin (d : Dev) (f : JoinFrame) (depth : Nat) : Nat × Option Nat :=
  if 3 < depth then (2, none)
  else if 511 ≤ otherWorkers d f then (3, none)
  else if f.storedIdx ≠ 0 && f.storedIdx < 512 && !indexHeld d f.storedIdx f
      && (f.storedIdx ≠ 1 || depth = 1) then (0, some f.storedIdx)
  else match ((List.range 510).map (· + 2)).find? (fun i => !indexHeld d i f) with
    | some i => (1, some i)
    | none => (3, none)

/-- The ASSIGN that answers a JOIN goes back over its port. The device's earlier node ends, and its frames count
from the start. An index that is refused is sent as a free value. -/
def answerJoin (p : Nat) (f : JoinFrame) (depth : Nat) (d : Dev) : Dev :=
  match decideJoin d f depth with
  | (result, some i) =>
    let d := { d with hrk := { d.hrk with
      nodes := d.hrk.nodes.filter (fun e => e.2.serial ≠ f.serial || e.1 = i)
      seenSeqs := d.hrk.seenSeqs.filter (fun e => !(e.1 = p && e.2.1 = i)) } }
    let d := updNode i (fun n => { n with
      present := true, reported := false, status := {}, serial := f.serial, depth
      takeoverEn := f.takeoverEn }) d
    let d := { d with hrk := { d.hrk with
      routes := (i, p) :: d.hrk.routes.filter (fun e => e.1 ≠ i), dismissed := d.hrk.dismissed && i ≠ 1 } }
    trace 0x6004 77 i 0
      (sendOn p 4 0xFFFE true (assignBytes { index := i, depth, result, gmIdx := leadIndex d }) d)
  | (result, none) =>
    let (v, d) := fresh d
    sendOn p 4 0xFFFE true
      (assignBytes { index := v % 65536, depth, result, gmIdx := leadIndex d }) d

/-- A JOIN on its way to the lead goes up the uplink as it came; its port and SEQ are kept for the ACK and the
ASSIGN that come back. -/
def passJoin (h : FrameIn) (f : JoinFrame) (d : Dev) : Dev :=
  let up := uplink d
  if !(getPort d up).trained then d
  else putFrame (onward h 3 (joinBytes f))
    { d with hrk := { d.hrk with
      joins := d.hrk.joins.filter (· ≠ (h.port, h.seq)) ++ [(h.port, h.seq)] } } up

/-- JOIN from a device: the SEQs of devices without an index are told apart by their serials. -/
def joinFrame (h : FrameIn) (f : JoinFrame) (depth : Nat) (d : Dev) : Dev :=
  if actsLead d then acked h (0x10000 + f.serial) (answerJoin h.port f depth) d
  else if subordinate d && h.port ≠ uplink d then passJoin h f d
  else d
/-- JOIN (R180): answered by the lead, passed on by a device between. -/
def execJoin (head : FrameIn) (f : JoinFrame) (depth : Nat) (s : State) : Answer :=
  onDev (arrive head (joinBytes f) (overTree head (tracingTime (joinFrame head f depth)))) s

/-- The downlinks of a device whose place in the tree changes: untrained at depth 3, one of them the
standby port at depth 1 (R179). -/
def redirect (d : Dev) : Dev :=
  { d with hrk := { d.hrk with ports := d.hrk.ports.map (fun (e : Nat × Port) =>
      if e.1 = 0 || !e.2.trained then e
      else if 3 ≤ d.hrk.depth then (e.1, { e.2 with trained := false, following := false, dir := 3, responses := 0 })
      else (e.1, { e.2 with dir := dirOf d e.1 })) } }

/-- A grant: index stored, role worker. It follows the hierarchy's cues at once where its image holds no
commit or it passes BOOT (R178); else from the first cue of its own epoch. -/
def takeAssign (f : AssignFrame) (d : Dev) : Dev :=
  let follow := d.tmb.follower || !imageCommits d || d.chp.mode = .boot
  sendAllDir <| redirect { d with
    hrk := { d.hrk with
      joining := false, joinRefused := false, role := 2, lead := false, index := f.index, depth := f.depth
      takeover := f.gmIdx = 1 }
    tmb := { d.tmb with follower := follow }
    flash := { d.flash with hidx := some f.index } }

def refuseAssign (d : Dev) : Dev :=
  { d with
    hrk := { d.hrk with joining := false, joinRefused := true, role := 0, lead := true, index := 0, depth := 0 }
    tmb := { d.tmb with follower := false } }

/-- An ASSIGN for the device's own JOIN. -/
def takeAnswer (f : AssignFrame) (d : Dev) : Dev :=
  if !d.hrk.joining then d
  else if f.result < 2 then trace 0x6004 77 f.index 0 (takeAssign f d)
  else refuseAssign d

/-- An ASSIGN for a device below: its index is learned for the port of its JOIN (R182); a repeat follows the
route learned. -/
def passAssign (h : FrameIn) (f : AssignFrame) (d : Dev) : Dev :=
  let g := onward h 4 (assignBytes f)
  match d.hrk.joins with
  | [] => (match d.hrk.routes.find? (fun e => e.1 = f.index) with
    | some (_, p) => putFrame g d p
    | none => d)
  | (p, _) :: rest =>
    putFrame g { d with hrk := { d.hrk with
      joins := rest
      routes := if f.result < 2 then (f.index, p) :: d.hrk.routes.filter (fun e => e.1 ≠ f.index)
        else d.hrk.routes } } p

/-- DST 0xFFFE names the device that the JOIN came from on this link. -/
def assignFrame (h : FrameIn) (f : AssignFrame) (d : Dev) : Dev :=
  if h.dst = 0xFFFE && !d.hrk.joining then passAssign h f d
  else routed h 4 (assignBytes f) (acked h h.src (takeAnswer f)) d
/-- ASSIGN (R180). -/
def execAssign (head : FrameIn) (f : AssignFrame) (s : State) : Answer :=
  onDev (arrive head (assignBytes f) (overTree head (tracingTime (assignFrame head f)))) s

/-! ### Status and rehearsal slots (R185, R186) -/

/-- A node counts as discharging. -/
def nodeDischarging (n : Node) : Bool :=
  (n.present && (n.status.mode = 7 || n.status.flags.testBit 1)) || n.slotOut

/-- The device itself discharges, or holds a slot that it issued to itself as lead. -/
def ownDischarging (d : Dev) : Bool :=
  d.chp.mode = .rehearsal || d.est.learning || (getNode d d.hrk.index).slotOut

/-- HRK_DEVICES.PRESENT and DISCHARGING. -/
def presentCount (d : Dev) : Nat := presentWorkers d + 1
def dischargingCount (d : Dev) : Nat :=
  (d.hrk.nodes.filter (fun e => e.1 ≠ d.hrk.index && nodeDischarging e.2)).length + boolNat (ownDischarging d)

def slotLimit (d : Dev) : Nat := max 1 (presentCount d * d.hrk.rehMaxPct / 100)

/-- REH_HT is older than PERIOD days, or 0. -/
def rehOld (d : Dev) (rehHt : Nat) : Bool :=
  rehHt = 0 || rehHt + d.hrk.rehPeriodDays * 345600000000000 < d.tmb.ht

/-- Eligible devices not yet discharging with the key of their issue order. -/
def slotCandidates (d : Dev) : List (Nat × Nat) :=
  let others := (d.hrk.nodes.filter (fun e => e.1 ≠ d.hrk.index && e.2.present && e.2.reported && !nodeDischarging e.2
    && rehOld d e.2.status.rehHt)).map (fun e => (boolNat (e.2.status.rehHt ≠ 0) * 512 + e.1, e.1))
  let own := if rehOld d d.reh.lastHt && !ownDischarging d && !d.chp.rehearsePend then
      [(boolNat (d.reh.lastHt ≠ 0) * 512 + d.hrk.index, d.hrk.index)] else []
  sortBy Prod.fst (own ++ others)

def issueSlot (d : Dev) (i : Nat) : Dev :=
  if i = d.hrk.index then rehSlot (updNode i (fun n => { n with slotOut := true, slotRehHt := d.reh.lastHt }) d)
  else sendFrame 7 i true (leBytes 8 d.tmb.ht) (updNode i (fun n => { n with
    slotOut := true, slotRehHt := n.status.rehHt }) d)

/-- Issue slots while fewer than N devices discharge. -/
def issueSlots (d : Dev) : Dev :=
  if !(actsLead d && d.hrk.rehEn) then d
  else ((slotCandidates d).take (slotLimit d - dischargingCount d)).foldl (fun d c => issueSlot d c.2) d

/-- A slot is over when the status shows another REH_HT, or REHEARSAL left without one. -/
def slotOver (n : Node) (f : StatusFrame) : Bool :=
  f.rehHt ≠ n.slotRehHt || (n.status.mode = 7 && f.mode ≠ 7)

/-- Serial of a node: as its JOIN gave it, else by the directory. -/
def nodeSerial (d : Dev) (i : Nat) : Nat :=
  if (getNode d i).serial ≠ 0 then (getNode d i).serial
  else ((d.hrk.dir.find? (fun e => e.hidx = i)).map DirEntry.serial).getD 0

def statusFrame (f : StatusFrame) (d : Dev) : Dev :=
  if actsLead d then
    (if f.hidx = d.hrk.index || (f.hidx = 1 && d.hrk.dismissed) then d
     else issueSlots (updNode f.hidx (fun n => { n with
       present := true, reported := true, serial := nodeSerial d f.hidx, status := f
       slotOut := n.slotOut && !slotOver n f }) d))
  else if f.hidx = leadIndex d then { d with hrk := { d.hrk with upMode := f.mode } }
  else d
/-- STATUS (R185). -/
def execStatus (f : Received StatusFrame) (s : State) : Answer :=
  onDev (receive f.head 5 (statusBytes f.body) (statusFrame f.body)) s

/-- The lead judges the slot that it issued to itself by its own status. -/
def ownSlot (d : Dev) : Dev :=
  if !actsLead d then d
  else updNode d.hrk.index (fun n => { n with
    status := ownStatus d, slotOut := n.slotOut && !slotOver n (ownStatus d) }) d

/-- STATUS_SEND (R185). The lead looks at its slots as often. -/
def execStatusSend (s : State) : Answer := onDev (fun d => issueSlots (ownSlot (sendStatus d))) s

def nodeAbsent (i : Nat) (d : Dev) : Dev :=
  if !(actsLead d && (getNode d i).present && i ≠ d.hrk.index) then d
  else postEvent 0x0D 0 [i] (updNode i (fun n => { n with present := false, reported := false, status := {} }) d)
/-- NODE_ABSENT (R185). -/
def execNodeAbsent (i : Nat) (s : State) : Answer := onDev (nodeAbsent i) s

/-- REH_SLOT_TIMEOUT (R186). -/
def execRehSlotTimeout (i : Nat) (s : State) : Answer :=
  onDev (fun d => issueSlots (updNode i (fun n => { n with slotOut := false }) d)) s

/-! ### Directory (R187) -/

def dirFrame (es : List DirEntry) (d : Dev) : Dev :=
  if actsLead d then forwardDir es (storeDir es d)
  else if d.hrk.index = 1 then storeDir es d
  else d
/-- DIR_UPDATE: kept by the lead, and by worker 1 as its mirror. -/
def execDirUpdate (head : FrameIn) (e : DirEntry) (more : List DirEntry) (s : State) : Answer :=
  onDev (receive head 6 ((e :: more).flatMap dirBytes) (dirFrame (e :: more))) s

def dirQuery (w : W32) (d : Dev) : Dev :=
  let i := field w 6 9
  let f := field w 0 6
  let any := d.hrk.lead || d.hrk.index = 1
  let r := d.hrk.dir.find? (fun e => e.hidx = i && e.fn = f && (any || e.serial = d.board.serial))
  { d with hrk := { d.hrk with dirQuery := w &&& 0x7FFF, dirResult := r } }
/-- HRK_DIR_QUERY: the result is valid 1 µs later. -/
def execHrkDirQuery (w : W32) (s : State) : Answer := onDev (dirQuery w) s

/-! ### Reconcile frames (R62, R188) -/

def takeSummary (i : Nat) (f : SummaryFrame) (d : Dev) : Dev :=
  if !actsLead d || d.enc.merged || d.chp.mode.settled || d.chp.mode.admits then d
  else tryC2 (raiseHt { d with hrk := { d.hrk with
    summaries := d.hrk.summaries.filter (fun s => s.1 ≠ i) ++ [(i, f)] } })
/-- RECON_SUMMARY: not taken once the lead has merged (R150). -/
def execReconSummary (head : FrameIn) (f : SummaryFrame) (kind : Nat) (s : State) : Answer :=
  onDev (receive head 8 (summaryBytes f kind) (tracingTime (takeSummary head.src f))) s

def takeKeys (i first : Nat) (ks : List OrderKey) (d : Dev) : Dev :=
  if !actsLead d || d.enc.merged then d
  else
    let new := (ks.zipIdx.map (fun k => (first + k.2, k.1))).filter (fun k =>
      !(d.hrk.keys.any (fun o => o.1 = i && o.2.1 = k.1)))
    { d with hrk := { d.hrk with keys := d.hrk.keys ++ new.map (fun k => (i, k)) } }
/-- RECON_KEYS. -/
def execReconKeys (head : FrameIn) (first : Nat) (ks : List OrderKey) (s : State) : Answer :=
  onDev (receive head 9 (keysBytes first ks) (takeKeys head.src first ks)) s

/-- Results in the order of the device's keys; each tells position and group (R188). -/
def takeResults (first : Nat) (ps : List OrderPlace) (d : Dev) : Dev :=
  if !(rcnOpen d && subordinate d) then d
  else
    let ks := ownKeys d
    let d := takePlaces (ps.zipIdx.filterMap (fun e =>
      (ks[first + e.2]?).map (fun k => (k.localIdx, { e.1 with conc := e.1.position ≠ e.1.group })))) false d
    { d with enc := { d.enc with placed := d.enc.placed + ps.length } }
/-- RECON_RESULT: results from key FIRST on. CONC is not on the wire. -/
def execReconResult (head : FrameIn) (first : Nat) (ps : List OrderPlace) (s : State) : Answer :=
  onDev (receive head 0x0A (resultsBytes first ps) (takeResults first ps)) s

/-- CONC of one entry once every result is there (R65): another member of its group shows it. The first
member of a group whose others lie on other devices cannot be told from a group of one by position and group
alone: a free bit. Log entry 142. -/
def settleConc (acc : List OrderEntry × Dev) (e : OrderEntry) : List OrderEntry × Dev :=
  if e.unack then (acc.1 ++ [e], acc.2)
  else if e.conc || acc.2.enc.order.any (fun o => !o.unack && o.group = e.group && o.epochId = e.epochId
      && o.position ≠ e.position) then (acc.1 ++ [{ e with conc := true }], acc.2)
  else
    let (v, d) := fresh acc.2
    (acc.1 ++ [{ e with conc := v % 2 = 1 }], d)

/-- A device of the lead's directory was left out of the merge (R150): worker 1 knows it where its mirror has more
devices than were merged, and knows that none was where the mirror has no other device. The count alone cannot tell
more, since a merged device need not stand in the directory, and another worker has no mirror: a free bit. Log
entry 144. -/
def leftOut (merged : Nat) (d : Dev) : Bool × Dev :=
  let known := (d.hrk.dir.map DirEntry.serial).eraseDups
  if d.hrk.index = 1 && merged < known.length then (true, d)
  else if d.hrk.index = 1 && known.all (fun s => s = d.board.serial) then (false, d)
  else
    let (v, d) := fresh d
    (v % 2 = 1, d)

/-- C3 ends on a device whose every entry has its place. -/
def reconDone (merged : Nat) (d : Dev) : Dev :=
  if !(rcnOpen d && subordinate d) || d.enc.placed < (runEntries d).length || Tab.get 0 d.enc.rcnHt 2 = 0 then d
  else
    let (order, d) := d.enc.order.foldl settleConc ([], d)
    let (partialMerge, d) := leftOut merged d
    rcnMilestone 3 { d with enc := { d.enc with order, merged := true, partialMerge } }
/-- RECON_DONE. -/
def execReconDone (f : Received Nat) (s : State) : Answer :=
  onDev (receive f.head 0x0B (reconDoneBytes f.body) (reconDone f.body)) s

/-! ### Acknowledgement (R182) -/

def takeAck (seq : Nat) (d : Dev) : Dev :=
  match d.hrk.unacked.find? (fun e => e.2.2.seq = seq) with
  | none => d
  | some (_, _, f) =>
    let d := { d with hrk := { d.hrk with unacked := d.hrk.unacked.filter (fun e => e.2.2.seq ≠ seq) } }
    if f.type = 0x10 && d.hrk.xferState = 1 then { d with hrk := { d.hrk with xferState := 2 } }
    else if f.type = 0x13 then sourceDone d
    else d

/-- An ACK without an index as its destination answers a JOIN: the device's own, or one that it passed on. -/
def ackFrame (h : FrameIn) (f : AckFrame) (d : Dev) : Dev :=
  let mine := d.hrk.unacked.any (fun e => e.2.2.seq = f.seq)
  match (if h.dst = 0xFFFE && !mine then d.hrk.joins.find? (fun j => j.2 = f.seq) else none) with
  | some (p, _) => putFrame (onward h 0x0F (ackBytes f.seq f.status)) d p
  | none => routed h 0x0F (ackBytes f.seq f.status) (takeAck f.seq) d
/-- ACK. -/
def execAck (head : FrameIn) (f : AckFrame) (s : State) : Answer :=
  onDev (arrive head (ackBytes f.seq f.status) (ackFrame head f)) s

/-- What a frame dropped after its repeats ends: an opening or closing transfer. -/
def frameDropped (f : Frame) (d : Dev) : Dev :=
  if f.type = 0x10 && xferDest d then endTransfer stNotFound 1 d
  else if f.type = 0x13 && xferSends d then endSource 1 d
  else d

def ackTimeout (p seq : Nat) (d : Dev) : Dev :=
  match d.hrk.unacked.find? (fun e => e.1 = p && e.2.2.seq = seq) with
  | none => d
  | some (_, n, f) =>
    let d := updPort p (fun q => { q with retry := satAdd 16 q.retry 1 }) d
    if n < 8 then
      let g := { f with retry := true }
      let d := { d with hrk := { d.hrk with unacked := d.hrk.unacked.map (fun e =>
        if e.1 = p && e.2.2.seq = seq then (p, n + 1, g) else e) } }
      putFrame g (countPort p 3 1 d) p
    else
      frameDropped f { d with hrk := { d.hrk with
        unacked := d.hrk.unacked.filter (fun e => !(e.1 = p && e.2.2.seq = seq)) } }
/-- ACK_TIMEOUT: up to 8 repeats, then the frame is dropped and counted. -/
def execAckTimeout (p seq : Nat) (s : State) : Answer := onDev (ackTimeout p seq) s

/-! ### Takeover, deposition, standby (R192 to R194) -/

/-- The modes in which worker 1 takes over. -/
def takeoverMode (m : Mode) : Bool :=
  m = .encore || m = .reconcile || m.settled || m = .rehearsal || m = .service

/-- CURTAIN, INTERMISSION or SEALED as a status shows them. -/
def powerEvent (mode : Nat) : Bool := mode = 8 || mode = 9 || mode = 10

def takeover (d : Dev) : Dev :=
  if !(harkaOn d && bit d.hrk.ctl 10 && d.hrk.role = 2 && d.hrk.index = 1 && d.hrk.depth = 1 && !d.hrk.lead
      && d.flash.epoch.isSome && takeoverMode d.chp.mode && !powerEvent d.hrk.upMode) then d
  else
    let u := uField d
    let path := xferRuns d && portTo d d.hrk.xferPeer = 0
    let d := { d with
      hrk := { d.hrk with
        lead := true, takeover := true, nodes := [], summaries := [], keys := [] }
      tmb := { d.tmb with follower := false, floorU := u, depth := 0, lag := 0 } }
    let d := if path then xferPathLost d else d
    traceLead (postEvent 0x0E 0 [u] d)
/-- TAKEOVER (R59, R192). -/
def execTakeover (s : State) : Answer := onDev (tracingTime takeover) s

def depose (d : Dev) : Dev :=
  let n := getNode d 1
  if !(harkaOn d && d.hrk.role = 1 && actsLead d && !d.hrk.deposed && n.present && n.takeoverEn
      && !powerEvent n.status.mode) then d
  else traceLead { d with hrk := { d.hrk with deposed := true } }
/-- DEPOSED (R194). -/
def execDeposed (s : State) : Answer := onDev (tracingTime depose) s

/-- DISMISS_US (R194): worker 1 counts as absent until it joins again. -/
def execDismissUs (s : State) : Answer :=
  onDev (tracingTime (fun d =>
    if !d.hrk.deposed then d
    else updNode 1 (fun n => { n with present := false, reported := false, status := {} })
      { d with hrk := { d.hrk with deposed := false, dismissed := true } })) s

def standbySwitch (d : Dev) : Dev :=
  let p := d.hrk.standbyPort
  if !(harkaOn d && d.hrk.role = 2 && d.hrk.depth = 1 && d.hrk.index ≠ 1 && 1 ≤ p && p ≤ 8 && !d.hrk.onStandby
      && d.hrk.sawTakeover && (getPort d p).trained) then d
  else
    let d := updPort 0 (fun q => { q with following := false, dir := if q.trained then 3 else q.dir }) d
    let d := updPort p (fun q => { q with dir := 0 }) d
    resendRecon { d with
      hrk := { d.hrk with onStandby := true, takeover := true }
      tmb := { d.tmb with delays := [] } }
/-- STANDBY_SWITCH (R193). -/
def execStandbySwitch (s : State) : Answer := onDev (tracingTime standbySwitch) s

end Sys2Proof.Machine
end

