-- ==== Sys2Proof/Machine/Ports.lean ====
section
/-!
DEFINITION. The command ports of the flash channels (R316 to R327): arming, the commands of Table 18.4
with their checks, their ends, continuous reads, and the suspension of erases (R19, R324).
-/

namespace Sys2Proof.Machine

/-! ### Arming (R316) -/

def disarm (c : Nat) (d : Dev) : Dev := updCell c (fun k => { k with arm := .disarmed }) d

/-- A write to FLC_CMD, FLC_ADDR or FLC_CTL while the port is not armed. -/
def portIgnored (c : Nat) (d : Dev) : Dev :=
  updCell c (fun k => { k with ignored := satAdd 16 k.ignored 1 }) d

def flcKey (c : Nat) (w : W32) (d : Dev) : Dev :=
  let k := field w 0 16
  if !portPresent d c then d
  else if k = 0x7E1B then updCell c (fun s => { s with arm := .half }) d
  else if k = 0x81E4 && (getCell d c).arm = .half then updCell c (fun s => { s with arm := .armed }) d
  else updCell c (fun s => { s with arm := .disarmed, badKeys := satAdd 16 s.badKeys 1 }) d
/-- FLC_KEY (R316). Key 2 on an armed port is another value and disarms it. -/
def execFlcKey (c : Nat) (w : W32) (s : State) : Answer := onDev (flcKey c w) s

/-! ### FLC_ADDR (Table 18.5) and units -/

/-- Mode of a unit (Table 18.2). -/
def unitModeOf (u : Nat) : Nat := if 192 ≤ u ∧ u < 320 then 1 else if u = 341 then 2 else 0

/-- Segments of a unit in a mode. -/
def unitSegments (mode : Nat) : Nat := if mode = 1 then 768 else 256

/-- Every field of the address is in range and fits the command (R318). -/
def addrOk (op : Nat) (a : W64) : Bool :=
  if op = 6 || op = 0x30 then true
  else aUnit a ≤ 341 && aMode a = unitModeOf (aUnit a)
    && (op = 0x20 || aSegment a < unitSegments (aMode a))
    && (!(op = 4 || op = 5) || 1 ≤ aLen a)
    && (op ≠ 0x10 || aMode a = 0) && (op ≠ 0x11 || aMode a = 1)

/-- A unit holds a body that must stand, or one still being written. -/
def unitLive (d : Dev) (c t u : Nat) : Bool :=
  unitHolds d (c, t, unitName u)

/-- A unit has an open intent; with `suspended`, its erase stands suspended (R325). -/
def openIntent (d : Dev) (c t u : Nat) : Bool := d.flash.intents.contains (c, t, unitName u)
def eraseOf (d : Dev) (c t : Nat) : Option Erase := ((getCell d c).erases.find? (fun e => e.1 = t)).map Prod.snd
def erasing (d : Dev) (c t u : Nat) : Bool :=
  match eraseOf d c t with
  | some e => e.unit = unitName u
  | none => false

/-- The next segment to program of a unit (R318): as the port left it, else the first of an erased unit;
a unit that the device has written takes none. -/
def nextSegment (d : Dev) (c t u : Nat) : Nat :=
  match d.flash.unitNext.find? (fun e => e.1 = (c, t, unitName u)) with
  | some e => e.2
  | none =>
    let p := unitName u
    if p < 200 then (if Tab.get .erased (getBlk d (c / 8)).stripes p = .erased then 0 else 256)
    else if p < 328 then (if Tab.get .erased (getBlk d (c / 8)).tlcStripes (p - 200) = .erased then 0 else 768)
    else 0

/-- Access by unit and mode (Table 18.6, R319): 0, DENIED or LIVE. -/
def access (d : Dev) (c op : Nat) (a : W64) : Nat :=
  let u := aUnit a
  let shelf := 328 ≤ u && u ≤ 335
  if op = 6 || op = 0x30 then 0
  else if u = 341 then 2
  else if opReads op then (if shelf || d.chp.mode = .service then 0 else 2)
  else if 336 ≤ u then 3
  else if shelf then 0
  else if unitLive d c (aTarget a) u then 3
  else if d.chp.mode = .service then 0
  else 2

/-- The modes in which ports are refused. -/
def portsRefused (d : Dev) : Bool :=
  match d.chp.mode with
  | .armed | .derated | .writeThrough | .rehearsal | .service => false
  | _ => true

/-- The result with which a command ends at its start, or 0 when it may run (R318, R319, R324). -/
def startResult (d : Dev) (c op : Nat) (a : W64) : Nat :=
  let t := aTarget a
  let u := aUnit a
  if portsRefused d then 11
  else if !(opReads op || opPrograms op || op = 6 || op = 0x20 || op = 0x30) then 10
  else if !addrOk op a then 10
  else if access d c op a ≠ 0 then access d c op a
  else if (getCell d c).failed || (!(opReads op) && op ≠ 6 && (getCell d c).deadTargets.contains t) then 9
  else if opPrograms op && (openIntent d c t u || aSegment a ≠ nextSegment d c t u) then 12
  else 0

/-! ### Start and end -/

/-- A command ends with a result, traced (R348). -/
def portDone (c op result : Nat) (d : Dev) : Dev :=
  let d := updCell c (fun k => { k with port := .done, op, result }) d
  trace 0x3005 c (getCell d c).addr.toNat (op * 256 + result) d

/-- A queued command waits (R321): its block is in shortfall or draining; an erase also while WARN is
asserted (R105) or its target is erasing. -/
def portWaits (d : Dev) (c op : Nat) (a : W64) : Bool :=
  0 < shortB d (c / 8)
    || (d.chp.mode = .writeThrough && unstagedB d (c / 8) ≠ 0)
    || (op = 0x20 && (d.spw.warn || (eraseOf d c (aTarget a)).isSome))

/-- A command starts: it ends at once on a failed check, a CREAD_STOP ends the continuous read, an erase
is journalled and begins; the others execute until the die is done. -/
def portBegin (c : Nat) (d : Dev) : Dev :=
  let k := getCell d c
  let op := k.op
  let a := k.addr
  let r := startResult d c op a
  if r ≠ 0 then portDone c op r d
  else if op = 6 then portDone c op 1 (updCell c (fun k => { k with left := 0, ready := false }) d)
  else if op = 0x20 then
    startErase c (aTarget a) (unitName (aUnit a)) (aMode a) true (updCell c (fun k => { k with port := .executing }) d)
  else updCell c (fun k => { k with port := .executing }) d

/-- A command runs: the armed port disarms, and the command is queued, then started unless it waits.
One that arrives while the port carries another has no effect; during a continuous read it ends BUSY,
but for CREAD_STOP. -/
def portRun (c op : Nat) (d : Dev) : Dev :=
  let k := getCell d c
  if !portPresent d c || k.arm ≠ .armed || field k.cmd 0 8 ≠ op then d
  else
    let d := disarm c d
    if k.port = .queued || k.port = .executing then d
    else if k.port = .reading && op ≠ 6 then updCell c (fun k => { k with result := 14 }) d
    else
      let d := countCell c 7 1 (updCell c (fun k => { k with
        port := .queued, op, ready := false, index := 0, left := 0 }) d)
      if !portsRefused d && portWaits d c op k.addr then d else portBegin c d

/-- READ_SEG, READ_SPARE, READ_RAW, the continuous reads, READ_ID, ERASE_UNIT, CREAD_STOP: run by the
write of FLC_ADDR's upper half (R317). -/
def execReadSeg (c : Nat) (s : State) : Answer := onDev (portRun c 0x01) s
def execReadSpare (c : Nat) (s : State) : Answer := onDev (portRun c 0x02) s
def execReadRaw (c : Nat) (s : State) : Answer := onDev (portRun c 0x03) s
def execCreadUnit (c : Nat) (s : State) : Answer := onDev (portRun c 0x04) s
def execCreadTargets (c : Nat) (s : State) : Answer := onDev (portRun c 0x05) s
def execCreadStop (c : Nat) (s : State) : Answer := onDev (portRun c 0x06) s
def execEraseUnit (c : Nat) (s : State) : Answer := onDev (portRun c 0x20) s
def execReadId (c : Nat) (s : State) : Answer := onDev (portRun c 0x30) s

/-- A write of FLC_CTL.GO: ignored and counted on a port that is not armed. -/
def portGo (c op : Nat) (d : Dev) : Dev :=
  if !portPresent d c then d
  else if (getCell d c).arm ≠ .armed then portIgnored c d
  else portRun c op d

/-- PROGRAM_SEG and LOAD_TLC: run by GO, with their data in the window (R317). -/
def execProgramSeg (c : Nat) (s : State) : Answer := onDev (portGo c 0x10) s
def execLoadTlc (c : Nat) (s : State) : Answer := onDev (portGo c 0x11) s

/-! ### The die is done -/

/-- Bytes that a read leaves in the window: a segment, the four spare areas, one plane, an identity. -/
def readBytes (op : Nat) : Nat := if op = 2 then 8192 else if op = 3 then 18432 else if op = 0x30 then 256 else 65536

/-- A segment as a port or the device programmed it, where the die returned it corrected. -/
def storedSegment (d : Dev) (c op : Nat) (a : W64) : Option (Tab Byte) :=
  if op = 1 || op = 4 || op = 5 then
    match (d.flash.segments.find? (fun e => e.1 = (c, aTarget a, unitName (aUnit a), aSegment a))).map Prod.snd with
    | some w => some w
    | none => (unitSegment d c (aTarget a) (unitName (aUnit a)) (aSegment a)).map (fun bs => bs.zipIdx.map (fun e => (e.2, e.1)))
  else none

/-- Data sensed into the window. -/
def sensed (op : Nat) (data : List Byte) : Tab Byte :=
  (data.take (readBytes op)).zipIdx.map (fun e => (e.2, e.1))

/-- The result of a read of a unit whose erase is suspended or whose intent is open (R325); its data is
as sensed. -/
def readState (d : Dev) (c op : Nat) (a : W64) : Nat :=
  if op = 0x30 then 1
  else if erasing d c (aTarget a) (aUnit a) then 4
  else if openIntent d c (aTarget a) (aUnit a) then 5
  else 1

/-- What a read brought: window, RESULT, FLC_ECC, counters and fault records (Table 19.3). None where
the outcome is no outcome of a read. -/
def readOutcome (c op : Nat) (a : W64) (o : DieOutcome) (d : Dev) : Option (Nat × Dev) :=
  let put := fun (w : Tab Byte) (load retries : Nat) (d : Dev) =>
    countCell c 0 1 (updCell c (fun k => { k with window := w, ready := true, eccLoad := load, eccRetries := retries }) d)
  let st := readState d c op a
  let kept := fun (data : List Byte) =>
    if st = 1 then (storedSegment d c op a).getD (sensed op data) else sensed op data
  match o with
  | .ok load data => some (st, put (kept data) load 0 d)
  | .retried retries load data =>
    let d := raiseFault {
      code := 0x0101, level := 1, island := c, severity := 0, target := aTarget a, unit := aUnit a
      segment := aSegment a } (countCell c 4 1 d)
    some (st, put (kept data) load retries d)
  | .uncorrectable mask data =>
    let d := raiseFault {
      code := 0x0102, level := 1, island := c, severity := 0, target := aTarget a, unit := aUnit a
      segment := aSegment a, detail := mask } (countCell c 5 1 d)
    some (if st = 1 then 6 else st, put (sensed op data) 100 (getCell d c).eccRetries d)
  | .targetDead => some (9, d)
  | _ => none

/-- A program or erase failed: counted, recorded; a shelf unit stays in use (R322). -/
def dieFail (c code : Nat) (a : W64) (d : Dev) : Dev :=
  let d := countCell c 6 1 (updCell c (fun k => { k with fails := Tab.upd 0 k.fails (aTarget a) (fun n => satAdd 16 n 1) }) d)
  raiseFault { code, level := 1, island := c, severity := 1, target := aTarget a, unit := aUnit a } d

/-- PROGRAM_SEG. -/
def programOutcome (c : Nat) (a : W64) (o : DieOutcome) (d : Dev) : Option (Nat × Dev) :=
  match o with
  | .ok .. => some (1, putSegment c a (getCell d c).window d)
  | .programFail => some (7, dieFail c 0x0103 a d)
  | .targetDead => some (9, d)
  | _ => none

/-- LOAD_TLC. -/
def loadOutcome (c : Nat) (a : W64) (o : DieOutcome) (d : Dev) : Option (Nat × Dev) :=
  match o with
  | .ok .. => some (1, putTlc c a d)
  | .programFail => some (7, updCell c (fun k => { k with tlcPages := [] }) (dieFail c 0x0103 a d))
  | .targetDead => some (9, d)
  | _ => none

/-- The erase that a port issued failed: its intent stays open. -/
def eraseOutcome (c : Nat) (a : W64) (o : DieOutcome) (d : Dev) : Option (Nat × Dev) :=
  let drop := updCell c (fun k => { k with erases := Tab.drop k.erases (aTarget a) })
  match o with
  | .eraseFail => some (8, dieFail c 0x0104 a (drop d))
  | .targetDead => some (9, drop d)
  | _ => none

/-! ### Continuous read (R327) -/

/-- The segment after `a` in a continuous read, none at the unit's end. -/
def creadNext (op : Nat) (a : W64) : Option W64 :=
  let last := aSegment a + 1 = unitSegments (aMode a)
  if op = 4 then (if last then none else some (aMove a (aTarget a) (aSegment a + 1)))
  else if aTarget a < 7 then some (aMove a (aTarget a + 1) (aSegment a))
  else if last then none
  else some (aMove a 0 (aSegment a + 1))

/-- A segment of a continuous read has been delivered: it goes on until LEN or the unit's end. -/
def creadStep (c op result : Nat) (a : W64) (d : Dev) : Dev :=
  let k := getCell d c
  match creadNext op a with
  | some n =>
    if 1 < k.left then
      updCell c (fun k => { k with port := .reading, result, left := k.left - 1, nextAddr := n }) d
    else portDone c op result (updCell c (fun k => { k with left := 0 }) d)
  | none => portDone c op result (updCell c (fun k => { k with left := 0 }) d)

/-- A write of FLC_CTL.NEXT: the window is to be replaced with the next segment. -/
def next (c : Nat) (d : Dev) : Dev :=
  let k := getCell d c
  if !portPresent d c then d
  else if k.arm ≠ .armed then portIgnored c d
  else if k.port ≠ .reading || (k.left = 0) then d
  else updCell c (fun k => { k with port := .executing, ready := false, index := k.index + 1 }) d
/-- NEXT (R327). It is a write of FLC_CTL and no command code, so the port stays armed. -/
def execNext (c : Nat) (s : State) : Answer := onDev (next c) s

/-- A target that is erasing must be suspended before it can be read (R19). -/
def readBlocked (d : Dev) (c op : Nat) (a : W64) : Bool :=
  (opReads op || op = 0x30) && match eraseOf d c (aTarget a) with
    | some e => !e.suspended
    | none => false

/-- Reads served during a suspension count (R324). -/
def servedRead (c : Nat) (a : W64) (d : Dev) : Dev :=
  updCell c (fun k => { k with erases := k.erases.map (fun e =>
    if e.1 = aTarget a then (e.1, { e.2 with suspendReads := e.2.suspendReads + 1 }) else e) }) d

/-- The die has answered, or a queued command need wait no longer; nothing in a block powered down by a fence. -/
def operationDone (c : Nat) (o : DieOutcome) (d : Dev) : Dev :=
  let k := getCell d c
  if !portPresent d c then d
  else if k.port = .queued then
    (if portWaits d c k.op k.addr then d else portBegin c d)
  else if k.port ≠ .executing then d
  else
    let a := workAddr k
    if readBlocked d c k.op a then d
    else if opReads k.op || k.op = 0x30 then
      match readOutcome c k.op a o d with
      | none => d
      | some (r, d) =>
        let d := servedRead c a d
        if (k.op = 4 || k.op = 5) && r ≠ 9 then
          let d := if k.index = 0 && k.left = 0 then updCell c (fun k => { k with left := aLen k.addr }) d else d
          creadStep c k.op r a d
        else portDone c k.op r d
    else
      match (if k.op = 0x10 then programOutcome c a o d
             else if k.op = 0x11 then loadOutcome c a o d
             else eraseOutcome c a o d) with
      | none => d
      | some (r, d) => portDone c k.op r d
/-- FLASH_OPERATION_DONE (R317): the die has answered; a queued command that no longer waits starts. -/
def execFlashOperationDone (c : Nat) (o : DieOutcome) (s : State) : Answer := onDev (operationDone c o) s

/-! ### Suspension (R19, R324) -/

def updErase (c t : Nat) (g : Erase → Erase) (d : Dev) : Dev :=
  updCell c (fun k => { k with erases := k.erases.map (fun e => if e.1 = t then (e.1, g e.2) else e) }) d

/-- A read of the target waits: the port's, or with `flow` one of the device's own flows. -/
def readWaits (d : Dev) (c t : Nat) (flow : Bool) : Bool :=
  flow || portReads d c t

/-- A suspend takes effect: asked for by a read, at least 500 µs after the start or last resume, and not once 3 ms
of progress are made or five suspensions stand. -/
def eraseSuspend (c t us : Nat) (flow : Bool) (d : Dev) : Dev :=
  match eraseOf d c t with
  | none => d
  | some e =>
    if e.suspended || !portPresent d c || !readWaits d c t flow || us < 500 || 5 ≤ e.suspends || 3000 ≤ e.progressUs + us then d
    else
      let d := updErase c t (fun e => { e with
        suspended := true, suspends := e.suspends + 1, suspendReads := 0, progressUs := e.progressUs + us }) d
      trace 0x3002 c (c + t * 256 + e.unit * 65536) (e.progressUs + us) (countCell c 3 1 d)
/-- ERASE_SUSPEND, with the progress made since the start or last resume. -/
def execEraseSuspend (die : Die) (us : Nat) (flow : Bool) (s : State) : Answer :=
  onDev (eraseSuspend die.cell die.target us flow) s

/-- A suspended erase resumes, with no read pending, after 2 ms or after 64 reads; never in CURTAIN, nor one that a
curtain suspended (R115). -/
def eraseResume (c t heldUs : Nat) (flow : Bool) (d : Dev) : Dev :=
  match eraseOf d c t with
  | none => d
  | some e =>
    if !e.suspended || e.frozen || !portPresent d c || d.chp.mode = .curtain
        || (readWaits d c t flow && heldUs < 2000 && e.suspendReads < 64) then d
    else trace 0x3003 c (c + t * 256 + e.unit * 65536) e.progressUs
      (updErase c t (fun e => { e with suspended := false }) d)
/-- ERASE_RESUME, with how long the suspension has stood and whether a flow of the device waits to read. -/
def execEraseResume (die : Die) (held : EraseHeld) (s : State) : Answer :=
  onDev (eraseResume die.cell die.target held.us held.flowRead) s

/-- ERASE_COMPLETE (R323); a port's erase that waited for the target starts. -/
def execEraseComplete (c t : Nat) (s : State) : Answer :=
  onDev (fun d =>
    let d := eraseComplete c t d
    let k := getCell d c
    if portPresent d c && k.port = .queued && k.op = 0x20 && !portWaits d c k.op k.addr then portBegin c d else d) s

end Sys2Proof.Machine
end

