-- ==== Sys2Proof/Machine/Flags.lean ====
section
/-!
DEFINITION. The status registers as a host reads them: each RO/V word computed from the state, by the
field tables of its chapter, and the playbill (R232). Words that traces and frames carry are with
their units: tmbStatus, tmbUnc, curtainStatus, pkbStatus, learnStatus, fspStatus, hrkStatus, xferStatus.
-/

namespace Sys2Proof.Machine

/-- A mask with bit `k` set for each `k` below `n` that passes. -/
def maskWhere (n : Nat) (p : Nat → Bool) : Nat := maskOf ((List.range n).filter p)

/-- A value as `bits` bits, saturating. -/
def sat (bits v : Nat) : Nat := min v (2 ^ bits - 1)

/-- A signed value in `bits` bits. -/
def signedBits (bits : Nat) (v : Int) : Nat := (v.emod (2 ^ bits)).toNat

/-! ### CHP -/

def chpMode (d : Dev) : Nat :=
  d.chp.seq % 256 * 2 ^ 24 + d.chp.cause % 256 * 2 ^ 16 + derateBits d % 32 * 2 ^ 8 + d.chp.prev.code * 16
    + d.chp.mode.code

/-- Unstaged data is drained at real-time priority: an orderly removal, the drain of SERVICE_ENTER or of host loss, a
block in shortfall (R84), or the remainder from before WRITE_THROUGH (R85). -/
def draining (d : Dev) : Bool :=
  d.pkb.bay = .draining || d.svc.drain || d.adm.hostLossDrain || d.adm.shortfall ≠ 0
    || (d.chp.mode = .writeThrough && d.pages.any (fun e => e.2.remainder && e.2.unstaged))

/-- CHP_ACT. SCRUB, COMPACT, CLEAN and PROBE show what may run or is queued: log entry 31. -/
def chpAct (d : Dev) : Nat :=
  boolNat d.chp.halt * 2 ^ 11 + boolNat d.chp.sealRetained * 2 ^ 10
    + boolNat (draining d) * 2 ^ 9
    + boolNat ((blockList d).any (fun b => (getBlk d b).crossSave)) * 2 ^ 8
    + boolNat (fnNumbers.any (fun f => (getFn d f).rebuilding)) * 2 ^ 7
    + boolNat (cleaningRuns d) * 2 ^ 6
    + boolNat ((blockList d).any (fun b => (getBlk d b).compactQ ≠ [])) * 2 ^ 5
    + boolNat ((blockList d).any (fun b => (getBlk d b).stripes.any (fun e => e.2 = .erasing))) * 2 ^ 4
    + boolNat (d.est.probing || mayProbe d) * 8 + boolNat d.est.learning * 4 + boolNat d.chp.rehearsePend * 2
    + boolNat d.chp.planned

def encStatus (d : Dev) : Nat :=
  maskWhere d.board.blocks (fun b => (getBlk d b).heldOut) * 2 ^ 24 + d.enc.bookOk % 256 * 2 ^ 16
    + d.enc.kind % 16 * 2 ^ 8 + boolNat d.enc.unnamed * 64 + boolNat d.enc.mismatch * 32
    + boolNat d.enc.partialMerge * 16 + boolNat d.enc.unmerged * 8 + boolNat d.enc.merged * 4
    + boolNat d.enc.shortFallback * 2

/-! ### TMB and SPW -/

def tmbCue (d : Dev) : Nat := signedBits 32 d.tmb.cueOffset * 2 ^ 32 + signedBits 32 d.tmb.cueDelay
def tmbEvents (d : Dev) : Nat := sat 16 d.tmb.rejected * 65536 + sat 16 d.tmb.steps
/-- TMB_HOLDOVER: milliseconds since the last accepted cue. -/
def tmbHoldover (d : Dev) : Nat :=
  if d.tmb.follower then sat 32 ((d.tmb.ht - d.tmb.lastCueHt) / 4000000) else 0
def spwVin (d : Dev) : Nat :=
  boolNat d.spw.onPack * 2 ^ 19 + boolNat d.spw.good * 2 ^ 18 + boolNat d.spw.warn * 2 ^ 17
    + boolNat d.spw.fail * 2 ^ 16 + sat 16 d.spw.mv
def spwEvents (d : Dev) : Nat := sat 16 d.spw.warnCount * 65536 + sat 16 d.spw.failCount
def curtainUnack (d : Dev) : Nat := sat 16 d.cur.unackDropped * 65536 + sat 16 d.cur.unackSaved
def intStatus (d : Dev) : Nat :=
  sat 16 d.int.count * 65536 + boolNat d.int.pasrEff * 32 + boolNat (d.int.pendingGranules ≠ []) * 16
    + d.int.exit % 4 * 4
/-- SPW_INT_RELOAD: bytes of live records in the granules still to reload. -/
def intReload (d : Dev) : Nat :=
  pageBytes * (d.pages.filter (fun e => e.2.record.isSome
    && d.int.pendingGranules.contains (pageAddr e.1 / 16777216))).length

/-! ### ADM -/

def admStatus (d : Dev) : Nat :=
  (d.descs.filter (fun x => x.phase = .waiting)).length * 65536 + boolNat d.adm.eByteMeasured * 64
    + boolNat (d.adm.reclaim ≠ []) * 32 + boolNat d.adm.shortS * 16 + boolNat d.adm.shortE * 8
    + boolNat ((blockList d).any (fun b => blkSpace d b < blkShare d b)) * 4 + boolNat d.adm.packZero * 2

/-! ### STG -/

def stgStatus (d : Dev) : Nat :=
  maskWhere d.board.blocks (fun b => (getBlk d b).pressure) * 2 ^ 24
    + maskWhere d.board.blocks (fun b => (getBlk d b).credit = 0) * 2 ^ 16
    + maskWhere d.board.blocks (fun b => 0 < (getBlk d b).debt) * 2 ^ 8
    + maskWhere d.board.blocks (forcedCompact d)
def stgWindow (d : Dev) (b : Nat) : Nat :=
  let k := getBlk d b
  k.sinceShift % 64 * 2 ^ 24 + k.wp % 256 * 2 ^ 16 + k.wb % 256 * 2 ^ 8
def stgEvents (d : Dev) (b : Nat) : Nat :=
  sat 16 (getBlk d b).scrubRefresh * 65536 + sat 16 (getBlk d b).shiftDeferrals

/-! ### EST and PKB -/

/-- Hundredths of a percent of a state in 10⁻¹⁵. -/
def centi (s : Int) : Nat := (max 0 (min s socOne) / 10 ^ 11).toNat

def weakIndex (e : Est) : Nat := (e.soc.findIdx? (· = weakest e)).getD 0

def estState (d : Dev) : Nat :=
  if d.pkb.bay = .settling then 1
  else if !tracking d then 0
  else if d.spw.onPack then 4
  else if d.est.learning then 3
  else 2

/-- LEARN_DUE: the set's learned values are older than 180 days, or there are none. -/
def learnDue (d : Dev) : Bool :=
  d.est.valid && (d.est.learnedMah = 0 || 180 * dayTicks < d.tmb.ht - d.est.learnedHt)

def estStatus (d : Dev) : Nat :=
  estState d * 2 ^ 28 + sat 8 (probesInBand d) * 2 ^ 16 + weakIndex d.est % 256 * 2 ^ 8
    + boolNat (learnDue d) * 128 + boolNat (faultOn d 6) * 64 + boolNat (d.est.ntc1Bad && d.est.ntc2Bad) * 32
    + boolNat (d.est.ntc1Bad != d.est.ntc2Bad) * 16 + boolNat d.est.restWindow * 8 + boolNat d.est.restDue * 4
    + boolNat (resting d) * 2 + boolNat d.est.params.isSome
def estSoc (d : Dev) : Nat := centi d.est.gauge * 65536 + centi (weakest d.est)
def estSigmaParts (d : Dev) : Nat :=
  sat 16 d.est.capPart * 2 ^ 32 + sat 16 d.est.socuPart * 2 ^ 16 + sat 16 d.est.modelPart
def estI (d : Dev) : Nat := signedBits 32 d.est.iMean
def estTemp (d : Dev) : Nat := signedBits 16 d.est.ntc1 * 65536 + signedBits 16 d.est.ntc2
def estCell (d : Dev) (k : Nat) : Nat :=
  centi (d.est.soc.getD k 0) * 65536 + sat 16 (d.est.cellUv.getD k 0 / 1000)
def estZ (d : Dev) : Nat := sat 16 d.est.zsRatio * 65536 + sat 16 d.est.zpRatio
def estCap (d : Dev) : Nat :=
  if d.pkb.desc = [] then 0 else sat 16 (designMah d) * 65536 + sat 16 (usedMah d)
def estParamStatus (d : Dev) : Nat :=
  d.est.paramSeq % 256 * 2 ^ 24 + d.est.outcome % 16 * 2 ^ 20 + boolNat d.est.shadow.isSome

def chgPhaseCode : ChgPhase → Nat
  | .off => 0 | .current => 1 | .voltage => 2 | .done => 3

/-- PKB_CHG_STATUS: a pause shows as PHASE 4 while a charge stands. -/
def chgStatus (d : Dev) : Nat :=
  let running := d.pkb.chgPhase = .current || d.pkb.chgPhase = .voltage
  (if running && chgPause d ≠ 0 then 4 else chgPhaseCode d.pkb.chgPhase) * 2 ^ 28
    + chgPause d * 2 ^ 24 + sat 16 (if charging d then d.pkb.chgMa else 0)
def pkbEvents (d : Dev) : Nat :=
  sat 8 d.pkb.insertions * 2 ^ 24 + sat 8 d.pkb.orderly * 2 ^ 16 + sat 8 d.pkb.surprise * 2 ^ 8
    + sat 4 d.pkb.cancels * 16 + sat 4 d.pkb.ignored

/-! ### EPT -/

def eptLink (d : Dev) : Nat :=
  (linkNow d).code * 2 ^ 28 + d.ept.rate % 16 * 2 ^ 24 + d.ept.width % 256 * 2 ^ 16 + d.ept.lanes % 256 * 2 ^ 8
    + boolNat (d.ept.rate = 6)
def eptFnState (d : Dev) : Nat := maskOf (fnNumbers.filter (fnEnabled d))
def eptTags (d : Dev) : Nat :=
  (d.ept.tags.filter (fun e => e.2.quarantined)).length * 65536 + (d.ept.tags.filter (fun e => !e.2.quarantined)).length
def eptResets (d : Dev) : Nat :=
  sat 8 d.ept.perst * 2 ^ 24 + sat 8 d.ept.hot * 2 ^ 16 + sat 8 d.ept.linkDown * 2 ^ 8 + sat 8 d.ept.orphaned
def eptHostLoss (d : Dev) : Nat :=
  if d.ept.hostLossState = 0 then 0
  else d.ept.hostLossState % 4 * 2 ^ 30 + sat 30 ((d.tmb.ht - d.ept.linkLostHt) / 4000000)
def winStatus (d : Dev) : Nat :=
  d.ept.winErr % 65536 * 65536 + d.ept.winResult % 16 * 4096 + boolNat d.ept.winBusy * 256 + d.ept.winVersion % 256

/-! ### Rings -/

/-- FNC_STATUS.STATE; of the states that hold together the table's latest but for a reset: a reset,
then DISABLED, then key-pending, then not restored. Log entry 47. -/
def fncState (d : Dev) (f : Nat) : Nat :=
  let s := getFn d f
  if s.resetting then 2
  else if !fnEnabled d f then 3
  else if s.keyPending then 5
  else if !s.restored then 4
  else if setUp d f then 1
  else 0

/-- FNC_STATUS. CQ_STALL: a completion waits for ring space. -/
def fncStatus (d : Dev) (f : Nat) : Nat :=
  let s := getFn d f
  fncState d f * 2 ^ 28 + sat 8 s.dbErrors * 256 + boolNat (s.cqWait ≠ []) * 4 + boolNat s.cfgError * 2 + boolNat (setUp d f)
def fncInflight (d : Dev) (f : Nat) : Nat :=
  let mine := d.descs.filter (fun x => x.fn = f)
  (mine.filter (fun x => x.phase = .waiting)).length * 65536 + mine.length + (getFn d f).cqWait.length
/-- FNC_SQ_STATE: HEAD, TAIL; FNC_CQ_STATE has its fields the other way round. -/
def sqState (d : Dev) (f n : Nat) : Nat := (sqRing d f n).dev % 65536 * 65536 + (sqRing d f n).host % 65536
def cqState (d : Dev) (f n : Nat) : Nat := (cqRing d f n).host % 65536 * 65536 + (cqRing d f n).dev % 65536
def mrgState (d : Dev) (r : Nat) : Nat := (mrgRing d r).dev % 65536 * 65536 + (mrgRing d r).host % 65536
/-- What MRG_STATE_HI latches: ring 4's bits 19:16. -/
def mrgStateHi (d : Dev) (r : Nat) : Nat :=
  if r = 4 then (mrgRing d 4).host / 65536 % 16 * 65536 + (mrgRing d 4).dev / 65536 % 16 else 0
def mrgEvents (d : Dev) : Nat := sat 16 d.mrg.lost * 65536 + d.mrg.orphans.length % 4096

/-- A ring's CFG word as read: EN and PHASE with the fields written. -/
def ringCfg (r : Ring) (written : Bool) : Nat :=
  boolNat r.en * 2 ^ 31 + boolNat (written && r.phase) * 2 ^ 30 + r.cfg.toNat % 2 ^ 30

/-! ### IDX, CIP -/

def idxStatus (d : Dev) : Nat := sat 16 d.idx.leftOut.length * 65536 + sat 16 d.idx.insq.length
def idxRebuild (d : Dev) : Nat := maskOf (fnNumbers.filter (fun f => (getFn d f).rebuilding))
def idxMismatch (d : Dev) : Nat := sat 16 d.idx.repeats * 65536 + sat 16 d.idx.first
def idxHot (d : Dev) : Nat := sat 32 d.idx.hits * 2 ^ 32 + sat 32 d.idx.misses
def idxBlk (d : Dev) (b : Nat) : Nat :=
  boolNat (d.idx.yielded.contains b) * 2 ^ 63 + (idxSlots d - idxEntries d b) % 2 ^ 31 * 2 ^ 32
    + idxEntries d b % 2 ^ 32
def fnEntries (d : Dev) (f : Nat) : List Extent := (indexed d).filter (fun x => x.fn = f)
def idxFnMulti (d : Dev) (f : Nat) : Nat :=
  ((fnEntries d f).filter (fun x => (fnEntries d f).any (fun y => y.tag = x.tag && y.ht = x.ht && y.eid ≠ x.eid))).length

def cipStatus (d : Dev) : Nat :=
  65536 + maskWhere (2 * d.board.blocks) (fun k =>
    if k % 2 = 0 then (getBlk d (k / 2)).pipe0Ok else (getBlk d (k / 2)).pipe1Ok)
def cipQueue (d : Dev) (b : Nat) : Nat :=
  let k := getBlk d b
  sat 32 k.cipherDone * 2 ^ 32
    + sat 16 (k.cipherActive.filter (fun a => a.2.2 ≠ (getSlot d a.2.1).gen)).length * 65536 + sat 16 k.cipherActive.length

/-- CIP_SLOT_STATE.STATE. Log entry 47 has the order where two hold. -/
def slotStateCode (d : Dev) (s : Nat) : Nat :=
  let k := getSlot d s
  if k.erasing then 5
  else if !k.bound then 0
  else if k.fn = 0 then 6
  else if slotKeyPending d s || !k.loaded then 2
  else if k.nonceUnknown then 3
  else if 2 ^ 64 - 2 ^ 32 ≤ k.ctr then 4
  else 1
def slotState (d : Dev) (s : Nat) : Nat :=
  let k := getSlot d s
  slotStateCode d s * 2 ^ 28 + boolNat k.hostHeld * 2 ^ 27 + boolNat k.oldKey.isSome * 2 ^ 26 + k.fn % 64 * 2 ^ 16
    + (k.oldKey.map Prod.fst).getD 0 % 256 * 256 + k.gen % 256

/-! ### DRC, FLC -/

/-- DRC_CH_STATUS.STATE. -/
def chState (d : Dev) (b : Nat) : Nat :=
  let k := getBlk d b
  if !k.portOk then 5
  else if !k.dramOn then 0
  else if k.selfRefresh then 4
  else if !blockOn d b then 0
  else if k.training then 1
  else if d.chp.mode = .curtain && 5 ≤ d.cur.milestone then 3
  else 2

/-- The mask of mode register 23: the segments not kept, from I8 to the exit (R305). -/
def pasrMask (d : Dev) (b : Nat) : Nat :=
  if d.chp.mode = .intermission && (getBlk d b).selfRefresh then 255 - d.int.kept / 2 ^ (8 * b) % 256 else 0

def gibLog2 (n : Nat) : Nat := if n = 32 then 5 else if n = 64 then 6 else 7

/-- DRC_CH_STATUS; the two PANIC bits follow the fill of the staging buffer in time and are left out. -/
def chStatus (d : Dev) (b : Nat) : Nat :=
  let k := getBlk d b
  chState d b * 2 ^ 28 + k.pullIn % 16 * 2 ^ 24 + k.refDebt % 16 * 2 ^ 20
    + (if k.mult = 1 then 0 else if k.mult = 2 then 1 else 2) * 2 ^ 18 + pasrMask d b * 256
    + (1 + boolNat (Config.moduleRanks k.moduleId)) * 64 + gibLog2 k.moduleGib
def chEcc (d : Dev) (b : Nat) : Nat := sat 32 (getBlk d b).eccCorrected * 2 ^ 32 + sat 32 (getBlk d b).eccUncorrected
def chTrain (d : Dev) (b : Nat) : Nat :=
  let k := getBlk d b
  sat 16 k.trainCount * 65536 + sat 8 k.trainFails * 256 + 3 * boolNat k.fspOk
def drcMap (d : Dev) : Nat := d.drc.mapNext % 4 * 16 + d.drc.mapNow % 4

def armCode : Arm → Nat
  | .disarmed => 0 | .half => 1 | .armed => 2
def portStateCode : PortState → Nat
  | .idle => 0 | .queued => 1 | .executing => 2 | .done => 3 | .reading => 4
def flcStatus (d : Dev) (c : Nat) : Nat :=
  let k := getCell d c
  armCode k.arm * 2 ^ 30 + portStateCode k.port * 2 ^ 27 + k.op % 256 * 256 + k.result % 256
def flcXfer (d : Dev) (c : Nat) : Nat := boolNat (getCell d c).ready * 2 ^ 31 + (getCell d c).index % 65536
def flcEcc (d : Dev) (c : Nat) : Nat := sat 8 (getCell d c).eccRetries * 256 + sat 8 (getCell d c).eccLoad
def flcEvents (d : Dev) (c : Nat) : Nat := sat 16 (getCell d c).badKeys * 65536 + sat 16 (getCell d c).ignored

/-- FLC_TGT.STATE: dead, erasing or suspended, or what the port's command does there. -/
def tgtState (d : Dev) (c t : Nat) : Nat :=
  let k := getCell d c
  if k.deadTargets.contains t then 5
  else match k.erases.find? (fun e => e.1 = t) with
  | some (_, e) => if e.suspended then 4 else 3
  | none =>
    if k.port = .executing && aTarget (workAddr k) = t then (if k.op = 0x10 || k.op = 0x11 then 2 else 1)
    else if k.port = .reading && aTarget (workAddr k) = t then 1
    else 0
def flcTgt (d : Dev) (c t : Nat) : Nat :=
  let e := (getCell d c).erases.find? (fun e => e.1 = t)
  tgtState d c t * 2 ^ 60 + ((e.map (fun e => e.2.suspends)).getD 0) % 8 * 2 ^ 57
    + boolNat (d.flash.intents.any (fun i => i.1 = c && i.2.1 = t)) * 2 ^ 56
    + ((e.map (fun e => e.2.unit)).getD 0) % 512 * 2 ^ 35
    + sat 16 (d.flash.retired.filter (fun i => i.1 = c && i.2.1 = t)).length * 65536
    + sat 16 (Tab.get 0 (getCell d c).fails t)

/-! ### HRK, ERR, OBS -/

def hrkDevices (d : Dev) : Nat :=
  if d.hrk.lead && d.hrk.role ≠ 0 then dischargingCount d % 1024 * 65536 + presentCount d % 1024 else 0
def hrkPort (d : Dev) (p : Nat) : Nat :=
  let k := getPort d p
  sat 16 k.crcErr * 2 ^ 48 + sat 16 k.retry * 2 ^ 32 + k.peer % 512 * 65536 + k.dir % 4 * 4 + boolNat k.following * 2
    + boolNat k.trained
/-- HRK_NODE: the newest summary in the layout of Table 10.5; zero while absent, before the first, and on a device
that does not hold the lead. -/
def hrkNode (d : Dev) (i : Nat) : List Byte :=
  let n := getNode d i
  if d.hrk.lead && d.hrk.role ≠ 0 && n.present && n.reported then statusBytes n.status else zeros 64

/-- HRK_DIR_RESULT0 and 1. -/
def dirResult (d : Dev) (k : Nat) : Nat :=
  match d.hrk.dirResult with
  | none => 0
  | some e => if k = 0 then e.serial else dirWord1 e

def fencedB (d : Dev) (b : Nat) : Bool := (getBlk d b).fenced
def errStatus (d : Dev) : Nat :=
  maskWhere d.board.blocks (fencedB d) * 256 + boolNat d.err.fatal * 128 + boolNat (d.err.notes ≠ []) * 64
    + maskWhere 4 (fun g => populated d (2 * g) && fencedB d (2 * g) && (!populated d (2 * g + 1) || fencedB d (2 * g + 1)))
def errCounts (d : Dev) : Nat :=
  sumNat ((List.range 4).map (fun k => sat 16 (Tab.get 0 d.err.counts (k + 1)) * 2 ^ (16 * k)))
/-- ERR_REC n: the record with SEQ mod 256 = n, zero until written. -/
def errRec (d : Dev) (n : Nat) : List Byte :=
  match d.err.records.find? (fun r => r.seq % 256 = n) with
  | some r => faultBytes r
  | none => zeros 64
/-- OBS_TAIL. -/
def obsTail (d : Dev) : Nat :=
  (d.obs.traceSeq - d.obs.tail.length) % 2048 * 65536 + d.obs.tail.length

/-! ### The 64-bit registers whose lower half latches their upper half (R12) -/

/-- Registers of unpopulated blocks read zero (R382). -/
def ofBlk (d : Dev) (b v : Nat) : Nat := if populated d b then v else 0
/-- The offsets of a per-function array for function 0 read zero. -/
def ofFn (f v : Nat) : Nat := if 1 ≤ f && f ≤ 63 then v else 0

/-- The value of a 64-bit RO/V register. DRC_CH_WQ shows nothing queued: a write lands within its
command. For MRG_STATE the upper half is MRG_STATE_HI. -/
def read64 (r : Reg64) (d : Dev) : Nat :=
  match r with
  | .chpModeHt => d.chp.modeHt
  | .encFnReady => maskOf (fnNumbers.filter (fun f => (getFn d f).restored))
  | .encFnKeywait => maskOf (fnNumbers.filter (fun f => (getFn d f).keyPending))
  | .encTotal => d.enc.total
  | .encDone => d.enc.done
  | .encMs e => Tab.get 0 d.enc.msHt e
  | .rcnMs c => Tab.get 0 d.enc.rcnHt c
  | .tmbNow => d.tmb.ht
  | .tmbCue => tmbCue d
  | .tmbRefOffset => signedBits 64 d.tmb.refOffset
  | .curtainFailHt => d.cur.failHt
  | .curtainSealHt => d.cur.sealHt
  | .curtainBytes => d.cur.bytes
  | .curtainSaved => d.cur.saved
  | .curtainLost => d.cur.lost
  | .intEntryHt => d.int.entryHt
  | .intKept => d.int.kept
  | .intReload => intReload d
  | .msHt m => Tab.get 0 d.cur.msHt m
  | .admBudget => d.adm.budget
  | .admUnstaged => unstagedAll d
  | .admEnergyBytes => d.adm.eTerm
  | .admShortfall => d.adm.shortfall
  | .admRecalcHt => d.adm.recalcHt
  | .admBlkBudget b => ofBlk d b (blkBudget d b)
  | .admBlkUnstaged b => ofBlk d b (unstagedB d b)
  | .admBlkSpace b => ofBlk d b (blkSpace d b)
  | .admFnShare f => ofFn f (share d f)
  | .admFnUnstaged f => ofFn f (unstagedF d f)
  | .admFnBorrowed f => ofFn f (borrowed d f)
  | .stgCredit b => ofBlk d b (getBlk d b).credit
  | .stgDebt b => ofBlk d b (getBlk d b).debt
  | .stgErased b => ofBlk d b (eRun d b)
  | .stgLiveSlc b => ofBlk d b (livePayload d b false)
  | .stgLiveTlc b => ofBlk d b (livePayload d b true)
  | .stgStaged b => ofBlk d b (getBlk d b).stagedBytes
  | .estSigmaParts => estSigmaParts d
  | .estRestHt => d.est.restHt
  | .estLearnHt => d.est.learnedHt
  | .pkbRemoveHt => d.pkb.removeHt
  | .eptFnState => eptFnState d
  | .eptUnmappedLog => d.ept.unmappedLog.toNat
  | .drcEcc b => ofBlk d b (chEcc d b)
  | .drcPoisonLog b => ofBlk d b (getBlk d b).poisonLog
  | .drcWq _ => 0
  | .drcModule b => ofBlk d b (getBlk d b).moduleId
  | .flcTgt c t => ofBlk d (c / 8) (flcTgt d c t)
  | .wrapOut k => d.cip.wrapOut / 2 ^ (64 * k)
  | .wrapKcv => d.cip.wrapKcv
  | .cipQueue b => ofBlk d b (cipQueue d b)
  | .slotCtr s => (getSlot d s).ctr
  | .slotKcv s => (getSlot d s).kcv
  | .idxRebuild => idxRebuild d
  | .idxHot => idxHot d
  | .idxBlk b => ofBlk d b (idxBlk d b)
  | .dirResult k => dirResult d k
  | .xferBytes => d.hrk.xferBytes
  | .hrkPort p => hrkPort d p
  | .errCounts => errCounts d
  | .errPlost f => ofFn f (Tab.get 0 d.err.plost f)
  | .obsCnt n => Tab.get 0 d.obs.cnt n
  | .mrgState r => mrgState d r + mrgStateHi d r * 2 ^ 32

/-! ### The playbill (R232, R380) -/

def ascii (n : Nat) (s : String) : List Byte :=
  ((s.toList.map (fun c => BitVec.ofNat 8 c.toNat)) ++ zeros n).take n

/-- A directory entry: NAME, OFFSET, SIZE, version 1.0. -/
def plbEntry (name : String) (off size : Nat) : List Byte :=
  ascii 4 name ++ leBytes 4 off ++ leBytes 4 size ++ [1, 0, 0, 0]

/-- The 21 entries of Table 23.1. -/
def directory : List Byte :=
  plbEntry "PLB " 0 0x10000 ++ plbEntry "CHP " 0x10000 0x10000 ++ plbEntry "TMB " 0x20000 0x10000
    ++ plbEntry "SPW " 0x30000 0x10000 ++ plbEntry "ADM " 0x40000 0x10000 ++ plbEntry "STG " 0x50000 0x10000
    ++ plbEntry "EST " 0x60000 0x10000 ++ plbEntry "PKB " 0x70000 0x10000 ++ plbEntry "EPT " 0x80000 0x20000
    ++ plbEntry "DRC " 0xA0000 0x20000 ++ plbEntry "FLC " 0xC0000 0x10000 ++ plbEntry "ROM " 0xD0000 0x10000
    ++ plbEntry "CIP " 0xE0000 0x10000 ++ plbEntry "IDX " 0xF0000 0x10000 ++ plbEntry "HRK " 0x100000 0x10000
    ++ plbEntry "ERR " 0x110000 0x10000 ++ plbEntry "OBS " 0x120000 0x10000 ++ plbEntry "MRG " 0x130000 0x10000
    ++ plbEntry "MSIX" 0x140000 0x1000 ++ plbEntry "FLCD" 0x400000 0x400000 ++ plbEntry "WIN " 0x800000 0x80000

/-- Bytes 0x0000 to 0x00A7 of Table 13.3. -/
def playbillHead (d : Dev) : List Byte :=
  let n := d.board.blocks
  leBytes 4 0x54504C42 ++ [1, 0] ++ leBytes 2 21 ++ leBytes 8 d.board.serial
    ++ ascii 16 (if d.board.x8 then "TN810-X8" else "TN810-P1") ++ [0xB0] ++ leBytes 1 (2 ^ n - 1) ++ [63]
    ++ leBytes 1 (boolNat d.board.roleMgr) ++ leBytes 4 d.board.fwVersion.toNat ++ leBytes 8 (n * usable d)
    ++ (List.range 8).flatMap (fun b => leBytes 2 (ofBlk d b (getBlk d b).moduleGib))
    ++ (List.range 8).flatMap (fun b => leBytes 8 (if b = 0 then 0 else ofBlk d b (getBlk d b).tsmSerial))
    ++ leBytes 2 2048 ++ leBytes 2 768 ++ [16, 16, 64, 6] ++ leBytes 4 65536 ++ [64, 2] ++ leBytes 2 512
    ++ leBytes 4 (dsEByte n) ++ leBytes 4 (dsEFixed n) ++ leBytes 4 (dsRate n) ++ leBytes 4 (24000 * n)
    ++ leBytes 8 0x1FFF

/-- The playbill: zero until B5. -/
def playbillBytes (d : Dev) : List Byte :=
  if !d.rom.playbill then zeros 65536
  else withCrc (playbillHead d ++ zeros 88 ++ (directory ++ zeros 512).take 512 ++ zeros 64764)

end Sys2Proof.Machine
end

