-- ==== Sys2Proof/Machine/Index.lean ====
section
/-!
DEFINITION. The extent index (chapter 15): LOOKUP, rebuilds, and the re-spreading of buckets.
-/

namespace Sys2Proof.Machine

/-- Every own page of an entry is clean. -/
def entryClean (d : Dev) (x : Extent) : Bool := (ownPages d x).all (fun p => (getPage d p).kind = .clean)

/-- Some own page of an entry is UNTRUSTED. -/
def entryUntrusted (d : Dev) (x : Extent) : Bool := (ownPages d x).any (fun p => (getPage d p).untrusted)

/-- Entries that a LOOKUP matches, in table order (R271, R274). -/
def matches' (d : Dev) (x : Desc) : List Extent :=
  sortBy Extent.key ((indexed d).filter (fun e => e.fn = x.fn && e.tag = x.entry.tag
    && (!bit x.entry.flags 4 || e.caddr = x.entry.caddr % 2 ^ 40)))

/-- The first entry of the largest HT. -/
def newestMatch : List Extent → Option Extent
  | [] => none
  | e :: es =>
    match newestMatch es with
    | some n => if e.ht < n.ht then some n else some e
    | none => some e

/-- A LOOKUP ends with BUSY for a held-out block: with EXACT where its CADDR lies in one (R135), else where the
function has data in one (R275). -/
def heldOutSearch (d : Dev) (x : Desc) : Bool :=
  let out := fun b => populated d b && (getBlk d b).heldOut
  if bit x.entry.flags 4 then out (blockOf x.entry.caddr)
  else d.flash.records.any (fun r => r.fn = x.fn && r.written && r.bytes ≠ 0 && out r.home)

/-- Whether the on-chip cache served a search is not given by the spec: a free bit. -/
def cacheTally (d : Dev) : Dev :=
  let (r, d) := fresh d
  if r % 2 = 0 then { d with idx := { d.idx with hits := satAdd 32 d.idx.hits 1 } }
  else { d with idx := { d.idx with misses := satAdd 32 d.idx.misses 1 } }

/-- The read-back's second mismatch or a poisoned index line: BUSY, the fault, a rebuild (R279). -/
def indexRepeat (x : Desc) (d : Dev) : Dev :=
  let d := { d with idx := { d.idx with repeats := satAdd 16 d.idx.repeats 1 } }
  let d := raiseFault { code := 0x0405, level := 4, island := 81, severity := 1, fn := x.fn } d
  endWith x stBusy 0 0 (updFn x.fn (fun s => { s with rebuilding := true }) d)

/-- Complete a LOOKUP from its matches (R274). -/
def lookupAnswer (x : Desc) (d : Dev) : Dev :=
  let es := matches' d x
  match newestMatch es with
  | none => endWith x stNotFound 0 0 d
  | some e =>
    let status := if 1 < (es.filter (fun o => o.ht = e.ht)).length then stMulti
      else if entryUntrusted d e then stUntrusted
      else stSuccess
    let bytes := pageBytes * ((ownPages d e).filter (fun p => (getPage d p).kind = .held)).length
    endWith x status (e.caddr % 2 ^ 40 + (e.pages - 1) * 2 ^ 40 + min es.length 65535 * 2 ^ 48) bytes d

/-- LOOKUP (R274, R275, R279, R280). -/
def lookup (h : Nat) (c : LookupCheck) (d : Dev) : Dev :=
  match begin h false 5 d with
  | (none, d) => d
  | (some x, d) =>
    let d := countFn x.fn 10 1 d
    if (getFn d x.fn).rebuilding || (getFn d x.fn).rebuildStopped || heldOutSearch d x then endWith x stBusy 0 0 d
    else
      let d := cacheTally d
      let first := fun (d : Dev) => { d with idx := { d.idx with first := satAdd 16 d.idx.first 1 } }
      match c with
      | .clean => lookupAnswer x d
      | .mismatch => lookupAnswer x (first d)
      | .repeated => indexRepeat x (first d)
      | .poisoned => indexRepeat x d
def execLookup (h : Nat) (c : LookupCheck) (s : State) : Answer := onDev (lookup h c) s

/-- The index island is on and a curtain has not stopped it (Table 15.2). -/
def indexOn (d : Dev) : Bool := orderingPowered d && (d.chp.mode ≠ .curtain || d.cur.milestone < 5)

/-- WRITE_THROUGH and energy holds that a full insertion queue kept ready commit once it has room (R275). A rebuilt
table is that of the log's headers and the unstaged extents, and the queued changes (R280): the extents that the model
holds; laid out in the mode in force (R278). -/
def rebuilt (f : Nat) (d : Dev) : Dev :=
  countsChanged (layOutFn f (updFn f (fun s => { s with rebuilding := false, rebuilds := 0 }) d))

/-- INDEX_REBUILD_DONE (R280): a rebuilt table that mismatches is rebuilt once more, and then no more
before BOOT. -/
def rebuildDone (f : Nat) (mismatch : Bool) (d : Dev) : Dev :=
  if !(getFn d f).rebuilding || !indexOn d then d
  else if !mismatch then rebuilt f d
  else
    let d := raiseFault { code := 0x0406, level := 4, island := 81, severity := 1, fn := f } d
    if (getFn d f).rebuilds = 0 then updFn f (fun s => { s with rebuilds := 1 }) d
    else countsChanged (layOutFn f (updFn f (fun s => { s with rebuilding := false, rebuildStopped := true }) d))
def execIndexRebuildDone (f : Nat) (mismatch : Bool) (s : State) : Answer := onDev (rebuildDone f mismatch) s

/-- BUCKET_RESPREAD (R276): the gaps of a GAPPED bucket that a full run asked to re-spread are restored, unless its
block yields them. Bucket numbers count from 65,536 × block. -/
def respread (f k : Nat) (d : Dev) : Dev :=
  let s := getFn d f
  let bs := Tab.get [] s.segs (k / 65536)
  if !indexOn d || !keepsGaps d f (k / 65536) || !s.respreads.contains k || s.rebuilding then d
  else updFn f (fun s => { s with
    segs := Tab.set s.segs (k / 65536) (bs.take (k % 65536)
      ++ layOut d f (k / 65536) ((bs.getD (k % 65536) []).filterMap id) ++ bs.drop (k % 65536 + 1))
    respreads := (s.respreads.filter (· ≠ k)).map (fun m =>
      if m / 65536 = k / 65536 && k < m then
        m + (layOut d f (k / 65536) ((bs.getD (k % 65536) []).filterMap id)).length - 1 else m) }) d
def execBucketRespread (f k : Nat) (s : State) : Answer := onDev (respread f k) s

end Sys2Proof.Machine
end

