-- ==== Sys2Proof/Machine/RegWrites.lean ====
section
/-!
DEFINITION. REGISTER_WRITE (R10 to R13): writes to the registers that hold a value, half writes of the
64-bit ones, and writes of a wrong size. Registers whose write acts at once have commands of their own.
-/

namespace Sys2Proof.Machine

/-- 64-bit registers (Tables 23.2 and 23.3). -/
def is64 : Reg → Bool
  | .chpEncFirst | .drcPortWt | .flcAddr _ | .cipWrapKey _ | .eptWinFn _ | .winEntry _ | .mrgBase _
  | .sqBase _ _ | .cqBase _ _ | .tmbEpoch | .tmbSetHt | .eptFnDisable => true
  | _ => false

/-- The register is there: its block populated (R382), its function present for a register of BAR0 of
a cache function, its index in range. -/
def regPresent (d : Dev) (r : Reg) : Bool :=
  match r with
  | .admSealReserve b => populated d b
  | .flcCmd c | .flcAddr c => portPresent d c
  | .flcData c off => portPresent d c && off < 65536
  | .admFnCfg f | .eptWinSize f | .eptWinFn f | .idxFnCfg f => 1 ≤ f && f ≤ 63
  | .winEntry n => n < 65536
  | .cipWrapKey k => k < 4
  | .mrgBase r => r ≤ 4
  | .fncStatus f => fnPresent d f
  | .sqBase f n | .cqBase f n => fnPresent d f && n < 16
  | .msix f v w => (f = 0 || fnPresent d f) && v < 64 && w < 4
  | .confDevCtl f | .confDevCtl2 f | .confCommand f | .confMsixCtl f => f = 0 || fnPresent d f
  | .confBar f n => (f = 0 || fnPresent d f) && n < 6
  | .confAer f n => (f = 0 || fnPresent d f) && n < 3
  | .unassigned _ => false
  | _ => true

/-- A field kept by masks: the writable bits of the word, the rest as they stand. -/
def keepMask (mask old new : W32) : W32 := (new &&& mask) ||| (old &&& ~~~mask)

/-- A dword of an MSI-X table entry; unmasking sends a pending message (R252). -/
def msixWrite (f v w : Nat) (x : W32) (d : Dev) : Dev :=
  let e := Tab.get {} (getFn d f).msix v
  let put := fun (e : Msix) => updFn f (fun s => { s with msix := Tab.set s.msix v e }) d
  if w = 0 then put { e with addr := (e.addr &&& 0xFFFFFFFF00000000) ||| (x &&& 0xFFFFFFFC).zeroExtend 64 }
  else if w = 1 then put { e with addr := (e.addr &&& 0xFFFFFFFF) ||| (x.zeroExtend 64 <<< 32) }
  else if w = 2 then put { e with data := x }
  else if bit x 0 then put { e with masked := true }
  else vectorUnmask f v d

/-- Whether a port carries a command, which keeps its address and its window (R317). -/
def portBusy (d : Dev) (c : Nat) : Bool := (getCell d c).port = .queued || (getCell d c).port = .executing

/-- FLC_ADDR written whole: the address, and the run of a code that names no command (R317: BAD_ADDRESS).
A code of Table 18.4 runs by its own command. -/
def flcAddrWrite (c : Nat) (v : W64) (d : Dev) : Dev :=
  if (getCell d c).arm ≠ .armed then portIgnored c d
  else if portBusy d c then d
  else
    let d := updCell c (fun k => { k with addr := v &&& 0xFFFF00003FFF1FF7 }) d
    let op := field (getCell d c).cmd 0 8
    if opReads op || opPrograms op || op = 6 || op = 0x20 || op = 0x30 then d else portRun c op d

/-- Bytes written into a port's window. -/
def flcDataWrite (c off n : Nat) (v : Nat) (d : Dev) : Dev :=
  if portBusy d c then d
  else updCell c (fun k => { k with
    window := (leBytes n v).zipIdx.foldl (fun t e => Tab.set t (off + e.2) e.1) k.window }) d

/-- ADM_E_FIXED: not below the Table 1.8 value (R72). -/
def eFixedWrite (x : W32) (d : Dev) : Dev :=
  energyChanged { d with adm := { d.adm with eFixed := BitVec.ofNat 32 (max x.toNat (dsEFixed d.board.blocks)) } }

/-- PKB_CHG_CTL: EN from 0 to 1 re-enables a charger that CHG stopped (Table 12.5). -/
def chgCtlWrite (x : W32) (d : Dev) : Dev :=
  let e := { d with pkb := { d.pkb with
    chgCtl := x &&& 0x00FF3F01
    chgRetry := d.pkb.chgRetry || (bit x 0 && !bit d.pkb.chgCtl 0 && faultOn d 8) } }
  if (chgPause d = 7) = (chgPause e = 7) then e else recomputeNow e

/-- A management or function ring's base, ignored while the ring is enabled (R247). -/
def baseWrite (v : W64) (r : Ring) : Ring := if r.en then r else { r with base := v &&& 0xFFFFFFFFFFFFF000 }

/-- Address bits of a base address register (Table 13.2), its type bits apart; a pair gives 64 bits, and a BAR that the
table does not give is zero. -/
def barMask (d : Dev) (f n : Nat) : W32 :=
  let size := if f = 0 then 2 ^ 24 else if n < 2 then 2 ^ 16 else gib * 2 ^ min 6 (Tab.get 0 d.ept.winSizeNow f)
  if 4 ≤ n || (f = 0 && 2 ≤ n) then 0
  else BitVec.ofNat 32 ((2 ^ 64 - size) / 2 ^ (32 * (n % 2)))

/-- The errors of Table 13.6 among AER's bits, uncorrectable and correctable: the base specification's layout,
PRESUMED (log entry 34). Device Control, Device Control 2 and Link Control have no bit of what R230 excludes. -/
def aerBits (n : Nat) : W32 := if n < 2 then 0x00477010 else 0x0000F1C1

/-- A 32-bit register takes a value. -/
def take32 (r : Reg) (x : W32) (d : Dev) : Dev :=
  match r with
  | .tmbCtl => tracingTime (tmbCtlWrite x) d
  | .tmbAsym => { d with tmb := { d.tmb with asym := x } }
  | .tmbPpsPhase => { d with tmb := { d.tmb with ppsPhase := x } }
  | .tmbStepThresh => { d with tmb := { d.tmb with stepThresh := x } }
  | .tmbStatus => tracingTime (fun d => { d with tmb := { d.tmb with stepped := d.tmb.stepped && !bit x 3 } }) d
  | .spwCtl => { d with spw := { d.spw with ctl := x &&& 0x00FF0019 } }
  | .spwResumeQual => { d with spw := { d.spw with resumeQual := x &&& 0xFFFF } }
  | .spwSealHold => { d with spw := { d.spw with sealHold := x &&& 0xFFFF } }
  | .spwIntTimer => { d with spw := { d.spw with intTimer := x &&& 0xFFFF } }
  | .spwIntMargin => { d with spw := { d.spw with intMargin := x &&& 0xFF } }
  | .admCtl => { d with adm := { d.adm with ctl := x &&& 0xFFFF0000 } }
  | .admEFixed => eFixedWrite x d
  | .admSealReserve b => energyChanged { d with adm := { d.adm with
      sealReserve := Tab.set d.adm.sealReserve b (BitVec.ofNat 32 (clamp 5000 100000 x.toNat)) } }
  | .admFnCfg f => energyChanged { d with adm := { d.adm with fnCfg := Tab.set d.adm.fnCfg f (x &&& 0x1FF) } }
  | .stgCtl => { d with stgCtl := x }
  | .stgWearCtl => { d with stgWear := x &&& 0xFFFF0000 }
  | .stgScrubCtl => { d with stgScrub := x &&& 0xFFFFFF00 }
  | .stgCompactRate => { d with stgCompact := x &&& 0xFFFF }
  | .stgReserveFixed => { d with stgReserve := x }
  | .estCtl => reasonsChanged { d with est := { d.est with ctl := x &&& 0x101 } }
  | .estDerateBound => reasonsChanged { d with est := { d.est with derateBound := x &&& 0xFFFF } }
  | .estLearnCtl => { d with est := { d.est with learnCtl := x &&& 0xFFFF } }
  | .pkbCtl => { d with pkb := { d.pkb with ctl := x &&& 1 } }
  | .pkbChgCtl => chgCtlWrite x d
  | .eptCtl => { d with ept := { d.ept with ctl := x &&& 0xFFFFFF13 } }
  | .eptFnCount => { d with ept := { d.ept with fnCount := x &&& 0x3F } }
  | .eptWinSize f => { d with ept := { d.ept with winSize := Tab.set d.ept.winSize f (x &&& 7) } }
  | .drcCtl => { d with drc := { d.drc with ctl := x &&& 0xFFFF003F } }
  | .drcPanic => { d with drc := { d.drc with panic := x &&& 0xFFFF } }
  | .drcFspCfg => { d with drc := { d.drc with fspCfg := x &&& 0x303 } }
  | .flcCmd c =>
    if (getCell d c).arm ≠ .armed then portIgnored c d else updCell c (fun k => { k with cmd := x &&& 0xFF }) d
  | .flcData c off => flcDataWrite c off 4 x.toNat d
  | .cipCtl => { d with cip := { d.cip with wrapLocked := d.cip.wrapLocked || bit x 0 } }
  | .idxFnCfg f => updFn f (fun s => { s with idxCfg := keepMask 0x31 s.idxCfg x }) d
  | .hrkCtl => redirect { d with hrk := { d.hrk with ctl := x &&& 0xF5FF } }
  | .hrkReconTimeout => { d with hrk := { d.hrk with reconTimeout := x } }
  | .hrkRehCtl => { d with hrk := { d.hrk with rehCtl := x &&& 0x00FFFF01 } }
  | .errCtl => { d with err := { d.err with ctl := x &&& 1 } }
  | .obsCtl => { d with obs := { d.obs with ctl := x &&& 0x03FF0001 } }
  | .mrgDbHi => { d with mrg := { d.mrg with dbHi := x &&& 0xF } }
  | .fncStatus f => updFn f (fun s => { s with cfgError := s.cfgError && !bit x 1 }) d
  | .msix f v w => msixWrite f v w x d
  | .confDevCtl f => updFn f (fun s => { s with devCtl := x &&& 0x79FF }) d
  | .confDevCtl2 f => updFn f (fun s => { s with devCtl2 := x &&& (if f = 0 then 0x170F else 0x130F) }) d
  | .confLinkCtl => { d with ept := { d.ept with linkCtl := x &&& 0x3CA } }
  | .confCommand f =>
    let d := updFn f (fun s => { s with memEn := bit x 1 }) d
    if bit x 2 = (getFn d f).busMaster then d
    else if bit x 2 then enableFn f .busMaster d else disableFn f .busMaster d
  | .confBar f n => updFn f (fun s => { s with bars := Tab.set s.bars n (x &&& barMask d f n) }) d
  | .confMsixCtl f => updFn f (fun s => { s with msixCtl := x &&& 0xC000 }) d
  | .confAer f n => updFn f (fun s => { s with aer := Tab.set s.aer n (x &&& aerBits n) }) d
  | .confL1ss => { d with ept := { d.ept with l1ss := x } }
  | .confPtm => { d with ept := { d.ept with ptmEn := bit x 0 } }
  | .chpEncFirst | .drcPortWt | .flcAddr _ | .cipWrapKey _ | .eptWinFn _ | .winEntry _ | .mrgBase _
  | .sqBase _ _ | .cqBase _ _ | .tmbEpoch | .tmbSetHt | .eptFnDisable | .unassigned _ => d

/-- EPT_FN_DISABLE takes a value: each function whose bit changes is disabled or enabled (R268). -/
def fnDisableWrite (v : W64) (d : Dev) : Dev :=
  fnNumbers.foldl (fun d f =>
    if bit v f = bit d.ept.fnDisable f then d
    else if bit v f then disableFn f .eptFnDisable d else enableFn f .eptFnDisable d) d

/-- A 64-bit register takes a value. A write to the shadow during a flip waits for its end (R235). -/
def take64 (r : Reg) (v : W64) (d : Dev) : Dev :=
  match r with
  | .chpEncFirst => { d with enc := { d.enc with first := v &&& 0xFFFFFFFFFFFFFFFE } }
  | .drcPortWt => { d with drc := { d.drc with portWt := v &&& 0xFFFFFFFFFF } }
  | .flcAddr c => flcAddrWrite c v d
  | .tmbEpoch => tracingTime (setEpoch v) d
  | .tmbSetHt => setHt v d
  | .eptFnDisable => fnDisableWrite v d
  | .cipWrapKey k => { d with cip := { d.cip with wrapKey := Tab.set d.cip.wrapKey k v, wrapWritten := true } }
  | .eptWinFn _ | .winEntry _ =>
    let w : RegWrite := { reg := r, size := .whole, value := v }
    if d.ept.winBusy then { d with ept := { d.ept with winHeld := d.ept.winHeld ++ [w] } } else shadowWrite w d
  | .mrgBase n => setMrgRing n (baseWrite v (mrgRing d n)) d
  | .sqBase f n => setSqRing f n (baseWrite v (sqRing d f n)) d
  | .cqBase f n => setCqRing f n (baseWrite v (cqRing d f n)) d
  | _ => d

/-- The halves of a 64-bit register written apart (R12): the lower waits for the upper. Writing a part
of the wrap key counts as a write of it (R286); a lower half of FLC_ADDR on a port that is not armed is
ignored and counted. An upper half with no lower one waiting, which the host must not write and for which R12 states
no value, takes a lower half of zero: DESIGN CHOICE (log entry 148). -/
def takeHalf (r : Reg) (upper : Bool) (x : W32) (d : Dev) : Dev :=
  if upper then
    let lo := ((d.halfLatch.find? (fun e => e.1 = r)).map Prod.snd).getD 0
    take64 r ((x.zeroExtend 64 <<< 32) ||| lo.zeroExtend 64)
      { d with halfLatch := d.halfLatch.filter (fun e => e.1 ≠ r) }
  else
    match r with
    | .flcAddr c =>
      if (getCell d c).arm ≠ .armed then portIgnored c d
      else { d with halfLatch := (r, x) :: d.halfLatch.filter (fun e => e.1 ≠ r) }
    | _ =>
      { d with
        halfLatch := (r, x) :: d.halfLatch.filter (fun e => e.1 ≠ r)
        cip := { d.cip with wrapWritten := d.cip.wrapWritten || isWrapKey r } }

/-- REGISTER_WRITE over the link; from M3 of a curtain or I3 a write is discarded and counted (R109). -/
def registerWrite (w : RegWrite) (d : Dev) : Dev :=
  if !linkUp d then (if d.ept.tlpsCut then discardTlp d else d)
  else
    let d := count 0 1 d
    let lo : W32 := w.value.truncate 32
    match w.size with
    | .wrong => raiseFault { code := 0x0401, level := 4, island := 76, severity := 0, detail := w.offset } d
    | size =>
      if !regPresent d w.reg then d
      else match w.reg, size with
      | .flcData c off, .whole => flcDataWrite c off 8 w.value.toNat d
      | .flcData c off, .upperHalf => flcDataWrite c (off + 4) 4 lo.toNat d
      | r, .whole => if is64 r then take64 r w.value d else take32 r lo d
      | r, .lowerHalf => if is64 r then takeHalf r false lo d else take32 r lo d
      | r, _ => if is64 r then takeHalf r true lo d else d
/-- REGISTER_WRITE (R10 to R12). -/
def execRegisterWrite (w : RegWrite) (s : State) : Answer := onDev (registerWrite w) s

end Sys2Proof.Machine
end

