-- ==== Sys2Proof/Machine/Rom.lean ====
section
/-!
DEFINITION. The ROM service (R328 to R330): one meaning for each operation of Table 18.9.
-/

namespace Sys2Proof.Machine

/-- The ROM_SERVICE descriptor of a handle that carries operation `op`, started (R328's first two
checks are those of its start). -/
def romBegin (h op : Nat) (d : Dev) : Option Desc × Dev :=
  match findDesc d h with
  | none => (none, d)
  | some x => if field x.entry.p0 0 8 = op then begin h true 0x4C d else (none, d)

/-- Data out to HADDR: LENGTH_ERROR with the size needed, then ALIGNMENT, then the write. -/
def romOut (x : Desc) (bs : List Byte) (at' result : Nat) (d : Dev) : Dev :=
  let n := bs.length
  let cells : List Cell := bs.zipIdx.map (fun e => (e.2, e.1))
  endWith x stSuccess result n (emit (.hostWrite 0 (x.entry.haddr + at') n cells false) d)

/-- The checks of R328 on a size, before the object. -/
def romSized (x : Desc) (size : Nat) (d : Dev) (go : Dev → Dev) : Dev :=
  if x.entry.hlen < size then endWith x stLength size 0 d
  else if x.entry.haddr % 4 ≠ 0 then endWith x stAlign 0 0 d
  else go d

/-! ### Reads -/

/-- HT of the newest event; with no event in the tail the spec gives none: a free value. -/
def tailHt (d : Dev) : Nat × Dev :=
  match d.obs.tail with
  | [] => fresh d
  | t :: _ => (t.ht, d)

def romTraceTail (h : Nat) (d : Dev) : Dev :=
  match romBegin h 0x01 d with
  | (none, d) => d
  | (some x, d) =>
    romSized x 65552 d (fun d =>
      let (ht, d) := tailHt d
      let tail := d.obs.tail
      romOut x (tailRing tail ++ leBytes 4 0 ++ leBytes 4 (32 * tail.length) ++ leBytes 8 (oldestHt tail)) 0 ht d)
/-- TRACE_TAIL. -/
def execTraceTail (h : Nat) (s : State) : Answer := onDev (romTraceTail h) s

/-- The fault records of ERR and of the retention island, oldest first. -/
def allFaults (d : Dev) : List FaultRec :=
  (d.err.retained.filter (fun r => !d.err.records.contains r)).reverse ++ d.err.records.reverse

def romFaults (h : Nat) (d : Dev) : Dev :=
  match romBegin h 0x02 d with
  | (none, d) => d
  | (some x, d) =>
    let fs := allFaults d
    romSized x (64 * fs.length) d (romOut x (fs.flatMap faultBytes) 0 fs.length)
/-- FAULTS. -/
def execFaults (h : Nat) (s : State) : Answer := onDev (romFaults h) s

/-- A block's books that still stand in the log, newest first. -/
def bookAt (d : Dev) (b age : Nat) : Option (Book × Rec) :=
  ((booksOf d b).reverse.filterMap (fun k => (findRec d k.recordId).map (fun r => (k, r))))[age]?

def romBook (h : Nat) (d : Dev) : Dev :=
  match romBegin h 0x03 d with
  | (none, d) => d
  | (some x, d) =>
    romSized x (128 + 131072) d (fun d =>
      match bookAt d (x.entry.p1 % 8) (x.entry.p1 / 256 % 2 ^ 24) with
      | none => endWith x stNotFound 0 0 d
      | some (k, r) => romOut x (recHead d r ++ bookBody k) 0 k.seqNo d)
/-- BOOK. -/
def execBook (h : Nat) (s : State) : Answer := onDev (romBook h) s

/-- The vault entries kept, as every block holds them. -/
def keptVault (d : Dev) : List Vault := d.cip.vault.filter Vault.written

def romVault (h : Nat) (d : Dev) : Dev :=
  match romBegin h 0x04 d with
  | (none, d) => d
  | (some x, d) =>
    let vs := keptVault d
    romSized x (128 * vs.length) d (fun d =>
      if !populated d (x.entry.p1 % 8) then endWith x stNotFound 0 0 d
      else romOut x (vs.flatMap vaultBytes) 0 vs.length d)
/-- VAULT. -/
def execVault (h : Nat) (s : State) : Answer := onDev (romVault h) s

/-- A block's anchor entries, as they were appended. -/
def anchorsOf (d : Dev) (b : Nat) : List (List Byte) := (d.flash.anchors.filter (fun a => a.block = b)).map anchorBytes

def romAnchor (h : Nat) (d : Dev) : Dev :=
  match romBegin h 0x05 d with
  | (none, d) => d
  | (some x, d) =>
    let es := anchorsOf d (x.entry.p1 % 8)
    romSized x (64 * es.length) d (fun d =>
      if !populated d (x.entry.p1 % 8) then endWith x stNotFound 0 0 d
      else romOut x es.flatten 0 es.length d)
/-- ANCHOR. -/
def execAnchor (h : Nat) (s : State) : Answer := onDev (romAnchor h) s

/-- The newest selector entry of a twin. -/
def newestSelector (d : Dev) (t : Nat) : Option Selector :=
  (d.rom.selectors.filter (fun e => e.twin = t)).foldl (fun o e =>
    match o with
    | some b => if b.seq < e.seq then some e else o
    | none => some e) none

def romSelector (h : Nat) (d : Dev) : Dev :=
  match romBegin h 0x06 d with
  | (none, d) => d
  | (some x, d) =>
    let entry := fun t => match newestSelector d t with
      | some e => selectorBytes e
      | none => zeros 64
    let seq := ((newestSelector d d.rom.running).map Selector.seq).getD 0
    romSized x 128 d (romOut x (entry 0 ++ entry 1) 0 (d.rom.running + seq % 2 ^ 56 * 256))
/-- SELECTOR: RESULT carries the twin running and the SEQ of its entry. -/
def execSelector (h : Nat) (s : State) : Answer := onDev (romSelector h) s

def romPrivSeg (h : Nat) (d : Dev) : Dev :=
  match romBegin h 0x07 d with
  | (none, d) => d
  | (some x, d) =>
    let a : W64 := BitVec.ofNat 64 x.entry.p1
    let c := field a 42 6
    romSized x 65536 d (fun d =>
      if aUnit a ≠ 341 || aMode a ≠ 2 || 256 ≤ aSegment a || !portPresent d c then endWith x stNotFound 0 0 d
      else
        let seg := ((c * 8 + aTarget a) * 512 + 341) * 1024 + aSegment a
        romOut x ((List.range 65536).map (Config.rawFlashByte seg)) 0 1 d)
/-- PRIV_SEG: one SLC segment of a boot unit. -/
def execPrivSeg (h : Nat) (s : State) : Answer := onDev (romPrivSeg h) s

/-- The record that a locator names, with the place of the copy. -/
def locate (d : Dev) (b : Nat) (loc : List Byte) : Option (Rec × Place) :=
  if bytesOk loc then
    ((d.flash.records.filter (fun r => r.block = b && r.written && r.bytes ≠ 0)).flatMap (fun r =>
      r.places.map (fun p => (r, p)))).find? (fun e =>
        let l := locatorBytes e.2 (placeStripe d e.2) 128
        l.take 2 = loc.take 2 && (l.drop 4).take 12 = (loc.drop 4).take 12)
  else none
where
  bytesOk (loc : List Byte) : Bool :=
    loc.length = 32 && ofBytes ((loc.drop 28).take 4) = (crc32c (loc.take 28)).toNat

/-- The key now held is that of the record's writing. -/
def keyHeld (d : Dev) (r : Rec) : Bool := (keyOf d r.slot r.gen).isSome

/-- RESULT of RECORD: 0 authenticated, 1 tag failed, 2 DATA_CRC failed, 3 key absent. -/
def recordResult (d : Dev) (r : Rec) (p : Place) : Nat :=
  let tlc := 200 ≤ p.2.2.1
  if !(if tlc then r.tlcReadable else r.readable) || !copyReads d p.1 p.2.1 then 2
  else if isEnciphered r && !keyHeld d r then 3
  else if !(if tlc then r.tlcAuthentic else r.authentic) then 1
  else 0

def recordBody (d : Dev) (r : Rec) : List Byte :=
  if isEnciphered r && keyHeld d r then plainBody r else storedBody d r

def romRecord (h : Nat) (data : HostData) (d : Dev) : Dev :=
  match romBegin h 0x08 d with
  | (none, d) => d
  | (some x, d) =>
    readBuffer x 32 data (fun loc d =>
      match locate d (x.entry.p1 % 8) loc with
      | none => endWith x stNotFound 0 0 d
      | some (r, p) =>
        let head := recHead d r
        romSized x (head.length + r.bytes) d (fun d =>
          if 4096 < head.length || 16777216 < r.bytes then endWith x stLength 0 0 d
          else
            let d := countBlk r.block 11 1 (countCell p.1 0 (segmentsOf r.bytes) d)
            romOut x (head ++ recordBody d r) 32 (recordResult d r p) d)) d
/-- RECORD: head and deciphered body behind the locator. -/
def execRecord (h : Nat) (data : HostData) (s : State) : Answer := onDev (romRecord h data) s

/-! ### Firmware twins (R330) -/

def twinMax : Nat := 134217728

/-- Chunks of a twin's image and their bytes. -/
def twinChunks (d : Dev) (t : Nat) : List (Nat × List Byte) := Tab.get [] d.rom.twinImage t
def chunkBytes (cs : List (Nat × List Byte)) : Nat := sumNat (cs.map (fun c => c.2.length))

def romTwinWrite (h : Nat) (data : HostData) (d : Dev) : Dev :=
  match romBegin h 0x10 d with
  | (none, d) => d
  | (some x, d) =>
    let n := x.entry.hlen
    let off := x.entry.p1
    if n = 0 || n % 65536 ≠ 0 || 16777216 < n || twinMax < off + n then endWith x stLength 0 0 d
    else if x.entry.haddr % 4 ≠ 0 || off % 65536 ≠ 0 then endWith x stAlign 0 0 d
    else readBuffer x n data (fun bs d =>
      let t := 1 - d.rom.running
      let old := if off = 0 then [] else (twinChunks d t).filter (fun c => c.1 ≠ off)
      let cs := old ++ [(off, bs)]
      let d := { d with rom := { d.rom with
        twinImage := Tab.set d.rom.twinImage t cs, twinValid := Tab.set d.rom.twinValid t false } }
      endWith x stSuccess (chunkBytes cs) n d) d
/-- TWIN_WRITE: a chunk of the twin that is not running; offset 0 erases it first. -/
def execTwinWrite (h : Nat) (data : HostData) (s : State) : Answer := onDev (romTwinWrite h data) s

/-- The image's bytes in order. -/
def twinBytes (cs : List (Nat × List Byte)) (len : Nat) : List Byte :=
  ((sortBy Prod.fst cs).flatMap Prod.snd).take len

def romTwinSelect (h : Nat) (d : Dev) : Dev :=
  match romBegin h 0x11 d with
  | (none, d) => d
  | (some x, d) =>
    let t := 1 - d.rom.running
    let len := x.entry.p1
    let cs := twinChunks d t
    if twinMax < len || !Config.imageVerifies cs len then endWith x stUntrusted 0 0 d
    else
      let seq := (d.rom.selectors.map Selector.seq).foldl max 0 + 1
      let v := (Config.imageVersion cs).toNat
      let e : Selector := {
        twin := t, seq, length := len, crc := (crc32c (twinBytes cs len)).toNat, version := v, ht := d.tmb.ht }
      let d := { d with rom := { d.rom with
        selectors := d.rom.selectors ++ [e], twinValid := Tab.set d.rom.twinValid t true
        twinVersion := Tab.set d.rom.twinVersion t v } }
      endWith x stSuccess seq 0 d
/-- TWIN_SELECT: a new selector entry names the inactive twin once its CRC and signature verify. -/
def execTwinSelect (h : Nat) (s : State) : Answer := onDev (romTwinSelect h) s

end Sys2Proof.Machine
end

