-- ==== Sys2Proof/Machine/Registers.lean ====
section
/-!
DEFINITION. Register reads (R10 to R12, R380 to R383): the registers by offset, as Tables 23.2 and 23.3 list
them, what a read of any size returns, and the latch of an upper half.
-/

namespace Sys2Proof.Machine

/-- A register, or an array of them: instance `i`, from `first` on, lies at `base + i * step`. `byte i k` is byte
`k` of instance `i`; `half i k` is the register whose upper half a 32-bit read at byte `k` latches. -/
structure RegRow where
  base : Nat
  step : Nat
  first : Nat
  count : Nat
  size : Nat
  byte : Nat → Nat → Dev → Byte
  half : Nat → Nat → Option Reg64

/-- Instance and byte of a row at an offset. -/
def RegRow.at (r : RegRow) (off : Nat) : Option (Nat × Nat) :=
  let i := (off - r.base) / r.step
  let k := (off - r.base) % r.step
  if r.base ≤ off && r.first ≤ i && i < r.first + r.count && k < r.size then some (i, k) else none

/-- Byte `k` of a number, least significant first (R9). -/
def byteOf (k v : Nat) : Byte := BitVec.ofNat 8 (v / 2 ^ (8 * k))

/-- A 32-bit register, and an array of them. -/
def word (base : Nat) (v : Dev → Nat) : RegRow :=
  { base, step := 4, first := 0, count := 1, size := 4, byte := fun _ k d => byteOf k (v d), half := fun _ _ => none }
def words32 (base step first count : Nat) (v : Nat → Dev → Nat) : RegRow :=
  { base, step, first, count, size := 4, byte := fun i k d => byteOf k (v i d), half := fun _ _ => none }

/-- A 64-bit register that a host writes, and an array of them. -/
def wide (base : Nat) (v : Dev → Nat) : RegRow :=
  { base, step := 8, first := 0, count := 1, size := 8, byte := fun _ k d => byteOf k (v d), half := fun _ _ => none }
def wides (base step first count : Nat) (v : Nat → Dev → Nat) : RegRow :=
  { base, step, first, count, size := 8, byte := fun i k d => byteOf k (v i d), half := fun _ _ => none }

/-- A 64-bit RO/V register, and an array of them. -/
def wideRo (base : Nat) (r : Reg64) : RegRow :=
  { base, step := 8, first := 0, count := 1, size := 8, byte := fun _ k d => byteOf k (read64 r d), half := fun _ _ => some r }
def widesRo (base step first count : Nat) (r : Nat → Reg64) : RegRow :=
  { base, step, first, count, size := 8, byte := fun i k d => byteOf k (read64 (r i) d), half := fun i _ => some (r i) }

/-- A table whose instances are byte strings. -/
def strings (base step count size : Nat) (v : Nat → Dev → List Byte) : RegRow :=
  { base, step, first := 0, count, size, byte := fun i k d => (v i d).getD k 0, half := fun _ _ => none }

/-! ### PF0 BAR0 (Table 23.2) -/

def chpRows : List RegRow :=
  [ strings 0 65536 1 65536 (fun _ => playbillBytes), word 0x10100 chpMode, wideRo 0x10108 .chpModeHt, word 0x10110 chpAct
  , word 0x10400 encStatus, wide 0x10408 (fun d => d.enc.first.toNat), wideRo 0x10410 .encFnReady
  , wideRo 0x10418 .encFnKeywait, wideRo 0x10420 .encTotal, wideRo 0x10428 .encDone
  , word 0x10430 (fun d => sat 32 d.enc.extents), word 0x10434 (fun d => sat 32 d.enc.lost)
  , word 0x10438 (fun d => sat 32 d.enc.untrusted), word 0x1043C (fun d => sat 32 d.enc.records)
  , widesRo 0x10440 8 1 6 .encMs, widesRo 0x10480 8 1 5 .rcnMs ]

def tmbRows : List RegRow :=
  [ wideRo 0x20000 .tmbNow, word 0x20008 (fun d => d.tmb.ctl.toNat), word 0x2000C tmbStatus, word 0x20010 tmbUnc
  , wideRo 0x20018 .tmbCue, word 0x20020 (fun d => d.tmb.asym.toNat), wide 0x20028 (fun d => d.tmb.epochNs.toNat)
  , word 0x20030 (fun d => d.tmb.epochId), wideRo 0x20040 .tmbRefOffset, word 0x20048 (fun d => d.tmb.ppsPhase.toNat)
  , word 0x2004C (fun d => d.tmb.stepThresh.toNat), word 0x20050 tmbEvents, word 0x20054 tmbHoldover
  , word 0x20058 (fun d => sat 32 d.tmb.floorU) ]

def spwRows : List RegRow :=
  [ word 0x30000 (fun d => d.spw.ctl.toNat), word 0x30004 (fun d => d.spw.thresh.toNat), word 0x30008 spwVin
  , word 0x3000C (fun d => d.spw.resumeQual.toNat), word 0x30010 (fun d => d.spw.sealHold.toNat)
  , word 0x30014 (fun d => d.spw.intTimer.toNat), word 0x30018 (fun d => d.spw.intMargin.toNat), word 0x3001C spwEvents
  , word 0x30020 (fun d => curtainStatus d.cur), wideRo 0x30028 .curtainFailHt, wideRo 0x30030 .curtainSealHt
  , wideRo 0x30038 .curtainBytes, wideRo 0x30040 .curtainSaved, wideRo 0x30048 .curtainLost
  , word 0x30050 (fun d => sat 32 d.cur.energyMj), word 0x30054 curtainUnack, word 0x30058 (fun d => sat 32 d.cur.durUs)
  , word 0x30060 intStatus, wideRo 0x30068 .intEntryHt, word 0x30070 (fun d => sat 32 d.int.needMj)
  , wideRo 0x30078 .intKept, wideRo 0x30080 .intReload, widesRo 0x30100 8 1 10 .msHt ]

def admRows : List RegRow :=
  [ word 0x40000 (fun d => d.adm.ctl.toNat), word 0x40004 admStatus, wideRo 0x40008 .admBudget
  , wideRo 0x40010 .admUnstaged, wideRo 0x40018 .admEnergyBytes, wideRo 0x40020 .admShortfall
  , word 0x40028 (fun d => sat 32 d.adm.eAvail), word 0x4002C (fun d => d.adm.eFixed.toNat)
  , word 0x40030 (fun d => d.adm.eByteFj), word 0x40034 (fun d => d.adm.rateRef), word 0x40038 (fun d => d.adm.eEff)
  , word 0x4003C (fun d => d.adm.rateSum), word 0x40040 pCurtain, wideRo 0x40048 .admRecalcHt
  , widesRo 0x40400 0x20 0 8 .admBlkBudget, widesRo 0x40408 0x20 0 8 .admBlkUnstaged, widesRo 0x40410 0x20 0 8 .admBlkSpace
  , words32 0x40418 0x20 0 8 (fun b d => ofBlk d b (rateB d b / 1000))
  , words32 0x4041C 0x20 0 8 (fun b d => ofBlk d b (d.adm.reserve b))
  , words32 0x41000 0x20 1 63 (fun f d => (Tab.get 0x101 d.adm.fnCfg f).toNat)
  , widesRo 0x41008 0x20 1 63 .admFnShare, widesRo 0x41010 0x20 1 63 .admFnUnstaged, widesRo 0x41018 0x20 1 63 .admFnBorrowed ]

def stgRows : List RegRow :=
  [ word 0x50000 (fun d => d.stgCtl.toNat), word 0x50004 stgStatus, word 0x50008 (fun d => d.stgWear.toNat)
  , word 0x5000C (fun d => d.stgScrub.toNat), word 0x50010 (fun d => d.stgCompact.toNat)
  , word 0x50014 (fun d => d.stgReserve.toNat), widesRo 0x50400 0x40 0 8 .stgCredit, widesRo 0x50408 0x40 0 8 .stgDebt
  , widesRo 0x50410 0x40 0 8 .stgErased, widesRo 0x50418 0x40 0 8 .stgLiveSlc, widesRo 0x50420 0x40 0 8 .stgLiveTlc
  , words32 0x50428 0x40 0 8 (fun b d => ofBlk d b (stgWindow d b))
  , words32 0x5042C 0x40 0 8 (fun b d => ofBlk d b (stripePayload d b / mib))
  , widesRo 0x50430 0x40 0 8 .stgStaged, words32 0x50438 0x40 0 8 (fun b d => ofBlk d b (stgEvents d b)) ]

def estRows : List RegRow :=
  [ word 0x60000 (fun d => d.est.ctl.toNat), word 0x60004 estStatus, word 0x60008 (fun d => d.est.derateBound.toNat)
  , word 0x60010 (fun d => sat 32 d.est.eNom), word 0x60014 (fun d => sat 32 d.est.sigma3)
  , word 0x60018 (fun d => sat 32 d.est.eCons), word 0x6001C (fun d => sat 32 d.est.design), word 0x60020 estSoc
  , word 0x60024 (fun d => centi d.est.socCut), wideRo 0x60028 .estSigmaParts, word 0x60030 estI, word 0x60034 estTemp
  , words32 0x60040 4 0 6 (fun k d => estCell d k), word 0x60058 estZ, word 0x6005C (fun d => sat 16 d.est.tau)
  , wideRo 0x60060 .estRestHt, word 0x60068 (fun d => sat 32 (restAge d)), word 0x6006C estCap
  , word 0x60070 (fun d => d.est.learnCtl.toNat), word 0x60074 (fun d => learnStatus d.est), wideRo 0x60078 .estLearnHt
  , word 0x60080 estParamStatus ]

def pkbRows : List RegRow :=
  [ word 0x70000 (fun d => d.pkb.ctl.toNat), word 0x70004 pkbStatus, word 0x70008 (fun d => d.pkb.fault.toNat)
  , word 0x7000C (fun d => d.pkb.faultAct.toNat), word 0x70010 (fun d => d.pkb.chgCtl.toNat), word 0x70014 chgStatus
  , word 0x70018 (fun d => sat 16 d.pkb.vPack), word 0x7001C (fun d => sat 32 (d.pkb.chgUs / 1000000))
  , word 0x70020 pkbEvents, wideRo 0x70028 .pkbRemoveHt, strings 0x70100 256 1 256 (fun _ d => d.pkb.desc) ]

def eptRows : List RegRow :=
  [ word 0x80000 eptLink, word 0x80004 (fun d => d.ept.ctl.toNat), word 0x80008 (fun d => d.ept.fnCount.toNat)
  , wide 0x80010 (fun d => d.ept.fnDisable.toNat), wideRo 0x80018 .eptFnState, word 0x80020 eptTags
  , word 0x80024 (fun d => sat 32 d.ept.late), word 0x80028 (fun d => sat 32 d.ept.timeouts)
  , word 0x8002C (fun d => sat 32 d.ept.unmapped), word 0x80030 (fun d => sat 32 d.ept.discard)
  , wideRo 0x80038 .eptUnmappedLog, word 0x80040 eptResets, word 0x80044 eptHostLoss
  , word 0x80048 (fun d => d.ept.orphaned % 4096), word 0x80204 winStatus
  , words32 0x80300 4 1 63 (fun f d => (Tab.get 0 d.ept.winSize f).toNat)
  , wides 0x80400 8 1 63 (fun f d => (Tab.get 0 d.ept.winFn f).toNat)
  , wides 0x800000 8 0 65536 (fun n d => (Tab.get 0 d.ept.winEntry n).toNat) ]

def drcRows : List RegRow :=
  [ word 0xA0000 (fun d => d.drc.ctl.toNat), word 0xA0004 drcMap, wide 0xA0008 (fun d => d.drc.portWt.toNat)
  , word 0xA0010 (fun d => d.drc.panic.toNat), word 0xA0014 (fun d => d.drc.fspCfg.toNat)
  , word 0xA0018 (fun d => d.drc.fspTarget % 2), word 0xA001C fspStatus
  , words32 0xA1000 0x1000 0 8 (fun b d => ofBlk d b (chStatus d b)), widesRo 0xA1008 0x1000 0 8 .drcEcc
  , widesRo 0xA1010 0x1000 0 8 .drcPoisonLog, widesRo 0xA1018 0x1000 0 8 .drcWq
  , words32 0xA1020 0x1000 0 8 (fun b d => ofBlk d b (chTrain d b)), widesRo 0xA1028 0x1000 0 8 .drcModule ]

/-- A channel's register reads zero where its block is unpopulated (R382). -/
def chanRow (base : Nat) (v : Dev → Nat → Nat) : RegRow :=
  words32 base 0x400 0 64 (fun c d => ofBlk d (c / 8) (v d c))

def flcRows : List RegRow :=
  [ chanRow 0xC0004 (fun d c => (getCell d c).cmd.toNat)
  , wides 0xC0008 0x400 0 64 (fun c d => ofBlk d (c / 8) (getCell d c).addr.toNat)
  , chanRow 0xC0014 flcStatus, chanRow 0xC0018 flcXfer, chanRow 0xC001C flcEcc, chanRow 0xC0020 flcEvents
  , { base := 0xC0040, step := 0x400, first := 0, count := 64, size := 64
      byte := fun c k d => byteOf (k % 8) (read64 (.flcTgt c (k / 8)) d), half := fun c k => some (.flcTgt c (k / 8)) }
  , { base := 0x400000, step := 65536, first := 0, count := 64, size := 65536
      byte := fun c k d => Tab.get 0 (getCell d c).window k, half := fun _ _ => none } ]

def cipRows : List RegRow :=
  [ word 0xE0000 (fun d => boolNat d.cip.wrapLocked), word 0xE0004 cipStatus, word 0xE000C (fun d => d.cip.wrapStatus % 4)
  , widesRo 0xE0040 8 0 5 .wrapOut, wideRo 0xE0068 .wrapKcv, widesRo 0xE0100 8 0 8 .cipQueue
  , words32 0xE1000 0x20 0 64 (fun s d => slotState d s), widesRo 0xE1008 0x20 0 64 .slotCtr
  , widesRo 0xE1010 0x20 0 64 .slotKcv, words32 0xE1018 0x20 0 64 (fun s d => (getSlot d s).pfx) ]

def idxRows : List RegRow :=
  [ word 0xF0000 idxStatus, wideRo 0xF0008 .idxRebuild, word 0xF0010 idxMismatch, wideRo 0xF0018 .idxHot
  , word 0xF0020 (fun d => d.idx.stalls)
  , widesRo 0xF0400 0x10 0 8 .idxBlk, words32 0xF1000 0x10 1 63 (fun f d => (getFn d f).idxCfg.toNat)
  , words32 0xF1008 0x10 1 63 (fun f d => sat 32 (fnEntries d f).length)
  , words32 0xF100C 0x10 1 63 (fun f d => sat 32 (idxFnMulti d f)) ]

def hrkRows : List RegRow :=
  [ word 0x100000 (fun d => d.hrk.ctl.toNat), word 0x100004 hrkStatus, word 0x100008 (fun d => d.hrk.reconTimeout.toNat)
  , word 0x10000C (fun d => d.hrk.rehCtl.toNat), word 0x100010 hrkDevices, word 0x100018 (fun d => d.hrk.dirQuery.toNat)
  , widesRo 0x100020 8 0 2 .dirResult, word 0x100030 xferStatus, wideRo 0x100038 .xferBytes
  , widesRo 0x100100 8 0 9 .hrkPort, strings 0x108000 0x40 512 64 (fun i d => hrkNode d i) ]

def errRows : List RegRow :=
  [ word 0x110000 (fun d => d.err.ctl.toNat), word 0x110004 errStatus, word 0x110008 (fun d => d.err.seqNext)
  , word 0x11000C (fun d => sat 32 d.err.suppressed), wideRo 0x110010 .errCounts, widesRo 0x110400 8 1 63 .errPlost
  , strings 0x111000 0x40 256 64 (fun n d => errRec d n) ]

def obsRows : List RegRow :=
  [ word 0x120000 (fun d => d.obs.ctl.toNat), word 0x120004 (fun d => d.obs.hostLost)
  , word 0x120008 (fun d => d.obs.traceSeq), word 0x12000C obsTail, widesRo 0x128000 8 0 4096 .obsCnt ]

/-- The pending bits of a function's vectors. -/
def pendingBits (d : Dev) (f : Nat) : Nat := maskWhere 64 (fun v => (Tab.get {} (getFn d f).msix v).pend)

/-- A dword of an MSI-X table entry. -/
def msixWord (d : Dev) (f i : Nat) : Nat :=
  let e := Tab.get {} (getFn d f).msix (i / 4)
  if i % 4 = 0 then e.addr.toNat % 2 ^ 32
  else if i % 4 = 1 then e.addr.toNat / 2 ^ 32
  else if i % 4 = 2 then e.data.toNat
  else boolNat e.masked

def mrgRows : List RegRow :=
  [ wides 0x130000 0x20 0 5 (fun r d => (mrgRing d r).base.toNat)
  , words32 0x130008 0x20 0 5 (fun r d => ringCfg (mrgRing d r) (r ≠ 0))
  , { words32 0x13000C 0x20 0 5 (fun r d => mrgState d r) with half := fun r k => if k = 0 then some (.mrgState r) else none }
  , words32 0x130018 0x20 0 5 (fun r d => if r = 4 then d.mrg.stateHiLatch.toNat else 0)
  , word 0x130100 mrgEvents, words32 0x140000 4 0 256 (fun i d => msixWord d 0 i), wide 0x140800 (fun d => pendingBits d 0) ]

def pf0Rows : List RegRow :=
  chpRows ++ tmbRows ++ spwRows ++ admRows ++ stgRows ++ estRows ++ pkbRows ++ eptRows ++ drcRows ++ flcRows ++ cipRows
    ++ idxRows ++ hrkRows ++ errRows ++ obsRows ++ mrgRows

/-! ### BAR0 of a cache function (Table 23.3) -/

def fnRows (f : Nat) : List RegRow :=
  [ word 0x0004 (fun d => fncStatus d f), word 0x0008 (fun d => (getFn d f).seqNext), word 0x000C (fun d => fncInflight d f)
  , wides 0x0100 0x10 0 16 (fun n d => (sqRing d f n).base.toNat)
  , words32 0x0108 0x10 0 16 (fun n d => ringCfg (sqRing d f n) false), words32 0x010C 0x10 0 16 (fun n d => sqState d f n)
  , wides 0x0200 0x10 0 16 (fun n d => (cqRing d f n).base.toNat)
  , words32 0x0208 0x10 0 16 (fun n d => ringCfg (cqRing d f n) true), words32 0x020C 0x10 0 16 (fun n d => cqState d f n)
  , words32 0x2000 4 0 256 (fun i d => msixWord d f i), wide 0x3000 (fun d => pendingBits d f) ]

/-! ### Reads -/

/-- The rows of a function's BAR0; function 0 is PF0. -/
def rowsOf (f : Nat) : List RegRow := if f = 0 then pf0Rows else fnRows f

/-- The byte at an offset: of a register, or zero where none is assigned (R10, R381). Write-only registers and
reserved fields read zero. -/
def regByte (d : Dev) (f off : Nat) : Byte :=
  match (rowsOf f).findSome? (fun r => (r.at off).map (fun e => r.byte e.1 e.2 d)) with
  | some b => b
  | none => 0

/-- The addressed bytes, whatever the size of the read (R11). -/
def regBytes (d : Dev) (f off n : Nat) : List Byte := (List.range n).map (fun k => regByte d f (off + k))

/-- The 64-bit RO/V register of which a 32-bit read at an offset is a half, and whether the upper one. -/
def halfAt (f off : Nat) : Option (Reg64 × Bool) :=
  (rowsOf f).findSome? (fun r => match r.at off with
    | some (i, k) => if k % 4 = 0 then (r.half i k).map (fun g => (g, k % 8 = 4)) else none
    | none => none)

/-- The lower half of a register read alone: it is returned, and the upper half latched (R12). -/
def lowHalf (r : Reg64) (d : Dev) : Dev :=
  let w := BitVec.ofNat 64 (read64 r d)
  let hi : W32 := w.extractLsb' 32 32
  let d := match r with
    | .mrgState n => if n ≠ 4 then d else { d with mrg := { d.mrg with stateHiLatch := hi } }
    | _ => { d with readLatch := (r, hi) :: d.readLatch.filter (fun e => e.1 ≠ r) }
  emit (.readCompletion 0 .success (leBytes 4 w.toNat) false) d

/-- The upper half of a register read alone: the latched value, which it ends, else the present one (R12). -/
def highHalf (r : Reg64) (d : Dev) : Dev :=
  let now : W32 := (BitVec.ofNat 64 (read64 r d)).extractLsb' 32 32
  let hi := ((d.readLatch.find? (fun e => e.1 = r)).map Prod.snd).getD now
  emit (.readCompletion 0 .success (leBytes 4 hi.toNat) false)
    { d with readLatch := d.readLatch.filter (fun e => e.1 ≠ r) }

/-- A read of registers by offset and size: 32-bit reads of halves act as such. -/
def readOffset (f off n : Nat) (d : Dev) : Dev :=
  match (if n = 4 then halfAt f off else none) with
  | some (r, false) => lowHalf r d
  | some (r, true) => highHalf r d
  | none => emit (.readCompletion f .success (regBytes d f off n) false) d

/-- A dword of the configuration header (R231, Table 13.2): identifiers, command, revision and class, base address
registers. The dwords that the spec does not give are free values. Layout of the base specification, PRESUMED (log
entry 34). -/
def configDword (f i : Nat) (d : Dev) : Nat × Dev :=
  let s := getFn d f
  let kind := fun n => if n = 2 && f ≠ 0 then 0xC else if n = 0 then 4 else 0
  if i = 0 then ((if f = 0 then 0x0810 else 0x0811) * 65536 + Config.vendorId.toNat, d)
  else if i = 1 then (boolNat s.busMaster * 4 + boolNat s.memEn * 2, d)
  else if i = 2 then ((if f = 0 then 0x058000 else 0x018000) * 256 + 0xB0, d)
  else if 4 ≤ i && i < 10 then ((Tab.get 0 s.bars (i - 4)).toNat + kind (i - 4), d)
  else if i = 12 then (0, d)
  else (let (v, d) := fresh d; (v % 2 ^ 32, d))

/-- A register read over the link. A function that is not present does not answer. -/
def hostRead (q : HostRead) (d : Dev) : Dev :=
  if !linkUp d then d
  else
    let d := count 0 1 d
    match q with
    | .lowHalf r => lowHalf r d
    | .highHalf r => highHalf r d
    | .bytes f off n => if f = 0 || fnPresent d f then readOffset f off n d else d
    | .config f i =>
      if f = 0 || fnPresent d f then
        (let (v, d) := configDword f i d; emit (.readCompletion f .success (leBytes 4 v) false) d)
      else d
/-- LOW_HALF_READ (R12), with the other reads of R10 to R12. -/
def execLowHalfRead (q : HostRead) (s : State) : Answer := onDev (hostRead q) s

end Sys2Proof.Machine
end

