-- ==== Sys2Proof/Machine/Observe.lean ====
section
/-!
DEFINITION. SMBus telemetry (R350) and the TAP (R351).
-/

namespace Sys2Proof.Machine

/-! ### Telemetry -/

/-- The newest fault record's bytes; zero before the first. The retention island keeps it. -/
def newestFault (d : Dev) : List Byte :=
  match d.err.retained with
  | r :: _ => faultBytes r
  | [] => zeros 64

/-- The blocks of Table 20.4 that have a source, computed from their registers. -/
def telemetryBlock (d : Dev) (n : Nat) : List Byte :=
  if n = 0 then leBytes 8 d.board.serial ++ [0xB0] ++ leBytes 1 (2 ^ d.board.blocks - 1)
    ++ leBytes 2 d.hrk.index ++ leBytes 4 d.board.fwVersion.toNat
  else if n = 1 then leBytes 4 (chpMode d) ++ leBytes 4 (chpAct d) ++ leBytes 4 (tmbStatus d) ++ leBytes 4 (errStatus d)
  else if n = 2 then leBytes 8 d.tmb.ht ++ leBytes 4 (tmbUnc d) ++ leBytes 4 d.err.seqNext
  else if n = 3 then leBytes 4 (spwVin d) ++ leBytes 4 (pkbStatus d) ++ leBytes 4 (sat 16 d.pkb.vPack) ++ leBytes 4 (estTemp d)
  else if n = 4 then leBytes 4 d.adm.eAvail ++ leBytes 4 d.est.sigma3 ++ leBytes 4 (estSoc d) ++ leBytes 4 (pCurtain d)
  else if n = 5 then leBytes 8 d.adm.budget ++ leBytes 8 (unstagedAll d)
  else if n = 6 then leBytes 8 d.adm.shortfall ++ leBytes 8 (errCounts d)
  else if n = 7 then leBytes 4 (curtainStatus d.cur) ++ leBytes 4 d.cur.durUs ++ leBytes 8 d.cur.lost
  else if n ≤ 11 then ((newestFault d).drop (16 * (n - 8))).take 16
  else zeros 16

/-- The islands that a block's registers lie in are on (Table 1.6): all of them but in INTERMISSION,
SEALED and DARK, where only the supply watch and estimator and the retention island are, or the latter
alone. Log entry 48. -/
def sourceOn (d : Dev) (n : Nat) : Bool :=
  match d.chp.mode with
  | .dark => 8 ≤ n
  | .intermission | .sealed => n = 3 || n = 7 || 8 ≤ n
  | _ => true

/-- TELEMETRY_COPY: each block whose source is on is copied whole. -/
def telemetryCopy (d : Dev) : Dev :=
  if !retentionOn d then d
  else { d with obs := { d.obs with telemetry := (List.range 12).foldl (fun t n =>
    if sourceOn d n then Tab.set t n ((telemetryBlock d n).map BitVec.toNat) else t) d.obs.telemetry } }
def execTelemetryCopy (s : State) : Answer := onDev telemetryCopy s

/-- SMBUS_BLOCK_READ: a count of 16 and the block as last copied; no answer at another address, while
VAUX3 is away (R361) or the retention island is off. -/
def smbusRead (address command : Nat) (d : Dev) : Dev :=
  if address ≠ 0x5C || !d.pins.vaux3 || !retentionOn d then d
  else emit (.smbus (16 :: Tab.get (List.replicate 16 0) d.obs.telemetry command)) d
def execSmbusBlockRead (address command : Nat) (s : State) : Answer := onDev (smbusRead address command) s

/-! ### The TAP -/

/-- IDCODE of R351. -/
def idcode : Nat := 0x2 * 2 ^ 28 + 0x0810 * 2 ^ 12 + Config.jtagManufacturer.toNat * 2 + 1

/-- The TAP takes an instruction; it does not answer without VAUX3 (R361). -/
def tapTake (ir : TapIr) (d : Dev) : Dev :=
  if d.pins.vaux3 then { d with obs := { d.obs with tapIr := ir } } else d

/-- TAP_RESET, after which IDCODE is the instruction in force (IEEE 1149.1, log entry 49). -/
def execTapReset (s : State) : Answer := onDev (tapTake .idcode) s

/-- BYPASS. -/
def execBypass (s : State) : Answer := onDev (tapTake .bypass) s

def tapIdcode (d : Dev) : Dev := if d.pins.vaux3 then emit (.tdo 32 idcode) (tapTake .idcode d) else d
/-- IDCODE: the identity is shifted out. -/
def execIdcode (s : State) : Answer := onDev tapIdcode s

/-- SAMPLE/PRELOAD: the boundary register takes the value shifted in. -/
def samplePreload (v : Nat) (d : Dev) : Dev :=
  if d.pins.vaux3 then tapTake .samplePreload { d with obs := { d.obs with boundary := v } } else d
def execSamplePreload (v : Nat) (s : State) : Answer := onDev (samplePreload v) s

/-- A pin-driving instruction: obeyed in BOOT with SEAL_RETAINED clear, elsewhere BYPASS. The chip then
stays in BOOT until the next power-on. -/
def tapDrive (ir : TapIr) (d : Dev) : Dev :=
  if !d.pins.vaux3 then d
  else if d.chp.mode = .boot && !d.chp.sealRetained then
    { tapTake ir d with chp := { d.chp with tapDrove := true } }
  else tapTake .bypass d

/-- EXTEST. -/
def execExtest (s : State) : Answer := onDev (tapDrive .extest) s
/-- EXTEST_PULSE. -/
def execExtestPulse (s : State) : Answer := onDev (tapDrive .extestPulse) s
/-- EXTEST_TRAIN. -/
def execExtestTrain (s : State) : Answer := onDev (tapDrive .extestTrain) s
/-- CLAMP. -/
def execClamp (s : State) : Answer := onDev (tapDrive .clamp) s
/-- HIGHZ. -/
def execHighz (s : State) : Answer := onDev (tapDrive .highz) s

end Sys2Proof.Machine
end

