-- ==== Sys2Proof/Machine/Dispatch.lean ====
section
/-!
DEFINITION. One arm for each command of `Instr`, in the table's order: a direct call of its meaning.
-/

namespace Sys2Proof.Machine

def exec (i : Instr) (s : State) : Host.Outcome State Fault Refusal :=
  match i with
  | .failAssert a0 => Sys2Proof.Machine.execFailAssert a0 s
  | .failRelease a0 => Sys2Proof.Machine.execFailRelease a0 s
  | .warnAssert a0 => Sys2Proof.Machine.execWarnAssert a0 s
  | .warnRelease a0 => Sys2Proof.Machine.execWarnRelease a0 s
  | .mainSupplyGood a0 => Sys2Proof.Machine.execMainSupplyGood a0 s
  | .resumeQualExpiry => Sys2Proof.Machine.execResumeQualExpiry s
  | .vaux3Loss => Sys2Proof.Machine.execVaux3Loss s
  | .sealHoldExpiry => Sys2Proof.Machine.execSealHoldExpiry s
  | .intermissionTimerExpiry => Sys2Proof.Machine.execIntermissionTimerExpiry s
  | .retentionPackRelease => Sys2Proof.Machine.execRetentionPackRelease s
  | .chipFatalFault a0 => Sys2Proof.Machine.execChipFatalFault a0 s
  | .mgmtWatchdogExpiry => Sys2Proof.Machine.execMgmtWatchdogExpiry s
  | .packPresenceDetect a0 a1 => Sys2Proof.Machine.execPackPresenceDetect a0 a1 s
  | .packSettleExpiry a0 => Sys2Proof.Machine.execPackSettleExpiry a0 s
  | .packSurpriseRemoval => Sys2Proof.Machine.execPackSurpriseRemoval s
  | .packRemovedSwitchOpen => Sys2Proof.Machine.execPackRemovedSwitchOpen s
  | .attentionButtonPress => Sys2Proof.Machine.execAttentionButtonPress s
  | .attentionWindowExpiry => Sys2Proof.Machine.execAttentionWindowExpiry s
  | .pkbRemove => Sys2Proof.Machine.execPkbRemove s
  | .pkbClose => Sys2Proof.Machine.execPkbClose s
  | .orderlyDrainDone => Sys2Proof.Machine.execOrderlyDrainDone s
  | .packCollapse a0 => Sys2Proof.Machine.execPackCollapse a0 s
  | .chgTimeout => Sys2Proof.Machine.execChgTimeout s
  | .pkbFaultClear a0 => Sys2Proof.Machine.execPkbFaultClear a0 s
  | .packSample a0 => Sys2Proof.Machine.execPackSample a0 s
  | .estimatorUpdate => Sys2Proof.Machine.execEstimatorUpdate s
  | .restPoint a0 => Sys2Proof.Machine.execRestPoint a0 s
  | .restDue => Sys2Proof.Machine.execRestDue s
  | .restWindowExpiry => Sys2Proof.Machine.execRestWindowExpiry s
  | .probePulse => Sys2Proof.Machine.execProbePulse s
  | .probePulseEnd a0 a1 a2 => Sys2Proof.Machine.execProbePulseEnd a0 a1 a2 s
  | .learnPhaseEnd => Sys2Proof.Machine.execLearnPhaseEnd s
  | .admissionRecompute a0 => Sys2Proof.Machine.execAdmissionRecompute a0 s
  | .holdDataArrived a0 => Sys2Proof.Machine.execHoldDataArrived a0 s
  | .holdDeadlineExpiry a0 => Sys2Proof.Machine.execHoldDeadlineExpiry a0 s
  | .wearCreditFill => Sys2Proof.Machine.execWearCreditFill s
  | .wearStateStore => Sys2Proof.Machine.execWearStateStore s
  | .stagingRecordStart a0 => Sys2Proof.Machine.execStagingRecordStart a0 s
  | .recordCountedWritten a0 => Sys2Proof.Machine.execRecordCountedWritten a0 s
  | .programFail a0 => Sys2Proof.Machine.execProgramFail a0 s
  | .targetDead a0 a1 a2 => Sys2Proof.Machine.execTargetDead a0 a1 a2 s
  | .windowShift a0 => Sys2Proof.Machine.execWindowShift a0 s
  | .logCleaning a0 => Sys2Proof.Machine.execLogCleaning a0 s
  | .eraseComplete a0 a1 => Sys2Proof.Machine.execEraseComplete a0 a1 s
  | .compactionCopy a0 => Sys2Proof.Machine.execCompactionCopy a0 s
  | .tlcGroupVerified a0 => Sys2Proof.Machine.execTlcGroupVerified a0 s
  | .scrubRead a0 a1 a2 a3 => Sys2Proof.Machine.execScrubRead a0 a1 a2 a3 s
  | .cellFailure a0 a1 => Sys2Proof.Machine.execCellFailure a0 a1 s
  | .cipherPipeFault a0 a1 => Sys2Proof.Machine.execCipherPipeFault a0 a1 s
  | .crossSave a0 a1 => Sys2Proof.Machine.execCrossSave a0 a1 s
  | .fence a0 a1 => Sys2Proof.Machine.execFence a0 a1 s
  | .dramUncorrectable a0 a1 => Sys2Proof.Machine.execDramUncorrectable a0 a1 s
  | .refreshDue a0 a1 => Sys2Proof.Machine.execRefreshDue a0 a1 s
  | .mr4Poll a0 a1 => Sys2Proof.Machine.execMr4Poll a0 a1 s
  | .retrainTimer a0 a1 => Sys2Proof.Machine.execRetrainTimer a0 a1 s
  | .zqTimer a0 => Sys2Proof.Machine.execZqTimer a0 s
  | .trainingStepEnd a0 => Sys2Proof.Machine.execTrainingStepEnd a0 s
  | .frequencySwitchDone => Sys2Proof.Machine.execFrequencySwitchDone s
  | .flashDramPrepared => Sys2Proof.Machine.execFlashDramPrepared s
  | .curtainListsWritten => Sys2Proof.Machine.execCurtainListsWritten s
  | .curtainProjection a0 => Sys2Proof.Machine.execCurtainProjection a0 s
  | .dataStreamed => Sys2Proof.Machine.execDataStreamed s
  | .promptBooksSealed => Sys2Proof.Machine.execPromptBooksSealed s
  | .dramPlaced => Sys2Proof.Machine.execDramPlaced s
  | .flashQuiesced => Sys2Proof.Machine.execFlashQuiesced s
  | .intListsWritten => Sys2Proof.Machine.execIntListsWritten s
  | .statePreserved => Sys2Proof.Machine.execStatePreserved s
  | .selfRefreshEntered => Sys2Proof.Machine.execSelfRefreshEntered s
  | .logicPoweredDown => Sys2Proof.Machine.execLogicPoweredDown s
  | .granuleReloaded a0 => Sys2Proof.Machine.execGranuleReloaded a0 s
  | .twinSelected => Sys2Proof.Machine.execTwinSelected s
  | .modulesTrained a0 => Sys2Proof.Machine.execModulesTrained a0 s
  | .flashReady => Sys2Proof.Machine.execFlashReady s
  | .playbillWritten => Sys2Proof.Machine.execPlaybillWritten s
  | .imageLocated => Sys2Proof.Machine.execImageLocated s
  | .headersScanned => Sys2Proof.Machine.execHeadersScanned s
  | .winnersChosen => Sys2Proof.Machine.execWinnersChosen s
  | .functionRestored a0 => Sys2Proof.Machine.execFunctionRestored a0 s
  | .blockRestored a0 => Sys2Proof.Machine.execBlockRestored a0 s
  | .encoreComplete => Sys2Proof.Machine.execEncoreComplete s
  | .mergeComplete => Sys2Proof.Machine.execMergeComplete s
  | .reconcileTimeout => Sys2Proof.Machine.execReconcileTimeout s
  | .orderStoreWritten => Sys2Proof.Machine.execOrderStoreWritten s
  | .rehearsalBurst a0 a1 => Sys2Proof.Machine.execRehearsalBurst a0 a1 s
  | .rehearsalComplete => Sys2Proof.Machine.execRehearsalComplete s
  | .rehearsalPendingStart => Sys2Proof.Machine.execRehearsalPendingStart s
  | .hold a0 => Sys2Proof.Machine.execHold a0 s
  | .commit a0 => Sys2Proof.Machine.execCommit a0 s
  | .release a0 => Sys2Proof.Machine.execRelease a0 s
  | .read a0 => Sys2Proof.Machine.execRead a0 s
  | .lookup a0 a1 => Sys2Proof.Machine.execLookup a0 a1 s
  | .fenceDescriptor a0 => Sys2Proof.Machine.execFenceDescriptor a0 s
  | .orderRead a0 => Sys2Proof.Machine.execOrderRead a0 s
  | .nop a0 => Sys2Proof.Machine.execNop a0 s
  | .keyLoad a0 a1 => Sys2Proof.Machine.execKeyLoad a0 a1 s
  | .keyErase a0 => Sys2Proof.Machine.execKeyErase a0 s
  | .rehearse a0 => Sys2Proof.Machine.execRehearse a0 s
  | .plannedCurtain a0 => Sys2Proof.Machine.execPlannedCurtain a0 s
  | .fnReset a0 => Sys2Proof.Machine.execFnReset a0 s
  | .packParamLoad a0 a1 => Sys2Proof.Machine.execPackParamLoad a0 a1 s
  | .packParamCommit a0 => Sys2Proof.Machine.execPackParamCommit a0 s
  | .packParamRead a0 => Sys2Proof.Machine.execPackParamRead a0 s
  | .learnStart a0 => Sys2Proof.Machine.execLearnStart a0 s
  | .serviceEnter a0 => Sys2Proof.Machine.execServiceEnter a0 s
  | .serviceExit a0 => Sys2Proof.Machine.execServiceExit a0 s
  | .imageTransfer a0 => Sys2Proof.Machine.execImageTransfer a0 s
  | .traceTail a0 => Sys2Proof.Machine.execTraceTail a0 s
  | .faults a0 => Sys2Proof.Machine.execFaults a0 s
  | .book a0 => Sys2Proof.Machine.execBook a0 s
  | .vault a0 => Sys2Proof.Machine.execVault a0 s
  | .anchor a0 => Sys2Proof.Machine.execAnchor a0 s
  | .selector a0 => Sys2Proof.Machine.execSelector a0 s
  | .privSeg a0 => Sys2Proof.Machine.execPrivSeg a0 s
  | .record a0 a1 => Sys2Proof.Machine.execRecord a0 a1 s
  | .twinWrite a0 a1 => Sys2Proof.Machine.execTwinWrite a0 a1 s
  | .twinSelect a0 => Sys2Proof.Machine.execTwinSelect a0 s
  | .readSeg a0 => Sys2Proof.Machine.execReadSeg a0 s
  | .readSpare a0 => Sys2Proof.Machine.execReadSpare a0 s
  | .readRaw a0 => Sys2Proof.Machine.execReadRaw a0 s
  | .creadUnit a0 => Sys2Proof.Machine.execCreadUnit a0 s
  | .creadTargets a0 => Sys2Proof.Machine.execCreadTargets a0 s
  | .creadStop a0 => Sys2Proof.Machine.execCreadStop a0 s
  | .programSeg a0 => Sys2Proof.Machine.execProgramSeg a0 s
  | .loadTlc a0 => Sys2Proof.Machine.execLoadTlc a0 s
  | .eraseUnit a0 => Sys2Proof.Machine.execEraseUnit a0 s
  | .readId a0 => Sys2Proof.Machine.execReadId a0 s
  | .flcKey a0 a1 => Sys2Proof.Machine.execFlcKey a0 a1 s
  | .next a0 => Sys2Proof.Machine.execNext a0 s
  | .flashOperationDone a0 a1 => Sys2Proof.Machine.execFlashOperationDone a0 a1 s
  | .eraseSuspend a0 a1 a2 => Sys2Proof.Machine.execEraseSuspend a0 a1 a2 s
  | .eraseResume a0 a1 => Sys2Proof.Machine.execEraseResume a0 a1 s
  | .sqDoorbell a0 a1 a2 => Sys2Proof.Machine.execSqDoorbell a0 a1 a2 s
  | .cqDoorbell a0 a1 a2 => Sys2Proof.Machine.execCqDoorbell a0 a1 a2 s
  | .descriptorFetch a0 a1 => Sys2Proof.Machine.execDescriptorFetch a0 a1 s
  | .ringEnWrite a0 a1 a2 a3 => Sys2Proof.Machine.execRingEnWrite a0 a1 a2 a3 s
  | .fncCtlReset a0 => Sys2Proof.Machine.execFncCtlReset a0 s
  | .functionDisable a0 a1 => Sys2Proof.Machine.execFunctionDisable a0 a1 s
  | .functionEnable a0 a1 => Sys2Proof.Machine.execFunctionEnable a0 a1 s
  | .flip => Sys2Proof.Machine.execFlip s
  | .tmbSetHt a0 => Sys2Proof.Machine.execTmbSetHt a0 s
  | .tmbEpoch a0 => Sys2Proof.Machine.execTmbEpoch a0 s
  | .spwThresh a0 => Sys2Proof.Machine.execSpwThresh a0 s
  | .ebyteReset => Sys2Proof.Machine.execEbyteReset s
  | .wrapGo => Sys2Proof.Machine.execWrapGo s
  | .wrapLock => Sys2Proof.Machine.execWrapLock s
  | .wrapKeyTimeout => Sys2Proof.Machine.execWrapKeyTimeout s
  | .learnAbort => Sys2Proof.Machine.execLearnAbort s
  | .dismissUs => Sys2Proof.Machine.execDismissUs s
  | .hrkDirQuery a0 => Sys2Proof.Machine.execHrkDirQuery a0 s
  | .fspTarget a0 => Sys2Proof.Machine.execFspTarget a0 s
  | .drcMapNext a0 => Sys2Proof.Machine.execDrcMapNext a0 s
  | .registerWrite a0 => Sys2Proof.Machine.execRegisterWrite a0 s
  | .lowHalfRead a0 => Sys2Proof.Machine.execLowHalfRead a0 s
  | .endpointReset a0 => Sys2Proof.Machine.execEndpointReset a0 s
  | .linkTrained a0 a1 => Sys2Proof.Machine.execLinkTrained a0 a1 s
  | .hostLoss => Sys2Proof.Machine.execHostLoss s
  | .windowWrite a0 a1 a2 a3 => Sys2Proof.Machine.execWindowWrite a0 a1 a2 a3 s
  | .windowRead a0 a1 a2 => Sys2Proof.Machine.execWindowRead a0 a1 a2 s
  | .hostReadCompletion a0 a1 a2 => Sys2Proof.Machine.execHostReadCompletion a0 a1 a2 s
  | .completionTimeout a0 => Sys2Proof.Machine.execCompletionTimeout a0 s
  | .quarantineEnd a0 => Sys2Proof.Machine.execQuarantineEnd a0 s
  | .l1Idle => Sys2Proof.Machine.execL1Idle s
  | .l0pInterval a0 => Sys2Proof.Machine.execL0pInterval a0 s
  | .ptmRequest a0 => Sys2Proof.Machine.execPtmRequest a0 s
  | .coalesceTimer a0 a1 => Sys2Proof.Machine.execCoalesceTimer a0 a1 s
  | .vectorUnmask a0 a1 => Sys2Proof.Machine.execVectorUnmask a0 a1 s
  | .harkaPortTrained a0 => Sys2Proof.Machine.execHarkaPortTrained a0 s
  | .harkaPortLost a0 => Sys2Proof.Machine.execHarkaPortLost a0 s
  | .cueSend => Sys2Proof.Machine.execCueSend s
  | .cue a0 => Sys2Proof.Machine.execCue a0 s
  | .cueResp a0 a1 => Sys2Proof.Machine.execCueResp a0 a1 s
  | .holdover => Sys2Proof.Machine.execHoldover s
  | .ppsEdge a0 => Sys2Proof.Machine.execPpsEdge a0 s
  | .referenceLoss => Sys2Proof.Machine.execReferenceLoss s
  | .join a0 a1 a2 => Sys2Proof.Machine.execJoin a0 a1 a2 s
  | .assign a0 a1 => Sys2Proof.Machine.execAssign a0 a1 s
  | .status a0 => Sys2Proof.Machine.execStatus a0 s
  | .statusSend => Sys2Proof.Machine.execStatusSend s
  | .nodeAbsent a0 => Sys2Proof.Machine.execNodeAbsent a0 s
  | .dirUpdate a0 a1 a2 => Sys2Proof.Machine.execDirUpdate a0 a1 a2 s
  | .rehSlot a0 => Sys2Proof.Machine.execRehSlot a0 s
  | .reconSummary a0 a1 a2 => Sys2Proof.Machine.execReconSummary a0 a1 a2 s
  | .reconKeys a0 a1 a2 => Sys2Proof.Machine.execReconKeys a0 a1 a2 s
  | .reconResult a0 a1 a2 => Sys2Proof.Machine.execReconResult a0 a1 a2 s
  | .reconDone a0 => Sys2Proof.Machine.execReconDone a0 s
  | .ack a0 a1 => Sys2Proof.Machine.execAck a0 a1 s
  | .ackTimeout a0 a1 => Sys2Proof.Machine.execAckTimeout a0 a1 s
  | .xferOpen a0 a1 => Sys2Proof.Machine.execXferOpen a0 a1 s
  | .xferData a0 => Sys2Proof.Machine.execXferData a0 s
  | .xferAck a0 => Sys2Proof.Machine.execXferAck a0 s
  | .xferClose a0 a1 a2 => Sys2Proof.Machine.execXferClose a0 a1 a2 s
  | .xferAbort a0 => Sys2Proof.Machine.execXferAbort a0 s
  | .takeover => Sys2Proof.Machine.execTakeover s
  | .deposed => Sys2Proof.Machine.execDeposed s
  | .standbySwitch => Sys2Proof.Machine.execStandbySwitch s
  | .indexRebuildDone a0 a1 => Sys2Proof.Machine.execIndexRebuildDone a0 a1 s
  | .bucketRespread a0 a1 => Sys2Proof.Machine.execBucketRespread a0 a1 s
  | .cipherRequestDone a0 => Sys2Proof.Machine.execCipherRequestDone a0 s
  | .telemetryCopy => Sys2Proof.Machine.execTelemetryCopy s
  | .smbusBlockRead a0 a1 => Sys2Proof.Machine.execSmbusBlockRead a0 a1 s
  | .tapReset => Sys2Proof.Machine.execTapReset s
  | .bypass => Sys2Proof.Machine.execBypass s
  | .idcode => Sys2Proof.Machine.execIdcode s
  | .samplePreload a0 => Sys2Proof.Machine.execSamplePreload a0 s
  | .extest => Sys2Proof.Machine.execExtest s
  | .extestPulse => Sys2Proof.Machine.execExtestPulse s
  | .extestTrain => Sys2Proof.Machine.execExtestTrain s
  | .clamp => Sys2Proof.Machine.execClamp s
  | .highz => Sys2Proof.Machine.execHighz s
  | .wrapNear => Sys2Proof.Machine.execWrapNear s
  | .ppsOutEdge => Sys2Proof.Machine.execPpsOutEdge s
  | .vin12BelowGood a0 => Sys2Proof.Machine.execVin12BelowGood a0 s
  | .vaux3Return => Sys2Proof.Machine.execVaux3Return s
  | .perstNRelease => Sys2Proof.Machine.execPerstNRelease s
  | .packSeated => Sys2Proof.Machine.execPackSeated s
  | .rehSlotTimeout a0 => Sys2Proof.Machine.execRehSlotTimeout a0 s
  | .flipComplete => Sys2Proof.Machine.execFlipComplete s
  | .keyVaultWritten a0 => Sys2Proof.Machine.execKeyVaultWritten a0 s

end Sys2Proof.Machine
end

