-- ==== Sys2Proof/Safety.lean ====
section
/-!
DEFINITION. The terms that statements are written in: what a command that only reports leaves alone,
and the invariant of the cache DRAM. Nothing here is part of a step.
-/

namespace Sys2Proof.Machine

/-- The device without what reporting writes: fault registers and records, observation, management
rings, cache functions, and what was sent out. -/
def Dev.bare (d : Dev) : Dev := { d with err := {}, obs := {}, mrg := {}, fns := [], outbox := [] }

/-- A cache function without its completion rings, its waiting completions and its MSI-X table. -/
def Dev.fnCore (d : Dev) (f : Nat) : FnSt := { getFn d f with cq := [], cqWait := [], msix := [] }

/-- `e` is `d` with reports added (R252, R270, R333, R346): events, traces, fault records, counters and
messages. Every other field, and every other field of every function, is the same. -/
structure Dev.Reports (d e : Dev) : Prop where
  bare : e.bare = d.bare
  fns : ∀ f, e.fnCore f = d.fnCore f

/-- The device without what ending a descriptor writes: as `bare`, and without descriptors and read tags. -/
def Dev.bareAll (d : Dev) : Dev := { d.bare with descs := [], ept := { d.ept with tags := [] } }

/-- `e` is `d` with reports added and descriptors answered (R251, R263): as `Reports`, and descriptors
and read tags may have ended too. -/
structure Dev.Answers (d e : Dev) : Prop where
  bare : e.bareAll = d.bareAll
  fns : ∀ f, e.fnCore f = d.fnCore f

/-- The host write with which a ROM service operation answers (R328): bytes at an offset of HADDR. -/
def romWrite (x : Desc) (at' : Nat) (bs : List Byte) : Out :=
  .hostWrite 0 (x.entry.haddr + at') bs.length (bs.zipIdx.map (fun e => (e.2, e.1))) false

/-- A command that leaves the cache DRAM and the waiting commands alone. -/
def State.devOnly (s t : State) : Prop := t.dram = s.dram ∧ t.pending = s.pending

/-- An edge of PPS_IN steers (R55): the source is PPS, or PPS with PTM and PTM is present. -/
def ppsSteers (t : Tmb) : Bool := t.src = 1 || (t.src = 3 && t.ptmFails < 3 && t.epochNs ≠ 0)

/-- A ROM service command that only answers (R328): its descriptor ends, and nothing but reports, descriptors and
the count of free values changes. -/
def RomAnswers (h : Nat) (s t : State) : Prop :=
  s.devOnly t ∧ findDesc t.dev h = none ∧ Dev.Answers { s.dev with freeCtr := t.dev.freeCtr } t.dev

/-- A port that takes command code `op` now (R316, R317): armed for it, and carrying no other. -/
def portFree (d : Dev) (c op : Nat) : Bool :=
  portPresent d c && (getCell d c).arm = .armed && field (getCell d c).cmd 0 8 = op
    && ((getCell d c).port = .idle || (getCell d c).port = .done)

/-- What a command's start does to its port (R317 to R321): the port disarms and the command is queued, done with
the result of a failed check, or executing; other ports stand. -/
def PortRuns (op c : Nat) (s t : State) : Prop :=
  s.devOnly t ∧ (getCell t.dev c).arm = .disarmed ∧ (getCell t.dev c).op = op
    ∧ (∀ q, q ≠ c → getCell t.dev q = getCell s.dev q)
    ∧ (portsRefused s.dev = false → portWaits s.dev c op (getCell s.dev c).addr = true →
        (getCell t.dev c).port = .queued)
    ∧ ((portsRefused s.dev = true ∨ portWaits s.dev c op (getCell s.dev c).addr = false) →
        startResult s.dev c op (getCell s.dev c).addr = 0 → (getCell t.dev c).port = .executing)
    ∧ ((portsRefused s.dev = true ∨ portWaits s.dev c op (getCell s.dev c).addr = false) →
        startResult s.dev c op (getCell s.dev c).addr ≠ 0 → (getCell t.dev c).port = .done
          ∧ (getCell t.dev c).result = startResult s.dev c op (getCell s.dev c).addr)
    ∧ Dev.Reports { s.dev with cells := t.dev.cells, flash := t.dev.flash } t.dev

/-- A frame comes in whole at a port that carries frames (R181). -/
def carried (d : Dev) (h : FrameIn) : Bool := harkaOn d && (getPort d h.port).trained && h.intact

/-- The frame is meant for this device or for all (R182). -/
def forUs (d : Dev) (h : FrameIn) : Bool := h.dst = 0xFFFF || h.dst = 0xFFFE || h.dst = ownIndex d

/-- A frame that the device takes (R179, R182): it comes in whole at a port that is no standby uplink, is meant for
this device or for all, and is no repeat of one acknowledged before. -/
def heard (d : Dev) (h : FrameIn) : Bool :=
  carried d h && forUs d h && (getPort d h.port).dir ≠ 2
    && !(h.ackReq && d.hrk.seenSeqs.contains (h.port, h.src, h.seq))

/-- The commands that can write or lose content of the cache DRAM: those that carry data into it, that
restore or clear it, and those at which its power can go. -/
def touchesDram : Instr → Bool
  | .hostReadCompletion .. | .release .. | .windowWrite .. | .selfRefreshEntered | .granuleReloaded ..
  | .imageLocated | .functionRestored .. | .keyErase .. | .failAssert .. | .sealHoldExpiry
  | .packCollapse .. | .packSurpriseRemoval | .packSample .. | .chipFatalFault .. | .mgmtWatchdogExpiry
  | .dramPlaced
  | .vin12BelowGood .. => true
  | _ => false

/-- The commands that can change a pin: events of the supplies, of the pack and of PERST_N, and PPS_OUT. -/
def writesPins : Instr → Bool
  | .failAssert .. | .failRelease .. | .warnAssert .. | .warnRelease .. | .mainSupplyGood ..
  | .vaux3Loss | .sealHoldExpiry | .chipFatalFault .. | .mgmtWatchdogExpiry | .packSurpriseRemoval
  | .packRemovedSwitchOpen | .packCollapse .. | .packSample .. | .endpointReset .. | .ppsOutEdge
  | .vin12BelowGood .. | .vaux3Return | .perstNRelease | .packSeated
  | .dramPlaced => true
  | _ => false

/-- The commands that can change the supply watch: its events and settings, and what enters or leaves DARK or BOOT. -/
def writesSpw : Instr → Bool
  | .failAssert .. | .failRelease .. | .warnAssert .. | .warnRelease .. | .mainSupplyGood ..
  | .resumeQualExpiry | .sealHoldExpiry | .chipFatalFault .. | .mgmtWatchdogExpiry
  | .packSurpriseRemoval | .packCollapse .. | .packSample .. | .dramPlaced | .serviceExit ..
  | .spwThresh .. | .registerWrite .. | .linkTrained .. | .vin12BelowGood .. | .logicPoweredDown
  | .attentionButtonPress | .chgTimeout | .ebyteReset | .estimatorUpdate
  | .intermissionTimerExpiry | .learnPhaseEnd | .orderlyDrainDone | .packPresenceDetect ..
  | .packSettleExpiry .. | .pkbClose | .pkbFaultClear .. | .restDue => true
  | _ => false

/-- The commands that can change the record of an intermission: its own, those at which one starts or ends, and the
transfers that take a granule to the head of its reload order (R130). -/
def writesInt : Instr → Bool
  | .failAssert .. | .mainSupplyGood .. | .resumeQualExpiry | .intermissionTimerExpiry
  | .chipFatalFault .. | .mgmtWatchdogExpiry | .packPresenceDetect .. | .packSettleExpiry ..
  | .packSurpriseRemoval | .attentionButtonPress | .pkbClose | .orderlyDrainDone | .packCollapse ..
  | .chgTimeout | .pkbFaultClear .. | .packSample .. | .estimatorUpdate | .restDue | .learnPhaseEnd
  | .admissionRecompute .. | .flashQuiesced | .intListsWritten | .statePreserved | .selfRefreshEntered
  | .logicPoweredDown | .granuleReloaded .. | .imageLocated | .plannedCurtain .. | .ebyteReset
  | .registerWrite .. | .hostLoss | .sealHoldExpiry | .dramPlaced | .hold .. | .release .. | .read ..
  | .windowRead .. | .windowWrite ..
  | .cellFailure .. | .cipherPipeFault .. | .commit .. | .crossSave .. | .dramUncorrectable ..
  | .fence .. | .programFail .. | .targetDead .. | .vin12BelowGood .. => true
  | _ => false

/-- The commands that can change the estimator: its own, those of the pack, those that end a learning cycle (a
recount that fails the floor test of R215 among them), and those at which a rehearsal or an intermission
drops a probe. -/
def writesEst : Instr → Bool
  | .failAssert .. | .warnAssert .. | .mainSupplyGood .. | .resumeQualExpiry | .intermissionTimerExpiry
  | .chipFatalFault .. | .mgmtWatchdogExpiry | .packPresenceDetect .. | .packSettleExpiry ..
  | .packSurpriseRemoval | .packRemovedSwitchOpen | .attentionButtonPress | .pkbClose
  | .orderlyDrainDone | .packCollapse .. | .chgTimeout | .pkbFaultClear .. | .packSample ..
  | .estimatorUpdate | .restPoint .. | .restDue | .restWindowExpiry | .probePulse | .probePulseEnd ..
  | .learnPhaseEnd | .admissionRecompute .. | .holdDataArrived .. | .holdDeadlineExpiry ..
  | .recordCountedWritten .. | .programFail .. | .targetDead .. | .logCleaning .. | .eraseComplete ..
  | .scrubRead .. | .cellFailure .. | .cipherPipeFault .. | .crossSave .. | .fence ..
  | .dramUncorrectable .. | .flashDramPrepared | .dataStreamed | .flashQuiesced | .logicPoweredDown
  | .playbillWritten | .orderStoreWritten | .rehearsalComplete | .rehearsalPendingStart | .commit ..
  | .release .. | .keyErase .. | .rehearse .. | .plannedCurtain .. | .fnReset .. | .packParamLoad ..
  | .packParamCommit .. | .packParamRead .. | .learnStart .. | .serviceExit .. | .ringEnWrite ..
  | .fncCtlReset .. | .functionDisable .. | .functionEnable .. | .ebyteReset | .learnAbort
  | .registerWrite .. | .linkTrained .. | .hostLoss | .status .. | .statusSend | .rehSlot ..
  | .rehSlotTimeout .. | .keyVaultWritten ..
  | .attentionWindowExpiry | .dramPlaced | .encoreComplete | .indexRebuildDone ..
  | .modulesTrained .. | .pkbRemove | .serviceEnter .. => true
  | _ => false

/-- The commands that can change the pack bay, its faults or its charger. -/
def writesPkb : Instr → Bool
  | .failAssert .. | .mainSupplyGood .. | .retentionPackRelease | .chipFatalFault ..
  | .mgmtWatchdogExpiry | .packPresenceDetect .. | .packSettleExpiry .. | .packSurpriseRemoval
  | .packRemovedSwitchOpen | .attentionButtonPress | .attentionWindowExpiry | .pkbRemove | .pkbClose
  | .orderlyDrainDone | .packCollapse .. | .chgTimeout | .pkbFaultClear .. | .packSample ..
  | .learnPhaseEnd | .rehearsalComplete | .learnStart .. | .ebyteReset | .registerWrite .. | .packSeated
  | .modulesTrained .. => true
  | _ => false

/-- The commands that can change what the board is known to be. -/
def writesBoard : Instr → Bool
  | .mainSupplyGood .. | .twinSelected | .modulesTrained .. => true
  | _ => false

/-- The commands that can change the boot state and the firmware twins. -/
def writesRom : Instr → Bool
  | .mainSupplyGood .. | .resumeQualExpiry | .dramPlaced | .twinSelected | .modulesTrained ..
  | .flashReady | .playbillWritten | .serviceExit .. | .twinWrite .. | .twinSelect .. | .linkTrained .. => true
  | _ => false

/-- The commands that can change the record of an encore and its restore list: its own, and those that lose records
while it runs. -/
def writesEnc : Instr → Bool
  | .mainSupplyGood .. | .resumeQualExpiry | .dramPlaced | .imageLocated | .headersScanned
  | .winnersChosen | .functionRestored .. | .blockRestored .. | .encoreComplete | .mergeComplete
  | .reconcileTimeout | .orderStoreWritten | .orderRead .. | .serviceExit ..
  | .registerWrite .. | .linkTrained .. | .cue .. | .reconSummary .. | .reconResult .. | .reconDone ..
  | .keyVaultWritten .. | .cellFailure .. | .targetDead .. | .crossSave .. | .dramUncorrectable ..
  | .fence .. => true
  | _ => false

/-- The commands that can change an entry to SERVICE or the mark of a transfer in it. -/
def writesSvc : Instr → Bool
  | .failAssert .. | .mainSupplyGood .. | .resumeQualExpiry | .chipFatalFault .. | .mgmtWatchdogExpiry
  | .admissionRecompute .. | .recordCountedWritten .. | .plannedCurtain .. | .serviceEnter ..
  | .serviceExit .. | .hostLoss | .harkaPortLost .. | .ackTimeout .. | .xferData .. | .xferClose ..
  | .xferAbort .. | .takeover | .logicPoweredDown => true
  | _ => false

/-- The invariant of every state: the cache DRAM is in its canonical form. -/
def State.Inv (s : State) : Prop := Memory.wf s.dram

end Sys2Proof.Machine
end

