-- ==== Sys2Proof/Certificates/Slice0/Obligations.lean ====
section
/-!
DEFINITION. The statements for the provers, in the order of OBLIGATIONS.json. A clause names what the
command changes; `Dev.Reports` and `Dev.Answers` say that everything else stands but for reports,
and `State.devOnly` that the cache DRAM and the waiting commands do.
-/

open Sys2Proof Sys2Proof.Machine

/-- A block's step runs the command at the front of its queue on the rest of the queue. -/
def Obligations.StepRunsFront : Prop :=
  ∀ (c : Instr) (s : State), Sys2Proof.Machine.step { s with pending := c :: s.pending } = exec c s

/-- On an empty queue a step is one ordering-point cycle of the time base: the queue, the cache DRAM and
every other unit stand. This is the model's choice (log entry 25). With the time base powered the cycle
ends: one without a commit advances HT by its 4 ticks, by 3 or 5 where it slews or a held frequency does
(R27, R56); a full insertion queue that holds a waiting hold back counts the cycle in IDX_STALLS (R275). -/
def Obligations.IdleStepIsCycle : Prop :=
  ∀ s : State, s.pending = [] →
    ∃ t, Sys2Proof.Machine.step s = .next t ∧ s.devOnly t
      ∧ Dev.Reports { s.dev with tmb := t.dev.tmb, idx := t.dev.idx } t.dev
      ∧ t.dev.idx = (if s.dev.tmb.powered ∧ insqFull s.dev ∧ s.dev.descs.any (fun x => x.phase = .waiting) then
          { s.dev.idx with stalls := satAdd 32 s.dev.idx.stalls 1 } else s.dev.idx)
      ∧ (s.dev.tmb.powered = true → t.dev.tmb.slot = 0)
      ∧ (s.dev.tmb.powered = true → s.dev.tmb.slot = 0 →
          s.dev.tmb.ht + 3 ≤ t.dev.tmb.ht ∧ t.dev.tmb.ht ≤ s.dev.tmb.ht + 5
          ∧ (s.dev.tmb.lag = 0 → s.dev.tmb.held = false → t.dev.tmb.ht = s.dev.tmb.ht + 4))
      ∧ (s.dev.tmb.powered = false → t.dev.tmb.ht = s.dev.tmb.ht)

/-- No command touches the commands that wait behind it. Every command but the seventeen that carry data
into the cache DRAM, clear it or can take its power leaves every byte of it as it reads. -/
def Obligations.QueueAndDramFrames : Prop :=
  (∀ (c : Instr) (s t : State), exec c s = .next t → t.pending = s.pending)
  ∧ (∀ (c : Instr) (s t : State), touchesDram c = false → exec c s = .next t →
    ∀ a : Nat, memRead t.dram a = memRead s.dram a)

/-- Every command completes in every state, with every operand, but for three on a supply level above the
absolute maximum of Table 21.1, beyond which R354 gives no behaviour: FAIL_RELEASE, WARN_RELEASE and
MAIN_SUPPLY_GOOD complete up to it and stop the machine above it. No command is refused. -/
def Obligations.StopsOnlyAboveRatings : Prop :=
  (∀ (c : Instr) (s : State), (∀ mv, c ≠ .failRelease mv ∧ c ≠ .warnRelease mv ∧ c ≠ .mainSupplyGood mv) →
    ∃ t, exec c s = .next t)
  ∧ (∀ (mv : Nat) (s : State), mv ≤ 16000 → ∃ t, exec (.failRelease mv) s = .next t)
  ∧ (∀ (mv : Nat) (s : State), mv ≤ 16000 → ∃ t, exec (.warnRelease mv) s = .next t)
  ∧ (∀ (mv : Nat) (s : State), mv ≤ 16000 → ∃ t, exec (.mainSupplyGood mv) s = .next t)
  ∧ (∀ (mv : Nat) (s : State), 16000 < mv → exec (.failRelease mv) s = .fault .absoluteMaximum
      ∧ exec (.warnRelease mv) s = .fault .absoluteMaximum
      ∧ exec (.mainSupplyGood mv) s = .fault .absoluteMaximum)

/-- Every step keeps the cache DRAM in its canonical form: rising addresses, no listed zero. -/
def Obligations.StepKeepsDramForm : Prop :=
  ∀ s t : State, s.Inv → Sys2Proof.Machine.step s = .next t → t.Inv

/-- What reset leaves (Reset column of chapter 23; R33, R37): BOOT entered from DARK, the supply, admission,
error and observation registers at their reset values, no budget, no function set up, no command waiting.
The state after reset has the form that every step keeps. -/
def Obligations.ResetState : Prop :=
  State.reset.dev.chp.mode = .boot ∧ State.reset.dev.chp.prev = .dark
    ∧ State.reset.dev.tmb.ctl = 0x000A300A ∧ State.reset.dev.tmb.stepThresh = 0x003D0900
    ∧ State.reset.dev.spw.ctl = 0x000A0001 ∧ State.reset.dev.spw.resumeQual = 200
    ∧ State.reset.dev.spw.sealHold = 600 ∧ State.reset.dev.adm.ctl = 0x00C80000
    ∧ State.reset.dev.adm.budget = 0 ∧ State.reset.dev.err.ctl = 1
    ∧ State.reset.dev.obs.ctl = 0x03FF0000 ∧ State.reset.dev.ept.fnCount = 63
    ∧ State.reset.dev.hrk.reconTimeout = 10000 ∧ State.reset.pending = []
  ∧ (State.reset.Inv)

/-- Reading the cache DRAM after a write of consecutive bytes: the bytes written within their range, and
what stood before outside it. Clearing a range makes its bytes read zero and leaves the others. -/
def Obligations.DramReads : Prop :=
  (∀ (m : List Host.Cell) (a b : Nat) (bs : List Byte), Memory.wf m →
    memRead (memWriteBytes m a bs) b
      = if h : a ≤ b ∧ b < a + bs.length then bs[b - a]'(by omega) else memRead m b)
  ∧ (∀ (m : List Host.Cell) (a b n : Nat), Memory.wf m →
    memRead (memClear m a n) b = if a ≤ b ∧ b < a + n then 0 else memRead m b)

/-- What the supply watch, the pack and the pins keep: each of these units changes only with the commands
that the rules name for it, and stands as it is over every other command. -/
def Obligations.SupplyAndPackFrames : Prop :=
  ∀ (c : Instr) (s t : State), exec c s = .next t →
    (writesPins c = false → t.dev.pins = s.dev.pins)
    ∧ (writesSpw c = false → t.dev.spw = s.dev.spw)
    ∧ (writesInt c = false → t.dev.int = s.dev.int)
    ∧ (writesEst c = false → t.dev.est = s.dev.est)
    ∧ (writesPkb c = false → t.dev.pkb = s.dev.pkb)

/-- What the board, the ROM, the encore, SERVICE and the plain settings keep: each changes only with the
commands that the rules name for it. -/
def Obligations.BoardAndRecordFrames : Prop :=
  ∀ (c : Instr) (s t : State), exec c s = .next t →
    (writesBoard c = false → t.dev.board = s.dev.board)
    ∧ (writesRom c = false → t.dev.rom = s.dev.rom)
    ∧ (writesEnc c = false → t.dev.enc = s.dev.enc)
    ∧ (writesSvc c = false → t.dev.svc = s.dev.svc)
    ∧ ((∀ r, c ≠ .lowHalfRead r) → (∀ mv, c ≠ .mainSupplyGood mv) → t.dev.readLatch = s.dev.readLatch)
    ∧ ((∀ e g, c ≠ .descriptorFetch e g) → (∀ mv, c ≠ .mainSupplyGood mv) →
        t.dev.nextHandle = s.dev.nextHandle ∧ t.dev.wrrFn = s.dev.wrrFn)
    ∧ ((∀ w, c ≠ .registerWrite w) → (∀ mv, c ≠ .mainSupplyGood mv) →
        t.dev.stgCtl = s.dev.stgCtl ∧ t.dev.stgWear = s.dev.stgWear ∧ t.dev.stgScrub = s.dev.stgScrub
          ∧ t.dev.stgCompact = s.dev.stgCompact ∧ t.dev.stgReserve = s.dev.stgReserve)

/-- GOOD, WARN and the level between (R103, R105, R106): what each supply command makes of the supply's
flags, its counts and its timers; FAIL stands while the entry to an intermission runs (Table 7.3). Nothing
else changes but reports; an assertion of WARN also ends a pending parameter commit and a probe (R206,
R217), and in SEALED with the pack gone or at its cutoff the loss of GOOD is row 10 (R36). -/
def Obligations.SupplyLevels : Prop :=
  (∀ (mv : Nat) (s : State), s.dev.spw.goodMv ≤ mv → mv ≤ 16000 → s.dev.chp.mode ≠ .dark →
    ∃ t, exec (.failRelease mv) s = .next t ∧ s.devOnly t
      ∧ Dev.Reports { s.dev with
          pins := { s.dev.pins with vinMv := mv }
          chp := { s.dev.chp with halt := s.dev.chp.halt && !s.dev.chp.haltLost, haltLost := false }
          spw := { s.dev.spw with
            mv, fail := s.dev.spw.fail && entering s.dev, good := true, onPack := false, qualRunning := true
            qualified := false
            intTimerRunning := false, holdRunning := false } } t.dev)
  ∧ (∀ (mv : Nat) (s : State), mv < s.dev.spw.goodMv → s.dev.chp.mode = .sealed →
      (packUsable s.dev = false ∨ s.dev.pkb.cutoff = true) →
    ∃ t, exec (.vin12BelowGood mv) s = .next t ∧ t.pending = s.pending ∧ t.dev.chp.mode = .dark
      ∧ t.dev.chp.cause = 0x0D ∧ t.dram = [])
  ∧ (∀ (mv : Nat) (s : State), mv < s.dev.spw.goodMv → s.dev.chp.mode ≠ .dark →
      (s.dev.chp.mode = .sealed → packUsable s.dev = true ∧ s.dev.pkb.cutoff = false) →
    ∃ t, exec (.vin12BelowGood mv) s = .next t ∧ s.devOnly t
      ∧ t.dev = { s.dev with
          pins := { s.dev.pins with vinMv := mv }
          spw := { s.dev.spw with
            mv, good := false, qualRunning := false, qualified := false
            intTimerRunning := s.dev.spw.intTimerRunning || s.dev.chp.mode = .intermission
            holdRunning := s.dev.spw.holdRunning || s.dev.chp.mode = .sealed } })
  ∧ (∀ (mv : Nat) (s : State), mv < s.dev.spw.warnMv → s.dev.spw.warn = false → s.dev.chp.mode ≠ .dark →
    ∃ t, exec (.warnAssert mv) s = .next t ∧ s.devOnly t
      ∧ Dev.Answers { s.dev with
          pins := { s.dev.pins with vinMv := mv }
          est := { s.dev.est with
            probing := false, shareMa := 0, pending := 0
            outcome := if s.dev.est.pending = 0 then s.dev.est.outcome else 2 }
          spw := { s.dev.spw with mv, warn := true, warnCount := satAdd 16 s.dev.spw.warnCount 1 } } t.dev)
  ∧ (∀ (mv : Nat) (s : State), s.dev.spw.warnMv + 100 ≤ mv → mv ≤ 16000 → s.dev.spw.warn = true →
      s.dev.chp.mode ≠ .dark →
    ∃ t, exec (.warnRelease mv) s = .next t ∧ s.devOnly t
      ∧ Dev.Reports { s.dev with
          pins := { s.dev.pins with vinMv := mv }
          spw := { s.dev.spw with mv, warn := false } } t.dev)

/-- A FAIL newly asserted takes the row of Table 2.3 that its mode gives (R103, R107): rows 1 and 2 to DARK
with the cache DRAM lost, a curtain from WRITE_THROUGH where the pack can carry one, and from the modes that
admit an intermission only where it is enabled and the energy covers need and margin (R123). FAIL stands and
the flags of GOOD and of the qualification fall in every mode. -/
def Obligations.FailTakesItsRow : Prop :=
  (∀ (mv : Nat) (s : State), mv < s.dev.spw.failMv → s.dev.chp.mode ≠ .dark →
    ∃ t, exec (.failAssert mv) s = .next t ∧ t.pending = s.pending
      ∧ t.dev.spw.fail = true ∧ t.dev.spw.good = false ∧ t.dev.spw.qualRunning = false
      ∧ t.dev.spw.mv = mv ∧ t.dev.pins.vinMv = mv
      ∧ t.dev.spw.failCount
          = (if s.dev.spw.fail then s.dev.spw.failCount else satAdd 16 s.dev.spw.failCount 1))
  ∧ (∀ (mv : Nat) (s : State), mv < s.dev.spw.failMv → s.dev.spw.fail = false →
      (s.dev.chp.mode = .boot ∨ s.dev.chp.mode = .encore ∨ s.dev.chp.mode = .reconcile
        ∨ s.dev.chp.mode = .service ∨ (s.dev.chp.mode = .writeThrough
          ∧ (packUsable s.dev = false ∨ eAvailNow s.dev < s.dev.adm.eFixed.toNat + sealReserve s.dev))) →
    ∃ t, exec (.failAssert mv) s = .next t ∧ t.dev.chp.mode = .dark ∧ t.dev.chp.prev = s.dev.chp.mode
      ∧ t.dev.chp.cause = 0x05 ∧ t.dram = [] ∧ t.dev.descs = [] ∧ t.dev.pages = [])
  ∧ (∀ (mv : Nat) (s : State), mv < s.dev.spw.failMv → s.dev.spw.fail = false →
      s.dev.chp.mode = .writeThrough → packUsable s.dev = true →
      s.dev.adm.eFixed.toNat + sealReserve s.dev ≤ eAvailNow s.dev →
    ∃ t, exec (.failAssert mv) s = .next t ∧ t.dev.chp.mode = .curtain ∧ t.dev.cur.milestone = 4
      ∧ t.dev.ept.link = .abandoned)
  ∧ (∀ (mv : Nat) (s : State), mv < s.dev.spw.failMv → s.dev.spw.fail = false →
      (s.dev.chp.mode = .armed ∨ s.dev.chp.mode = .derated ∨ s.dev.chp.mode = .rehearsal) →
    ∃ t, exec (.failAssert mv) s = .next t ∧ t.dev.ept.link = .abandoned
      ∧ (t.dev.chp.mode = .intermission ∨ t.dev.chp.mode = .curtain)
      ∧ (s.dev.spw.intEn = false → t.dev.chp.mode = .curtain)
      ∧ (s.dev.est.pending = 0 → t.dev.chp.mode
          = (if s.dev.spw.intEn = true
              ∧ curtainNeed s.dev + intMargin s.dev (curtainNeed s.dev) ≤ eAvailNow s.dev
             then .intermission else .curtain)))

/-- A chip island's fatal fault (R25, R340) starts a protective curtain with HALT, or makes one of the
curtain in progress; in BOOT it is recorded for the boot, and in SEALED and INTERMISSION only the power
island (80) may end the mode. An island that is off (Table 1.6) cannot fail. The watchdog is the management
core's fault (island 79). -/
def Obligations.ChipFatalRows : Prop :=
  (∀ (i : Nat) (s : State), chipIslandOn s.dev i = true →
    ∃ t, exec (.chipFatalFault i) s = .next t ∧ t.pending = s.pending
      ∧ t.dev.chp.fatalIslands.contains i = true
      ∧ (s.dev.chp.mode ≠ .boot → s.dev.chp.mode ≠ .sealed → s.dev.chp.mode ≠ .intermission →
        t.dev.chp.mode = .curtain ∧ t.dev.cur.protectiveFlag = true ∧ t.dev.chp.halt = true)
      ∧ (s.dev.chp.mode = .boot → t.dev.chp.mode = .boot ∧ t.dev.chp.fatalBoot = true)
      ∧ (s.dev.chp.mode = .sealed → i ≠ 80 → t.dev.chp.mode = .sealed)
      ∧ (s.dev.chp.mode = .intermission → i ≠ 80 → t.dev.chp.mode = .intermission))
  ∧ (∀ (i : Nat) (s : State), chipIslandOn s.dev i = false →
    exec (.chipFatalFault i) s = .next s)
  ∧ (∀ (i : Nat) (s : State), (s.dev.chp.mode = .dark ∨ i < 76 ∨ 83 < i
        ∨ s.dev.chp.mode = .sealed ∧ i ≠ 80 ∧ i ≠ 83) → chipIslandOn s.dev i = false)
  ∧ (∀ s : State, s.dev.chp.mode ≠ .dark → s.dev.chp.mode ≠ .boot → s.dev.chp.mode ≠ .sealed →
      s.dev.chp.mode ≠ .intermission →
    ∃ t, exec .mgmtWatchdogExpiry s = .next t ∧ exec (.chipFatalFault 79) s = .next t
      ∧ t.dev.chp.mode = .curtain ∧ t.dev.cur.protectiveFlag = true ∧ t.dev.chp.halt = true
      ∧ t.dev.chp.fatalIslands = 79 :: s.dev.chp.fatalIslands)

/-- The milestones of an intermission follow one another (Table 7.1, R125, R127): I5 quiesces the flash, I6
writes the lists, I7 copies the key store, I8 leaves in the cache DRAM exactly what the kept segments hold,
I9 stops the time base. Each keeps the mode; with main supply already qualified at I9 row 8 is taken at
once. The ends of an intermission (R128, R129, rows 6 and 8): the timer with main supply away goes on as a
curtain at M4, and a finished qualification at I9 leaves it, its lists and waiting work gone, into a
protective curtain where a chip island has failed meanwhile (R340). A qualification that ends before I9, or
in another mode but SEALED, is only recorded; with main supply away, none runs. -/
def Obligations.Intermission : Prop :=
  (∀ s : State, s.dev.chp.mode = .intermission → s.dev.int.step = 4 →
    ∃ t, exec .flashQuiesced s = .next t ∧ s.devOnly t ∧ t.dev.chp.mode = .intermission ∧ t.dev.int.step = 5)
  ∧ (∀ s : State, s.dev.chp.mode = .intermission → s.dev.int.step = 5 →
    ∃ t, exec .intListsWritten s = .next t ∧ s.devOnly t ∧ t.dev.chp.mode = .intermission
      ∧ t.dev.int.step = 6 ∧ t.dev.int.listIds = t.dev.cur.lists.map CallList.listId)
  ∧ (∀ s : State, s.dev.chp.mode = .intermission → s.dev.int.step = 6 →
    ∃ t, exec .statePreserved s = .next t ∧ s.devOnly t
      ∧ Dev.Reports { s.dev with
          int := { s.dev.int with step := 7 }
          cip := { s.dev.cip with copy := s.dev.cip.slots } } t.dev)
  ∧ (∀ s : State, s.dev.chp.mode = .intermission → s.dev.int.step = 7 →
    ∃ t, exec .selfRefreshEntered s = .next t ∧ t.pending = s.pending ∧ t.dev.chp.mode = .intermission
      ∧ t.dev.int.step = 8 ∧ t.dev.int.kept = keptMask s.dev
      ∧ ∀ a, memRead t.dram a
          = if (keptSegments s.dev (blockOf a)).contains (segmentOf s.dev a) then memRead s.dram a else 0)
  ∧ (∀ s : State, s.dev.chp.mode = .intermission → s.dev.int.step = 8 →
      (s.dev.spw.good = false ∨ s.dev.spw.qualified = false) →
    ∃ t, exec .logicPoweredDown s = .next t ∧ s.devOnly t ∧ t.dev.chp.mode = .intermission
      ∧ t.dev.int.step = 9 ∧ (s.dev.tmb.powered = true → t.dev.tmb.powered = false))
  ∧ (∀ s : State, s.dev.chp.mode = .intermission → s.dev.int.step = 8 → s.dev.spw.good = true →
      s.dev.spw.qualified = true → s.dev.chp.fatalIslands = [] →
    ∃ t, exec .logicPoweredDown s = .next t ∧ s.devOnly t ∧ t.dev.int.exit = 1 ∧ t.dev.int.step = 0
      ∧ t.dev.chp.mode.settled = true)
  ∧ (∀ s : State, s.dev.chp.mode = .intermission → s.dev.spw.intTimerRunning = true → s.dev.spw.good = false →
    ∃ t, exec .intermissionTimerExpiry s = .next t ∧ s.devOnly t ∧ t.dev.chp.mode = .curtain
      ∧ t.dev.chp.cause = 0x0A ∧ t.dev.int.exit = 2 ∧ t.dev.cur.milestone = 4 ∧ t.dev.tmb.powered = true
      ∧ t.dev.cur.fromInt = true)
  ∧ (∀ s : State, s.dev.spw.good = true → s.dev.spw.qualRunning = true →
      s.dev.chp.mode = .intermission → s.dev.int.step = 9 → s.dev.chp.fatalIslands = [] →
    ∃ t, exec .resumeQualExpiry s = .next t ∧ s.devOnly t ∧ t.dev.int.exit = 1 ∧ t.dev.int.step = 0
      ∧ t.dev.int.ready = [] ∧ t.dev.int.abandoned = [] ∧ t.dev.int.listIds = []
      ∧ t.dev.tmb.powered = true ∧ t.dev.chp.mode.settled = true)
  ∧ (∀ s : State, s.dev.spw.good = true → s.dev.spw.qualRunning = true → s.dev.chp.mode = .sealed →
    ∃ t, exec .resumeQualExpiry s = .next t ∧ s.devOnly t
      ∧ t.dev.chp.mode = (if s.dev.chp.halt then .sealed else .boot))
  ∧ (∀ s : State, s.dev.spw.good = true → s.dev.spw.qualRunning = true → s.dev.chp.mode ≠ .sealed →
      s.dev.chp.mode ≠ .intermission →
    exec .resumeQualExpiry s
      = .next { s with dev := { s.dev with spw := { s.dev.spw with qualified := true } } })
  ∧ (∀ s : State, s.dev.spw.good = true → s.dev.spw.qualRunning = true → s.dev.chp.mode = .intermission →
      s.dev.int.step ≠ 9 →
    exec .resumeQualExpiry s
      = .next { s with dev := { s.dev with spw := { s.dev.spw with qualified := true } } })
  ∧ (∀ s : State, s.dev.spw.good = false ∨ s.dev.spw.qualRunning = false → exec .resumeQualExpiry s = .next s)
  ∧ (∀ s : State, s.dev.spw.good = true → s.dev.spw.qualRunning = true →
      s.dev.chp.mode = .intermission → s.dev.int.step = 9 → s.dev.chp.fatalIslands ≠ [] →
    ∃ t, exec .resumeQualExpiry s = .next t ∧ s.devOnly t ∧ t.dev.chp.mode = .curtain
      ∧ t.dev.cur.protectiveFlag = true ∧ t.dev.int.step = 0)
  ∧ (∀ s : State, s.dev.chp.mode ≠ .intermission ∨ s.dev.spw.intTimerRunning = false ∨ s.dev.spw.good = true →
    exec .intermissionTimerExpiry s = .next s)

/-- Row 10 (R114): the seal hold ends with main supply away, the device goes dark and the cache DRAM is
lost. In DARK the retention island's release of the pack is only that, while VIN12 still powers it (R363,
R386). A pack that collapses under a curtain (R119): while it does not carry the load PACK_LOST is set;
while it does, the device stops and the cache DRAM is lost, as it does at a FAIL of main supply once the
pack is gone. In SEALED with main away row 10 is taken, and in a mode that admits the budget is zero and the
device in WRITE_THROUGH (R34). A granule's reload (R130): the granule that is next in the order waits no
longer once reloaded, no window TLP is held on it, and with none held on it no byte outside it changes.
While no reload runs, and for any other granule, nothing changes. -/
def Obligations.SealAndCollapse : Prop :=
  (∀ s : State, s.dev.chp.mode = .sealed → s.dev.spw.good = false → s.dev.spw.holdRunning = true →
    ∃ t, exec .sealHoldExpiry s = .next t ∧ t.pending = s.pending ∧ t.dev.chp.mode = .dark
      ∧ t.dev.chp.cause = 0x0D ∧ t.dram = [] ∧ t.dev.chp.sealRetained = false)
  ∧ (∀ s : State, s.dev.chp.mode = .dark → 8000 ≤ s.dev.pins.vinMv →
    exec .retentionPackRelease s
      = .next { s with dev := { s.dev with pkb := { s.dev.pkb with released := true } } })
  ∧ (∀ s : State, s.dev.chp.mode = .dark → s.dev.pins.vinMv < 8000 →
    ∃ t, exec .retentionPackRelease s = .next t ∧ s.devOnly t ∧ t.dev.pkb.released = true
      ∧ t.dev.obs.tail = [] ∧ t.dev.err.retained = [] ∧ t.dev.cip.copy = [])
  ∧ (∀ (r : Bool) (s : State), s.dev.chp.mode = .curtain → s.dev.spw.onPack = false →
    ∃ t, exec (.packCollapse r) s = .next t ∧ t.pending = s.pending ∧ t.dev.chp.mode = .curtain
      ∧ t.dev.cur.packLost = true ∧ t.dev.cur.faultFlag = true)
  ∧ (∀ (r : Bool) (s : State), (s.dev.chp.mode = .curtain ∧ s.dev.spw.onPack = true
        ∨ s.dev.chp.mode = .sealed ∧ s.dev.spw.good = false) →
    ∃ t, exec (.packCollapse r) s = .next t ∧ t.dev.chp.mode = .dark ∧ t.dram = [])
  ∧ (∀ (mv : Nat) (s : State), mv < s.dev.spw.failMv → s.dev.spw.fail = false → s.dev.chp.mode = .curtain →
      packUsable s.dev = false →
    ∃ t, exec (.failAssert mv) s = .next t ∧ t.dev.chp.mode = .dark ∧ t.dram = [])
  ∧ (∀ s : State, s.dev.chp.mode = .sealed → s.dev.spw.good = true →
    exec (.packCollapse false) s = .next { s with dev := { s.dev with
      pkb := { s.dev.pkb with cutoff := true }, est := { s.dev.est with eCons := 0 } } })
  ∧ (∀ (r : Bool) (s : State),
    ∃ t, exec (.packCollapse r) s = .next t ∧ t.pending = s.pending
      ∧ (r = false → t.dev.pkb.cutoff = true) ∧ (r = true → t.dev.pins.packPresN = true ∧ t.dev.pkb.switchClosed = false))
  ∧ (∀ (r : Bool) (s : State), s.dev.chp.mode.admits = true →
    ∃ t, exec (.packCollapse r) s = .next t ∧ t.pending = s.pending ∧ t.dev.chp.mode = .writeThrough
      ∧ t.dev.adm.budget = 0)
  ∧ (∀ (g : Nat) (s : State), nextGranule s.dev = some g → reloadRuns s.dev = true →
    ∃ t, exec (.granuleReloaded g) s = .next t ∧ t.pending = s.pending
      ∧ t.dev.int.pendingGranules = s.dev.int.pendingGranules.filter (· ≠ g)
      ∧ t.dev.exts = s.dev.exts ∧ t.dev.flash = s.dev.flash ∧ t.dev.chp = s.dev.chp
      ∧ (∀ h ∈ t.dev.ept.tlpHeld, h.caddr / 16777216 ≠ g)
      ∧ (s.Inv → (∀ h ∈ s.dev.ept.tlpHeld, h.caddr / 16777216 ≠ g) →
          ∀ a, a / 16777216 ≠ g → memRead t.dram a = memRead s.dram a))
  ∧ (∀ (g : Nat) (s : State), (nextGranule s.dev ≠ some g ∨ reloadRuns s.dev = false) →
    exec (.granuleReloaded g) s = .next s)
  ∧ (∀ s : State, s.dev.chp.mode = .intermission ∨ s.dev.chp.mode = .service →
    reloadRuns s.dev = false)

/-- The milestones M5 to M8 of a curtain (Table 6.2, R111 to R113): each is reached from the one before it,
none stops the curtain. M6 takes the bytes that M1 found unstaged, M7 counts the UNACK entries dropped, M8
counts what is still unstaged as lost, counts the curtain in the image and stores each block's wear credit.
Row 9 (R114): after M8 the device is SEALED, or passes on to BOOT where the seal's AFTER or a finished
qualification calls for it, or to DARK with main supply away and the pack gone or at its cutoff (row 10);
with neither main supply nor RETAIN the cache DRAM is lost. The projection of R118 on the pack from M6 to
M8, on the estimator's conservative energy: SHORT is set below the need of the longest block, its fixed
times and the reserve, and, while data streams, the save is stopped at the floor. Off the pack, or outside
that part of a curtain, nothing happens. -/
def Obligations.Curtain : Prop :=
  (∀ s : State, s.dev.chp.mode = .curtain → s.dev.cur.milestone < 5 →
    ∃ t, exec .flashDramPrepared s = .next t ∧ s.devOnly t ∧ t.dev.chp.mode = .curtain ∧ t.dev.cur.milestone = 5)
  ∧ (∀ s : State, s.dev.chp.mode = .curtain → s.dev.cur.milestone = 5 → s.dev.cur.listed6 = false →
    ∃ t, exec .curtainListsWritten s = .next t ∧ s.devOnly t ∧ t.dev.chp.mode = .curtain
      ∧ t.dev.cur.milestone = 6 ∧ t.dev.cur.bytes = sumNat (s.dev.cur.listedB.map Prod.snd))
  ∧ (∀ s : State, streams s.dev = true →
    ∃ t, exec .dataStreamed s = .next t ∧ s.devOnly t ∧ t.dev.chp.mode = .curtain ∧ t.dev.cur.milestone = 7
      ∧ t.dev.cur.unackDropped
          = (t.dev.int.ready.filter (fun e => !(t.dev.flash.records.any (carries e)))).length)
  ∧ (∀ s : State, s.dev.chp.mode = .curtain → s.dev.cur.milestone = 7 →
    ∃ t, exec .promptBooksSealed s = .next t ∧ s.devOnly t ∧ t.dev.chp.mode = .curtain
      ∧ t.dev.cur.milestone = 8 ∧ t.dev.flash.curtains = s.dev.flash.curtains + 1
      ∧ t.dev.cur.energyMj = s.dev.cur.energyAtFail - s.dev.est.eCons
      ∧ t.dev.cur.lost = s.dev.cur.lost + unstagedAll s.dev
      ∧ (∀ p, (getPage s.dev p).unstaged = true →
          (getPage t.dev p).unstaged = false ∧ (getPage t.dev p).kind = .lost)
      ∧ (∀ b, b < s.dev.board.blocks → (getBlk t.dev b).storedCredit = (getBlk t.dev b).credit))
  ∧ (∀ s : State, s.dev.chp.mode = .curtain → s.dev.cur.milestone = 8 →
    ∃ t, exec .dramPlaced s = .next t ∧ t.pending = s.pending
      ∧ (s.dev.spw.good = false → (packUsable s.dev = false ∨ s.dev.pkb.cutoff = true) →
          t.dev.chp.mode = .dark ∧ t.dram = [])
      ∧ ((s.dev.spw.good = true ∨ (packUsable s.dev = true ∧ s.dev.pkb.cutoff = false)) →
          (t.dev.chp.mode = .sealed ∨ t.dev.chp.mode = .boot)
          ∧ (s.dev.chp.halt = true → t.dev.chp.mode = .sealed)
          ∧ (s.dev.spw.good = true ∨ s.dev.spw.retain = true →
              s.dev.chp.fatalIslands.contains 83 = false → t.dram = s.dram))
      ∧ (s.dev.spw.good = false → s.dev.spw.retain = false → t.dram = []))
  ∧ (∀ (used : Nat) (s : State), streams s.dev = true ∨ (s.dev.chp.mode = .curtain ∧ s.dev.cur.milestone = 7) →
      s.dev.spw.onPack = true →
    exec (.curtainProjection used) s = .next { s with dev := { s.dev with
      cur := { s.dev.cur with
        short := s.dev.cur.short || decide (s.dev.est.eCons * 1000 <
          ((saveBlocks s.dev).map (fun b => if rateB s.dev b = 0 then 0
            else pCurtain s.dev * leftB s.dev b / rateB s.dev b)).foldl max 0
            + pCurtain s.dev * fixedLeftMs used s.dev + sealReserve s.dev * 1000)
        stopped := s.dev.cur.stopped || (streams s.dev
          && decide (s.dev.est.eCons * 1000 ≤ sealReserve s.dev * 1000 + pCurtain s.dev * 135)) } } })
  ∧ (∀ (used : Nat) (s : State), s.dev.spw.onPack = false ∨ s.dev.chp.mode ≠ .curtain →
    exec (.curtainProjection used) s = .next s)

/-- HALT (R42): while it is set neither a finished qualification nor the end of a curtain leaves SEALED for
BOOT; a loss of main supply with it set, and the supply's return, clear it. -/
def Obligations.HaltHolds : Prop :=
  (∀ s : State, s.dev.chp.mode = .sealed → s.dev.chp.halt = true →
    ∃ t, exec .resumeQualExpiry s = .next t ∧ s.devOnly t ∧ t.dev.chp = s.dev.chp)
  ∧ (∀ s : State, s.dev.chp.mode = .curtain → s.dev.cur.milestone = 8 → s.dev.chp.halt = true →
      (s.dev.spw.good = true ∨ (packUsable s.dev = true ∧ s.dev.pkb.cutoff = false)) →
    ∃ t, exec .dramPlaced s = .next t ∧ t.pending = s.pending ∧ t.dev.chp.mode = .sealed)
  ∧ (∀ (lo hi : Nat) (s : State), s.dev.chp.mode ≠ .dark → s.dev.chp.halt = true → s.dev.spw.fail = false →
      lo < s.dev.spw.failMv → s.dev.spw.goodMv ≤ hi → hi ≤ 16000 →
    ∃ t u, exec (.failAssert lo) s = .next t ∧ exec (.failRelease hi) t = .next u
      ∧ (t.dev.chp.mode ≠ .dark → u.dev.chp.halt = false))

/-- SPW_THRESH (R104): thresholds within their bounds are taken, in steps of 20 mV, and nothing else
changes; any others are ignored, and a fault is recorded or, as a repeat within a second, counted. -/
def Obligations.SupplyThresholds : Prop :=
  (∀ (w : W32) (s : State), 9800 ≤ 20 * field w 0 10 → 20 * field w 0 10 ≤ 11000 →
      20 * field w 0 10 + 300 ≤ 20 * field w 10 10 → 20 * field w 10 10 + 200 ≤ 20 * field w 20 10 →
      20 * field w 20 10 ≤ 12400 →
    ∃ t, exec (.spwThresh w) s = .next t
      ∧ t = { s with dev := { s.dev with spw := { s.dev.spw with thresh := t.dev.spw.thresh } } }
      ∧ t.dev.spw.failMv = 20 * field w 0 10 ∧ t.dev.spw.warnMv = 20 * field w 10 10
      ∧ t.dev.spw.goodMv = 20 * field w 20 10)
  ∧ (∀ (w : W32) (s : State),
      (20 * field w 0 10 < 9800 ∨ 11000 < 20 * field w 0 10 ∨ 20 * field w 10 10 < 20 * field w 0 10 + 300
        ∨ 20 * field w 20 10 < 20 * field w 10 10 + 200 ∨ 12400 < 20 * field w 20 10) →
    ∃ t, exec (.spwThresh w) s = .next t ∧ s.devOnly t ∧ Dev.Reports s.dev t.dev
      ∧ ((∃ r, t.dev.err.records.head? = some r ∧ r.code = 0x0402 ∧ r.seq = s.dev.err.seqNext)
          ∨ t.dev.err.suppressed = satAdd 32 s.dev.err.suppressed 1))

/-- ADM_E_FIXED and ADM_SEAL_RESERVE (R72): a write below the Table 1.8 value sets that value, and a reserve
is clamped to 5,000 to 100,000 mJ. -/
def Obligations.EnergyReserveWrites : Prop :=
  (∀ (w : RegWrite) (s : State), linkUp s.dev = true → w.size = .whole → w.reg = .admEFixed →
    ∃ t, exec (.registerWrite w) s = .next t ∧ s.devOnly t
      ∧ t.dev.adm.eFixed.toNat = max (w.value.toNat % 2 ^ 32) (dsEFixed s.dev.board.blocks))
  ∧ (∀ (w : RegWrite) (b : Nat) (s : State), linkUp s.dev = true → w.size = .whole →
      w.reg = .admSealReserve b → populated s.dev b = true →
    ∃ t, exec (.registerWrite w) s = .next t ∧ s.devOnly t
      ∧ (Tab.get 0 t.dev.adm.sealReserve b).toNat = min 100000 (max 5000 (w.value.toNat % 2 ^ 32))
      ∧ (∀ c, c ≠ b → Tab.get 0 t.dev.adm.sealReserve c = Tab.get 0 s.dev.adm.sealReserve c))

/-- Repeated faults (R334): a SETTLED record with the code and island of one written less than a second
before is only counted; any other record is written. -/
def Obligations.FaultRepeats : Prop :=
  (∀ (i : FaultInfo) (d : Dev) (r : FaultRec), i.severity = 0 → r ∈ d.err.records → r.code = i.code →
      r.island = i.island → d.tmb.ht < r.ht + 4000000000 →
    raiseFault i d = { d with err := { d.err with suppressed := satAdd 32 d.err.suppressed 1 } })
  ∧ (∀ (i : FaultInfo) (d : Dev),
      (i.severity ≠ 0 ∨ ∀ r ∈ d.err.records,
        r.code = i.code → r.island = i.island → r.ht + 4000000000 ≤ d.tmb.ht) →
    (∃ r, (raiseFault i d).err.records = (r :: d.err.records).take 256 ∧ r.code = i.code
        ∧ r.island = i.island ∧ r.severity = i.severity ∧ r.ht = d.tmb.ht ∧ r.seq = d.err.seqNext)
      ∧ (raiseFault i d).err.suppressed = d.err.suppressed ∧ Dev.Reports d (raiseFault i d))

/-- TMB_SET_HT (R50, R51): a follower ignores it; a value at or past the wrap bound, or backward once the
epoch has a commit, is refused and only reported, the present HT itself among them by the model's choice
(log entry 128); otherwise HT takes the value, by a counted step where it lies ahead. The epoch label, the
wrap warning and the PPS output (R50, R51, R56): the label is taken until the epoch's first commit and then
ignored, and with no label left a PTM reference is lost, HT running on at the frequency it has (log entry
127); the warning stands from the bound on; the output rises in the cycle that holds its phase and falls 1
ms later, and is low while it is not enabled, powered and driven. -/
def Obligations.TimeSettings : Prop :=
  (∀ (w : W64) (s : State), s.dev.tmb.follower = true → exec (.tmbSetHt w) s = .next s)
  ∧ (∀ (w : W64) (s : State), s.dev.tmb.follower = false →
      (0xF000000000000000 ≤ w.toNat ∨ (s.dev.tmb.epochCommitted = true ∧ w.toNat ≤ s.dev.tmb.ht)
        ∨ (s.dev.tmb.epochCommitted = false ∧ epochNewest s.dev ≠ 0 ∧ w.toNat ≤ epochNewest s.dev)) →
    ∃ t, exec (.tmbSetHt w) s = .next t ∧ s.devOnly t ∧ Dev.Reports s.dev t.dev)
  ∧ (∀ (w : W64) (s : State), s.dev.tmb.follower = false → w.toNat < 0xF000000000000000 →
      s.dev.tmb.ht < w.toNat →
      (s.dev.tmb.epochCommitted = true ∨ epochNewest s.dev = 0 ∨ epochNewest s.dev < w.toNat) →
    ∃ t, exec (.tmbSetHt w) s = .next t ∧ s.devOnly t
      ∧ Dev.Reports { s.dev with tmb := { s.dev.tmb with
          ht := w.toNat, slot := 0, lag := 0, held := false, stepped := true, steps := satAdd 16 s.dev.tmb.steps 1 } } t.dev)
  ∧ (∀ (w : W64) (s : State), s.dev.tmb.follower = false → w.toNat < 0xF000000000000000 →
      w.toNat ≤ s.dev.tmb.ht → s.dev.tmb.epochCommitted = false →
      (epochNewest s.dev = 0 ∨ epochNewest s.dev < w.toNat) →
    exec (.tmbSetHt w) s
      = .next { s with dev := { s.dev with tmb := { s.dev.tmb with ht := w.toNat, slot := 0, lag := 0, held := false } } })
  ∧ (∀ (w : W64) (s : State), s.dev.tmb.epochCommitted = true → exec (.tmbEpoch w) s = .next s)
  ∧ (∀ (w : W64) (s : State), s.dev.tmb.epochCommitted = false →
    ∃ t, exec (.tmbEpoch w) s = .next t ∧ s.devOnly t
      ∧ Dev.Reports { s.dev with
          tmb := t.dev.tmb, freeCtr := t.dev.freeCtr
          flash := { s.dev.flash with epoch := s.dev.flash.epoch.map (fun e => (e.1, w)) } } t.dev
      ∧ (w ≠ 0 ∨ refOk s.dev = false → t.dev.tmb = { s.dev.tmb with epochNs := w })
      ∧ (w = 0 → refOk s.dev = true → s.dev.tmb.src ≠ 1 → t.dev.tmb = { s.dev.tmb with
          epochNs := w, held := true, heldUp := t.dev.tmb.heldUp, heldGap := t.dev.tmb.heldGap }))
  ∧ (∀ s : State, exec .wrapNear s = .next { s with dev := { s.dev with
        tmb := { s.dev.tmb with
          wrapNear := s.dev.tmb.wrapNear || decide (0xF000000000000000 ≤ s.dev.tmb.ht) } } })
  ∧ (∀ s : State, s.dev.tmb.ppsOutEn = true → s.dev.tmb.powered = true → s.dev.pins.vaux3 = true →
      s.dev.pins.ppsOut = false →
    exec .ppsOutEdge s = .next { s with dev := if ppsDue s.dev.tmb then { s.dev with
        pins := { s.dev.pins with ppsOut := true }, tmb := { s.dev.tmb with ppsRise := s.dev.tmb.ht } }
      else s.dev })
  ∧ (∀ s : State, s.dev.tmb.ppsOutEn = true → s.dev.tmb.powered = true → s.dev.pins.vaux3 = true →
      s.dev.pins.ppsOut = true →
    exec .ppsOutEdge s = .next { s with dev := { s.dev with
        pins := { s.dev.pins with ppsOut := decide (s.dev.tmb.ht < s.dev.tmb.ppsRise + 4000000) } } })
  ∧ (∀ s : State, s.dev.tmb.ppsOutEn = false ∨ s.dev.tmb.powered = false ∨ s.dev.pins.vaux3 = false →
    exec .ppsOutEdge s = .next { s with dev := { s.dev with pins := { s.dev.pins with ppsOut := false } } })
  ∧ (∀ t : Tmb, t.slot ≤ t.ht →
      (ppsDue t = true ↔ ∃ k < t.span, (t.ht - t.slot + k) % 4000000000 = t.ppsPhase.toNat % 4000000000))

/-- The references (R55, R56, R243): an edge of the selected polarity sets PPS_OK and, where the source is
PPS, or PPS with PTM and PTM is there too, measures the offset to the nearest second's phase; a lag within
the step threshold is slewed and one beyond it makes HT the target at once. Three seconds without an edge
lose a reference that it was, and HT runs on at the frequency it has, a free value (log entry 127). A PTM
request is sent and its answer recorded, and steers as the source says. Holdover on a follower (R58): its
missed cue periods put it in HOLDOVER with no good cue counted, and HT stands and runs on at the frequency
it has, a free value (log entry 127). -/
def Obligations.TimeReferences : Prop :=
  (∀ s : State, s.dev.tmb.powered = true → s.dev.pins.vaux3 = true →
    ∃ t, exec (.ppsEdge s.dev.tmb.ppsFalling) s = .next t ∧ s.devOnly t ∧ t.dev.tmb.ppsOk = true
      ∧ Dev.Reports { s.dev with tmb := t.dev.tmb } t.dev
      ∧ (ppsSteers s.dev.tmb = true →
          t.dev.tmb.refOffset
            = (s.dev.tmb.ht : Int) - nearestPhase s.dev.tmb.ht s.dev.tmb.ppsPhase.toNat)
      ∧ (ppsSteers s.dev.tmb = true → s.dev.tmb.follower = false →
          (s.dev.tmb.stepThresh.toNat : Int)
            < nearestPhase s.dev.tmb.ht s.dev.tmb.ppsPhase.toNat - s.dev.tmb.ht →
          (t.dev.tmb.ht : Int) = nearestPhase s.dev.tmb.ht s.dev.tmb.ppsPhase.toNat)
      ∧ (ppsSteers s.dev.tmb = true → s.dev.tmb.follower = false →
          nearestPhase s.dev.tmb.ht s.dev.tmb.ppsPhase.toNat - s.dev.tmb.ht
            ≤ (s.dev.tmb.stepThresh.toNat : Int) →
          t.dev.tmb.ht = s.dev.tmb.ht ∧ t.dev.tmb.held = false
            ∧ t.dev.tmb.lag = (s.dev.tmb.ht : Int) - nearestPhase s.dev.tmb.ht s.dev.tmb.ppsPhase.toNat)
      ∧ (ppsSteers s.dev.tmb = false ∨ s.dev.tmb.follower = true →
          t.dev.tmb.ht = s.dev.tmb.ht ∧ t.dev.tmb.lag = s.dev.tmb.lag))
  ∧ (∀ (f : Bool) (s : State), f ≠ s.dev.tmb.ppsFalling ∨ s.dev.tmb.powered = false ∨ s.dev.pins.vaux3 = false →
    exec (.ppsEdge f) s = .next s)
  ∧ (∀ s : State,
    ∃ t, exec .referenceLoss s = .next t ∧ s.devOnly t ∧ t.dev.tmb.ppsOk = false
      ∧ t.dev.tmb.ht = s.dev.tmb.ht ∧ t.dev.tmb.lag = s.dev.tmb.lag
      ∧ (refOk s.dev = true → s.dev.tmb.src ≠ 2 → t.dev.tmb.held = true)
      ∧ (refOk s.dev = false →
          Dev.Reports { s.dev with tmb := { s.dev.tmb with ppsOk := false } } t.dev)
      ∧ Dev.Reports { s.dev with tmb := t.dev.tmb, freeCtr := t.dev.freeCtr } t.dev)
  ∧ (∀ (r : Option Nat) (s : State), s.dev.tmb.powered = true → linkUp s.dev = true →
      s.dev.ept.ptmEn = true → s.dev.tmb.src = 2 ∨ s.dev.tmb.src = 3 →
    ∃ t, exec (.ptmRequest r) s = .next t ∧ s.devOnly t
      ∧ Dev.Reports { s.dev with tmb := t.dev.tmb, freeCtr := t.dev.freeCtr } t.dev
      ∧ (r = none → t.dev.tmb.ptmFails = s.dev.tmb.ptmFails + 1
          ∧ t.dev.tmb.ptmOk = false
          ∧ t.dev.tmb.ht = s.dev.tmb.ht)
      ∧ (r ≠ none → t.dev.tmb.ptmFails = 0 ∧ t.dev.tmb.ptmOk = true)
      ∧ (∀ ns : Nat, r = some ns → s.dev.tmb.src = 2 → s.dev.tmb.epochNs ≠ 0 →
          t.dev.tmb.refOffset
            = (s.dev.tmb.ht : Int) - ((ns : Int) - s.dev.tmb.epochNs.toNat) * 4)
      ∧ (s.dev.tmb.src = 3 → s.dev.tmb.ppsOk = false → t.dev.tmb.ht = s.dev.tmb.ht))
  ∧ (∀ (r : Option Nat) (s : State), (s.dev.tmb.powered = false ∨ linkUp s.dev = false
        ∨ s.dev.ept.ptmEn = false ∨ (s.dev.tmb.src ≠ 2 ∧ s.dev.tmb.src ≠ 3)) →
    exec (.ptmRequest r) s = .next s)
  ∧ (∀ s : State, s.dev.tmb.follower = true → s.dev.tmb.powered = true → s.dev.tmb.state ≠ 3 →
    ∃ t, exec .holdover s = .next t ∧ s.devOnly t ∧ t.dev.tmb.state = 3 ∧ t.dev.tmb.goodCues = 0
      ∧ t.dev.tmb.held = true
      ∧ Dev.Reports { s.dev with
          freeCtr := s.dev.freeCtr + 1
          tmb := { s.dev.tmb with
            state := 3, goodCues := 0, held := true
            heldUp := t.dev.tmb.heldUp, heldGap := t.dev.tmb.heldGap } } t.dev)
  ∧ (∀ s : State, s.dev.tmb.follower = false ∨ s.dev.tmb.powered = false ∨ s.dev.tmb.state = 3 →
    exec .holdover s = .next s)

/-- The budget of a recomputation (R69): each block that takes part has the smaller of its energy share and
its space, the budget is their sum, and a block that is fenced or held out adds nothing. A waiting hold is
tested against its block's budget and its function's share (R78): in WRITE_THROUGH by space alone; elsewhere
it commits exactly when no shortfall in energy stands, the block's budget takes it, and either the share
does or the function may borrow and reclaim is not active against it. A recomputation in a powered mode
(R75) takes the present energy, and leaves the device in a mode that admits only with a pack behind a closed
switch (R34); it moves only between the modes that R34 settles. In the modes without power to the ordering
point it does nothing. -/
def Obligations.BudgetAndAdmission : Prop :=
  (∀ d : Dev,
    (recompute d).adm.budget = sumNat ((sumBlocks d).map (fun b => min (shareB d b) (spaceB d b)))
    ∧ (recompute d).adm.eAvail = eAvailNow d
    ∧ (∀ b ∈ sumBlocks d, blkBudget (recompute d) b = min (shareB d b) (spaceB d b))
    ∧ (∀ b, blkOut d b = true → blkBudget (recompute d) b = 0)
    ∧ (d.pins.packPresN = true → (recompute d).adm.budget = 0))
  ∧ (∀ (d : Dev) (x : Desc),
    (d.chp.mode = .writeThrough →
      (admitTest d x = .commit
        ↔ unstagedB d x.block + stagingB d x.block + x.bytesLen ≤ blkSpace d x.block))
    ∧ (d.chp.mode ≠ .writeThrough →
      (admitTest d x = .commit
        ↔ d.adm.shortE = false ∧ unstagedB d x.block + x.bytesLen ≤ blkBudget d x.block
          ∧ (unstagedF d x.fn + x.bytesLen ≤ share d x.fn
              ∨ (d.adm.borrow x.fn = true ∧ d.adm.reclaim.contains x.fn = false)))))
  ∧ (∀ (c : Bool) (s : State), orderingPowered s.dev = true → s.dev.est.learning = false →
      s.dev.svc.entering = 0 → s.dev.ept.hostLossState ≠ 2 →
    ∃ t, exec (.admissionRecompute c) s = .next t ∧ s.devOnly t
      ∧ t.dev.adm.eAvail = eAvailNow s.dev
      ∧ (t.dev.chp.mode.admits = true → t.dev.pins.packPresN = false ∧ t.dev.pkb.switchClosed = true)
      ∧ (s.dev.chp.mode.admits = false → s.dev.chp.mode ≠ .writeThrough →
          t.dev.chp.mode = s.dev.chp.mode))
  ∧ (∀ (c : Bool) (s : State), orderingPowered s.dev = false → s.dev.svc.entering = 0 →
      s.dev.ept.hostLossState ≠ 2 →
    exec (.admissionRecompute c) s = .next s)

/-- Wear credit (R91): a millisecond's fill repays debt first and then fills the bucket up to its limit, so
that credit less debt grows by 100,000 bytes until the limit; the stored state is the present one. The log
window's shift (R94): due after 64 stripes, it moves the window's base by one stripe of 200 unless live data
stands there, the write pointer does, or the position that would enter is not erased; then it is deferred,
and counted once. -/
def Obligations.WearAndWindow : Prop :=
  (∀ s : State,
    ∃ t, exec .wearCreditFill s = .next t ∧ s.devOnly t
      ∧ (∀ b, b < s.dev.board.blocks →
          (getBlk t.dev b).debt = (getBlk s.dev b).debt - 100000
          ∧ (getBlk t.dev b).credit
              = min 256000000000 ((getBlk s.dev b).credit + (100000 - (getBlk s.dev b).debt)))
      ∧ (∀ b, s.dev.board.blocks ≤ b → getBlk t.dev b = getBlk s.dev b)
      ∧ Dev.Reports { s.dev with blk := t.dev.blk } t.dev)
  ∧ (∀ s : State, stagingRuns s.dev = true →
    ∃ t, exec .wearStateStore s = .next t ∧ s.devOnly t
      ∧ (∀ b, b < s.dev.board.blocks → (getBlk t.dev b)
          = { getBlk s.dev b with
              storedCredit := (getBlk s.dev b).credit, storedDebt := (getBlk s.dev b).debt })
      ∧ t.dev = { s.dev with blk := t.dev.blk })
  ∧ (∀ (b : Nat) (s : State), 64 ≤ (getBlk s.dev b).sinceShift ∨ (getBlk s.dev b).shiftDeferred = true →
      b < s.dev.board.blocks →
      s.dev.chp.mode ≠ .curtain → s.dev.chp.mode ≠ .intermission → s.dev.chp.mode ≠ .encore →
      positionLive s.dev b (getBlk s.dev b).wb = false → (getBlk s.dev b).wp ≠ (getBlk s.dev b).wb →
      stripeErased s.dev b (((getBlk s.dev b).wb + 192) % 200) = true →
    ∃ t, exec (.windowShift b) s = .next t ∧ s.devOnly t
      ∧ (getBlk t.dev b).wb = ((getBlk s.dev b).wb + 1) % 200
      ∧ (getBlk t.dev b).shifts = (getBlk s.dev b).shifts + 1
      ∧ (getBlk t.dev b).shiftDeferred = false
      ∧ (getBlk t.dev b).sinceShift = (getBlk s.dev b).sinceShift
          - (if (getBlk s.dev b).shiftDeferred then 0 else 64)
      ∧ (∀ c, c ≠ b → getBlk t.dev c = getBlk s.dev c)
      ∧ Dev.Reports { s.dev with blk := t.dev.blk } t.dev)
  ∧ (∀ (b : Nat) (s : State), 64 ≤ (getBlk s.dev b).sinceShift ∨ (getBlk s.dev b).shiftDeferred = true →
      b < s.dev.board.blocks →
      s.dev.chp.mode ≠ .curtain → s.dev.chp.mode ≠ .intermission → s.dev.chp.mode ≠ .encore →
      (positionLive s.dev b (getBlk s.dev b).wb = true ∨ (getBlk s.dev b).wp = (getBlk s.dev b).wb
        ∨ stripeErased s.dev b (((getBlk s.dev b).wb + 192) % 200) = false) →
    ∃ t, exec (.windowShift b) s = .next t ∧ s.devOnly t
      ∧ (getBlk t.dev b).wb = (getBlk s.dev b).wb ∧ (getBlk t.dev b).shiftDeferred = true
      ∧ (getBlk t.dev b).shiftDeferrals = satAdd 16 (getBlk s.dev b).shiftDeferrals
          (if (getBlk s.dev b).shiftDeferred then 0 else 1)
      ∧ Dev.Reports { s.dev with blk := t.dev.blk } t.dev)
  ∧ (∀ (b : Nat) (s : State), ((getBlk s.dev b).sinceShift < 64 ∧ (getBlk s.dev b).shiftDeferred = false
        ∨ s.dev.board.blocks ≤ b ∨ s.dev.chp.mode = .curtain ∨ s.dev.chp.mode = .intermission
        ∨ s.dev.chp.mode = .encore) →
    exec (.windowShift b) s = .next s)

/-- A staging record starts (R87, R88): outside WRITE_THROUGH a block that can stage, with an extent due
that none carries yet under a key that enciphers, gets one more record, not yet written, of kind STAGE, of
the oldest such extents that it can carry; DRAM and every page stand. A block that cannot stage changes
nothing. A record counted written (R20, R77): its head is written, and where no hold can commit meanwhile no
page that it stages stays unstaged. The copy that cleaning made of a written record becomes its place; a
second report of a record with no copy changes nothing, and neither does one of a record whose cell or
target has gone. A program fails (R20, R314): the unit takes no further program and the failure is counted
on its target; a head in a journal alone retires none; a staging record not yet written goes to a place that
no program has failed in, and stays unwritten, or is given up with its pages still unstaged. A record with
no program under way changes nothing. -/
def Obligations.StagingRecords : Prop :=
  (∀ (b : Nat) (s : State) (x : Extent) (rest : List Extent) (id : Nat) (e : Dev),
      s.dev.chp.mode.admits = true ∨ s.dev.chp.mode = .service → canStage s.dev b = true →
      (stagingOrder (updateShortfall s.dev) b).filter (fun y => !inFlight (updateShortfall s.dev) y
        && (encryptSlot (updateShortfall s.dev) y.fn).isSome) = x :: rest →
      startRecord s.dram b .stage x.fn
        ((sortBy Extent.ht (packPrefix (updateShortfall s.dev) x.fn (x.hidx, x.epochId) (4 * mib)
          (x :: rest))).flatMap
          (fun y => runsOf y (ownUnstaged (updateShortfall s.dev) y) false 0)) false 0
        (x.hidx, x.epochId) (updateShortfall s.dev) = some (id, e) →
    ∃ t, exec (.stagingRecordStart b) s = .next t ∧ s.devOnly t ∧ t.dev = e
      ∧ t.dev.flash.records.length = s.dev.flash.records.length + 1 ∧ t.dev.pages = s.dev.pages
      ∧ (∀ r, t.dev.flash.records.getLast? = some r → r.written = false ∧ r.kind = .stage
          ∧ r.fn = x.fn ∧ r.home = b ∧ r.id = id))
  ∧ (∀ (b : Nat) (s : State), s.dev.chp.mode ≠ .curtain → canStage s.dev b = false →
    exec (.stagingRecordStart b) s = .next s)
  ∧ (∀ (id : Nat) (s : State) (r : Rec), findRec s.dev id = some r → r.written = false →
      (placeWorks s.dev r.cell r.target = true ∨ r.bytes = 0) → s.dev.svc.entering = 0 →
    ∃ t, exec (.recordCountedWritten id) s = .next t ∧ s.devOnly t
      ∧ t.dev.chp.mode = s.dev.chp.mode
      ∧ (∃ q, findRec t.dev id = some q ∧ q.written = true ∧ q.writeHt = s.dev.tmb.ht)
      ∧ (s.dev.chp.mode = .curtain ∨ s.dev.chp.mode = .service → r.handle = 0 →
          ∀ g ∈ r.runs, ∀ p ∈ runPageList g, stagesPage s.dev g p = true →
            (getPage t.dev p).unstaged = false))
  ∧ (∀ (id : Nat) (s : State) (r : Rec) (p : Nat × Nat × Nat × Nat), findRec s.dev id = some r →
      r.written = true → r.moving = some p → p.2.2.1 < 200 → placeWorks s.dev p.1 p.2.1 = true →
      s.dev.svc.entering = 0 →
    ∃ t, exec (.recordCountedWritten id) s = .next t ∧ s.devOnly t
      ∧ ∃ q, findRec t.dev id = some q ∧ (q.cell, q.target, q.position, q.segment) = p ∧ q.moving = none)
  ∧ (∀ (id : Nat) (s : State) (r : Rec), findRec s.dev id = some r → r.written = true → r.moving = none →
      s.dev.svc.entering = 0 →
    exec (.recordCountedWritten id) s = .next s)
  ∧ (∀ (id : Nat) (s : State) (r : Rec), findRec s.dev id = some r → r.written = false → r.bytes ≠ 0 →
      placeWorks s.dev r.cell r.target = false → s.dev.svc.entering = 0 →
    exec (.recordCountedWritten id) s = .next s)
  ∧ (∀ (id : Nat) (s : State), findRec s.dev id = none → s.dev.svc.entering = 0 →
    exec (.recordCountedWritten id) s = .next s)
  ∧ (∀ (id c k p : Nat) (s : State) (r : Rec), findRec s.dev id = some r → failingUnit r = some (c, k, p) →
      r.bytes ≠ 0 →
    ∃ t, exec (.programFail id) s = .next t ∧ s.devOnly t
      ∧ t.dev.flash.retired = (c, k, p) :: s.dev.flash.retired
      ∧ Tab.get 0 (getCell t.dev c).fails k = satAdd 16 (Tab.get 0 (getCell s.dev c).fails k) 1
      ∧ (s.dev.chp.mode = .curtain → t.dev.cur.faultFlag = true)
      ∧ (r.kind = .stage → r.written = false → r.moving = none → r.position < 200 →
          ∀ q, findRec t.dev id = some q → q.kind = .stage →
            q.written = false ∧ (q.cell, q.target, q.position) ∉ t.dev.flash.retired))
  ∧ (∀ (id c k p : Nat) (s : State) (r : Rec), findRec s.dev id = some r → failingUnit r = some (c, k, p) →
      r.bytes = 0 →
    ∃ t, exec (.programFail id) s = .next t ∧ s.devOnly t
      ∧ t.dev.flash.retired = s.dev.flash.retired
      ∧ Tab.get 0 (getCell t.dev c).fails k = satAdd 16 (Tab.get 0 (getCell s.dev c).fails k) 1)
  ∧ (∀ (id : Nat) (s : State) (r : Rec), findRec s.dev id = some r → failingUnit r = none →
    exec (.programFail id) s = .next s)

/-- Compaction and its verification (R98, R99): with TLC stripes enough the first queued record that is live
and has no copy goes to TLC where it has room, its copy not yet verified; a group's verification makes the
copy the one in force. Log cleaning of a stripe with nothing left on it (R96, R323): it is erasing, with an
intent journalled for every unit of it on a live target of a working cell that is not retired. A scrub read
(R100, R101, R146) of the copy in force: content that reads back under the threshold is only counted;
content that does not read, or does not verify where its key is loaded, is refreshed, counted and reported,
its copy marked. Nothing is read for a block out of admission (R24). -/
def Obligations.LogKeeping : Prop :=
  (∀ (b id : Nat) (rest : List Nat) (s : State) (r : Rec) (q : Nat × Nat × Nat × Nat) (e : Dev),
      cleaningRuns s.dev = true → canStage s.dev b = true → 4 ≤ tlcErasedCount s.dev b →
      (getBlk s.dev b).compactQ = id :: rest → findRec s.dev id = some r →
      recLive s.dev id = true → r.tlc = none → r.moving = none → tlcRoom b r s.dev = some (q, e) →
    ∃ t, exec (.compactionCopy b) s = .next t ∧ s.devOnly t
      ∧ (getBlk t.dev b).compactQ = rest
      ∧ (∃ y, findRec t.dev id = some y ∧ y.tlc = some (q.2.2.1 - 200) ∧ y.tlcVerified = false
          ∧ (y.tlcCell, y.tlcTarget, y.tlcSegment) = (q.1, q.2.1, q.2.2.2)
          ∧ (y.cell, y.target, y.position) = (r.cell, r.target, r.position) ∧ y.slc = r.slc)
      ∧ Dev.Reports { s.dev with blk := t.dev.blk, flash := t.dev.flash } t.dev)
  ∧ (∀ (id : Nat) (s : State) (r : Rec), findRec s.dev id = some r → r.moving = none → r.tlc.isSome = true →
      r.tlcVerified = false → placeWorks s.dev r.tlcCell r.tlcTarget = true →
    ∃ t, exec (.tlcGroupVerified id) s = .next t ∧ s.devOnly t
      ∧ findRec t.dev id = some { r with tlcVerified := true }
      ∧ Dev.Reports { s.dev with flash := t.dev.flash } t.dev)
  ∧ (∀ (b p : Nat) (s : State), cleaningRuns s.dev = true → canStage s.dev b = true → s.dev.spw.warn = false →
      waitingIntents s.dev b = [] → foreignUnits s.dev b = [] → poolDirty (getBlk s.dev b) = none →
      oldestStripe (getBlk s.dev b) = some p → positionLive s.dev b p = false → bodiesAt s.dev b p = [] →
    ∃ t, exec (.logCleaning b) s = .next t ∧ s.devOnly t
      ∧ Tab.get .erased (getBlk t.dev b).stripes p = .erasing
      ∧ (∀ r ∈ s.dev.flash.records, r ∈ t.dev.flash.records)
      ∧ (∀ c k, c ∈ workingCells s.dev b → k < 8 → placeWorks s.dev c k = true →
          s.dev.flash.retired.contains (c, k, p) = false → (c, k, p) ∈ t.dev.flash.intents))
  ∧ (∀ (b : Nat) (s : State), cleaningRuns s.dev = false ∨ canStage s.dev b = false →
    exec (.logCleaning b) s = .next s)
  ∧ (∀ (id load : Nat) (s : State) (r : Rec), findRec s.dev id = some r → cleaningRuns s.dev = true →
      recLive s.dev id = true → blkOut s.dev r.block = false → blkOut s.dev r.home = false →
      load ≤ s.dev.scrubThresh →
    ∃ t, exec (.scrubRead id load true true) s = .next t ∧ s.devOnly t ∧ Dev.Reports s.dev t.dev)
  ∧ (∀ (id load : Nat) (rd au : Bool) (s : State) (r : Rec), findRec s.dev id = some r →
      cleaningRuns s.dev = true → recLive s.dev id = true → blkOut s.dev r.block = false →
      blkOut s.dev r.home = false → (rd = false ∨ (au = false ∧ slotKeyPending s.dev r.slot = false)) →
    ∃ t, exec (.scrubRead id load rd au) s = .next t ∧ s.devOnly t
      ∧ (getBlk t.dev r.block).scrubRefresh = satAdd 16 (getBlk s.dev r.block).scrubRefresh 1
      ∧ ∃ q, findRec t.dev id = some q
          ∧ (r.inTlc = false → q.readable = rd ∧ q.authentic = (au || slotKeyPending s.dev r.slot))
          ∧ (r.inTlc = true → q.tlcReadable = rd ∧ q.tlcAuthentic = (au || slotKeyPending s.dev r.slot)))
  ∧ (∀ (id load : Nat) (rd au : Bool) (s : State) (r : Rec), findRec s.dev id = some r →
      (blkOut s.dev r.block = true ∨ blkOut s.dev r.home = true ∨ cleaningRuns s.dev = false
        ∨ recLive s.dev id = false) →
    exec (.scrubRead id load rd au) s = .next s)

/-- The end of an erase (R323, R324): one that is not suspended is gone from its target, its intent from the
journal and what a port had put there from the unit. A suspended one, or none, changes nothing, nor does one
on a block that is fenced and powered down; an erase that a port had queued starts once nothing holds it
(R321). Suspension (R19, R324): with a read of its target waiting, an erase that has run 500 µs since its
start or last resume, stands below five suspensions and below 3 ms of progress is suspended; a suspended one
that no curtain froze resumes outside CURTAIN with no read waiting, after 2 ms or after 64 reads; otherwise
neither changes anything. -/
def Obligations.Erases : Prop :=
  (∀ (c k : Nat) (s : State) (e : Nat × Erase), portPresent s.dev c = true →
      (getCell s.dev c).erases.find? (fun e => e.1 = k) = some e → e.2.suspended = false →
    ∃ t, exec (.eraseComplete c k) s = .next t ∧ s.devOnly t
      ∧ ((getCell s.dev c).port ≠ .queued →
          t.dev.flash.intents = s.dev.flash.intents.filter (fun i => i ≠ (c, k, e.2.unit)))
      ∧ (∀ x ∈ t.dev.flash.segments, ¬(x.1.1 = c ∧ x.1.2.1 = k ∧ x.1.2.2.1 = e.2.unit))
      ∧ (s.dev.spw.warn = true → (getCell t.dev c).erases = Tab.drop (getCell s.dev c).erases k)
      ∧ (e.2.port = true → (getCell t.dev c).port = .done ∧ (getCell t.dev c).result = 1))
  ∧ (∀ (c k : Nat) (s : State),
      (portPresent s.dev c = false ∨ (getCell s.dev c).erases.find? (fun e => e.1 = k) = none
        ∧ ((getCell s.dev c).port ≠ .queued ∨ (getCell s.dev c).op ≠ 0x20)) →
    exec (.eraseComplete c k) s = .next s)
  ∧ (∀ (c k : Nat) (s : State) (e : Nat × Erase),
      (getCell s.dev c).erases.find? (fun e => e.1 = k) = some e → e.2.suspended = true →
      ((getCell s.dev c).port ≠ .queued ∨ (getCell s.dev c).op ≠ 0x20) →
    exec (.eraseComplete c k) s = .next s)
  ∧ (∀ (c k : Nat) (s : State), portPresent s.dev c = true →
      (getCell s.dev c).erases.find? (fun e => e.1 = k) = none →
      (getCell s.dev c).port = .queued → (getCell s.dev c).op = 0x20 →
      portWaits s.dev c 0x20 (getCell s.dev c).addr = false →
      startResult s.dev c 0x20 (getCell s.dev c).addr = 0 →
    ∃ t, exec (.eraseComplete c k) s = .next t ∧ s.devOnly t ∧ (getCell t.dev c).port = .executing)
  ∧ (∀ (c k us : Nat) (w : Bool) (s : State) (e : Erase), eraseOf s.dev c k = some e → e.suspended = false →
      portPresent s.dev c = true → readWaits s.dev c k w = true → 500 ≤ us → e.suspends < 5 → e.progressUs + us < 3000 →
    ∃ t, exec (.eraseSuspend ⟨c, k⟩ us w) s = .next t ∧ s.devOnly t
      ∧ eraseOf t.dev c k = some { e with
          suspended := true, suspends := e.suspends + 1, suspendReads := 0, progressUs := e.progressUs + us }
      ∧ Dev.Reports { s.dev with cells := t.dev.cells } t.dev)
  ∧ (∀ (c k us : Nat) (w : Bool) (s : State) (e : Erase), eraseOf s.dev c k = some e →
      (portPresent s.dev c = false ∨ e.suspended = true ∨ readWaits s.dev c k w = false ∨ us < 500 ∨ 5 ≤ e.suspends ∨ 3000 ≤ e.progressUs + us) →
    exec (.eraseSuspend ⟨c, k⟩ us w) s = .next s)
  ∧ (∀ (c k us : Nat) (w : Bool) (s : State) (e : Erase), eraseOf s.dev c k = some e → e.suspended = true →
      portPresent s.dev c = true → e.frozen = false → s.dev.chp.mode ≠ .curtain →
      (readWaits s.dev c k w = false ∨ 2000 ≤ us ∨ 64 ≤ e.suspendReads) →
    ∃ t, exec (.eraseResume ⟨c, k⟩ ⟨us, w⟩) s = .next t ∧ s.devOnly t
      ∧ eraseOf t.dev c k = some { e with suspended := false }
      ∧ Dev.Reports { s.dev with cells := t.dev.cells } t.dev)
  ∧ (∀ (c k us : Nat) (w : Bool) (s : State) (e : Erase), eraseOf s.dev c k = some e →
      (portPresent s.dev c = false ∨ e.suspended = false ∨ e.frozen = true ∨ s.dev.chp.mode = .curtain
        ∨ (readWaits s.dev c k w = true ∧ us < 2000 ∧ e.suspendReads < 64)) →
    exec (.eraseResume ⟨c, k⟩ ⟨us, w⟩) s = .next s)
  ∧ (∀ (c k us : Nat) (w : Bool) (s : State), eraseOf s.dev c k = none →
    exec (.eraseSuspend ⟨c, k⟩ us w) s = .next s ∧ exec (.eraseResume ⟨c, k⟩ ⟨us, w⟩) s = .next s)

/-- What a commit makes (R1, R28, R53, R77): every page of the range is held and unstaged under the new
extent, whose HT and class are those of the commit, HT has moved past the stamp, and the epoch has a commit.
A mode change records and reports (R33): the mode, the one before it, the cause, the next sequence number
and the HT stand together, and HT does not move. A stamp of the ordering point is HT, HT is past it from
then on, and a cycle gives four of them at most (R28). The uncertainty class of a commit (Table 3.2, R53):
the class found for a bound is the first that reaches it. -/
def Obligations.StampedCommits : Prop :=
  (∀ (x : Desc) (d : Dev),
    (∀ p, p ∈ pagesOf x.entry.caddr x.entry.pages →
      getPage (commitHold x none d) p = { kind := .held, eid := d.nextEid, fn := x.fn, unstaged := true })
    ∧ (∀ p, p ∉ pagesOf x.entry.caddr x.entry.pages → getPage (commitHold x none d) p = getPage d p)
    ∧ d.tmb.ht < (commitHold x none d).tmb.ht ∧ (commitHold x none d).tmb.epochCommitted = true
    ∧ (x.entry.pages ≠ 0 → ∃ e ∈ (commitHold x none d).exts, e.eid = d.nextEid ∧ e.ht = d.tmb.ht
        ∧ e.cls = commitClass d ∧ e.seq = x.seq ∧ e.fn = x.fn ∧ e.epochId = d.tmb.epochId)
    ∧ (commitHold x none d).nextEid = d.nextEid + 1
    ∧ findDesc (commitHold x none d) x.handle = none
    ∧ (commitHold x none d).chp = d.chp)
  ∧ (∀ (m : Mode) (c : Nat) (d : Dev),
    Dev.Reports { d with
      chp := { d.chp with mode := m, prev := d.chp.mode, cause := c, seq := (d.chp.seq + 1) % 256,
                          modeHt := d.tmb.ht } } (transition m c d))
  ∧ (∀ d : Dev, (stamp d).1 = d.tmb.ht ∧ d.tmb.ht < (stamp d).2.tmb.ht ∧ (stamp d).2.tmb.slot < 4
      ∧ (stamp d).2 = { d with tmb := (stamp d).2.tmb })
  ∧ (∀ u : Nat, classFrom u 15 0 ≤ 15
    ∧ (classFrom u 15 0 < 15 → u ≤ 8 * 4 ^ classFrom u 15 0)
    ∧ (∀ k, k < classFrom u 15 0 → 8 * 4 ^ k < u))

/-- A hold becomes ready (R78 to R80), by the arrival of all its data or by a COMMIT that starts: where its
test passes in a mode that admits, it commits; where the test fails it waits under its deadline, or is
refused at once where it may not wait; a COMMIT on whose range a window write still waits stays (R257); in a
powered mode that neither admits nor stages it is refused, and so it is where no commit may be taken (R50,
R61, R195). -/
def Obligations.ReadyHolds : Prop :=
  (∀ (h : Nat) (s : State) (x : Desc), findDesc s.dev h = some x → x.isHold = true → x.entry.opcode = 1 →
      x.phase = .reading → x.needReads = [] →
      s.dev.ept.tags.any (fun e => e.2.handle = h && !e.2.quarantined) = false → x.readError = 0 →
    ∃ t, exec (.holdDataArrived h) s = .next t ∧ s.devOnly t
      ∧ (s.dev.chp.mode.admits = false → s.dev.chp.mode ≠ .writeThrough → orderingPowered s.dev = true →
          s.dev.chp.mode ≠ .curtain → findDesc t.dev h = none)
      ∧ (s.dev.chp.mode.admits = true → commitBarred s.dev = true → findDesc t.dev h = none)
      ∧ (s.dev.chp.mode.admits = true → commitBarred s.dev = false → s.dev.svc.drain = false →
          insqFull s.dev = false → bit x.entry.flags 0 = true →
          findDesc t.dev h = none ∧ (t.dev.nextEid = s.dev.nextEid → t.dev.exts = s.dev.exts)))
  ∧ (∀ (h : Nat) (s : State) (x : Desc) (d : Dev), begin h false 2 s.dev = (some x, d) →
      writesHeld d x.entry.caddr x.bytesLen = false →
    ∃ t, exec (.commit h) s = .next t ∧ s.devOnly t
      ∧ (d.chp.mode.admits = false → d.chp.mode ≠ .writeThrough → orderingPowered d = true →
          d.chp.mode ≠ .curtain → findDesc t.dev h = none)
      ∧ (d.chp.mode.admits = true → commitBarred d = false → d.svc.drain = false →
          insqFull d = false → waitingAll d = [] → admitTest d x = .commit →
          findDesc t.dev h = none ∧ s.dev.nextEid < t.dev.nextEid ∧ t.dev.tmb.epochCommitted = true
            ∧ s.dev.tmb.ht < t.dev.tmb.ht))
  ∧ (∀ (h : Nat) (s : State) (x : Desc) (d : Dev), begin h false 2 s.dev = (some x, d) →
      writesHeld d x.entry.caddr x.bytesLen = true →
    ∃ t, exec (.commit h) s = .next t ∧ s.devOnly t
      ∧ t.dev = { d with int := { d.int with pendingGranules := t.dev.int.pendingGranules } }
      ∧ (∀ g, g ∈ t.dev.int.pendingGranules ↔ g ∈ d.int.pendingGranules))
  ∧ (∀ (h : Nat) (s : State) (x : Desc), findDesc s.dev h = some x → x.phase = .waiting →
    ∃ t, exec (.holdDeadlineExpiry h) s = .next t ∧ s.devOnly t ∧ findDesc t.dev h = none)

/-- HOLD, READ, FENCE and NOP once they start (R239, R254, R259, R261): a HOLD reads its data; a READ, a
FENCE with nothing before it and a NOP end, and leave everything but reports and descriptors alone. RELEASE
without KEEP (R258), in a mode that takes it (R40): the pages of its range that hold anything read zero from
then on, and every other byte of the cache DRAM reads as before; HT has moved past the release's stamp. -/
def Obligations.CacheCommands : Prop :=
  (∀ (h : Nat) (s : State) (x : Desc) (d : Dev), begin h false 1 s.dev = (some x, d) →
      reloadPending d x.entry.caddr x.bytesLen = false →
    ∃ t, exec (.hold h) s = .next t ∧ s.devOnly t ∧ Dev.Answers s.dev t.dev
      ∧ ∃ y, findDesc t.dev h = some y ∧ y.phase = .reading)
  ∧ (∀ (h : Nat) (s : State) (x : Desc) (d : Dev), begin h false 4 s.dev = (some x, d) →
      reloadPending d x.entry.caddr x.bytesLen = false →
    ∃ t, exec (.read h) s = .next t ∧ s.devOnly t ∧ Dev.Answers s.dev t.dev ∧ findDesc t.dev h = none)
  ∧ (∀ (h : Nat) (s : State) (x : Desc) (d : Dev), begin h false 6 s.dev = (some x, d) →
      (d.descs ++ waitingDescs d).any (fun y => y.handle < x.handle && inScope x y) = false →
    ∃ t, exec (.fenceDescriptor h) s = .next t ∧ s.devOnly t ∧ Dev.Answers s.dev t.dev
      ∧ findDesc t.dev h = none)
  ∧ (∀ (h : Nat) (s : State) (x y : Desc) (d : Dev), findDesc s.dev h = some y →
      begin h (y.fn = 0) 16 s.dev = (some x, d) →
    ∃ t, exec (.nop h) s = .next t ∧ s.devOnly t ∧ Dev.Answers s.dev t.dev ∧ findDesc t.dev h = none)
  ∧ (∀ (h : Nat) (s : State) (x : Desc) (d : Dev), begin h false 3 s.dev = (some x, d) →
      modeRefuses d x = none → reloadPending d x.entry.caddr x.bytesLen = false →
      bit x.entry.flags 4 = false →
    ∃ t, exec (.release h) s = .next t ∧ t.pending = s.pending
      ∧ s.dev.tmb.ht < t.dev.tmb.ht
      ∧ ∀ a, memRead t.dram a
          = if ((pagesOf x.entry.caddr x.entry.pages).filter (releasable d)).contains (pageOf a)
            then 0 else memRead s.dram a)

/-- A host read's data (R240, R241): a successful completion on a tag that is waited for writes its bytes at
the tag's cache address and nowhere else; one that failed, came late, is discarded or comes in SERVICE
writes nothing. A read that times out (R240): counted once, its tag out of the pool until the quarantine
ends; a descriptor ends for it only once its other reads have. Window TLPs (R237): a mapped write of a
function in service puts its bytes at the translated address; a mapped read is answered with what the cache
DRAM holds there; an unmapped write is dropped and counted, an unmapped read answered unsupported; while
TLPs are cut off a write is only counted and a read does nothing. The flip (R235, R236): FLIP is busy until
its check ends; a check that finds nothing makes the shadow tables active at once and counts a version, and
one that finds an error leaves the active tables. -/
def Obligations.HostReadsAndWindows : Prop :=
  (∀ (n : Nat) (bs : List Byte) (s : State) (g : Tag),
      s.dev.ept.tags.find? (fun e => e.1 = n) = some (n, g) → g.quarantined = false → g.discard = false →
      s.dev.ept.tlpsCut = false → s.dev.chp.mode ≠ .service →
    ∃ t, exec (.hostReadCompletion n .success bs) s = .next t ∧ t.pending = s.pending
      ∧ t.dram = memWriteBytes s.dram g.caddr (bs.take g.len))
  ∧ (∀ (n : Nat) (st : CplStatus) (bs : List Byte) (s : State),
      st ≠ .success ∨ s.dev.ept.tlpsCut = true ∨ s.dev.chp.mode = .service
        ∨ s.dev.ept.tags.any (fun e => e.1 = n && !e.2.quarantined && !e.2.discard) = false →
    ∃ t, exec (.hostReadCompletion n st bs) s = .next t ∧ s.devOnly t)
  ∧ (∀ (n : Nat) (s : State) (g : Tag), s.dev.ept.tags.find? (fun e => e.1 = n) = some (n, g) →
      g.quarantined = false →
    ∃ t, exec (.completionTimeout n) s = .next t ∧ s.devOnly t
      ∧ t.dev.ept.timeouts = satAdd 32 s.dev.ept.timeouts 1
      ∧ ∃ q, t.dev.ept.tags.find? (fun e => e.1 = n) = some (n, q) ∧ q.quarantined = true)
  ∧ (∀ (n : Nat) (s : State) (g : Tag), s.dev.ept.tags.find? (fun e => e.1 = n) = some (n, g) →
      g.quarantined = true → s.dev.descs.all (fun x => x.needReads = []) = true →
    exec (.quarantineEnd n) s = .next { s with dev := { s.dev with
      ept := { s.dev.ept with tags := Tab.drop s.dev.ept.tags n } } })
  ∧ (∀ (f off a : Nat) (bs : List Byte) (s : State), s.dev.ept.tlpsCut = false → linkUp s.dev = true →
      hitsWindow s.dev f off = true → windowTarget s.dev f off false = .inr a →
      reloadPending s.dev a bs.length = false →
    ∃ t, exec (.windowWrite f off bs false) s = .next t ∧ t.pending = s.pending
      ∧ t.dram = memWriteBytes s.dram a bs
      ∧ Dev.Reports { s.dev with drc := t.dev.drc } t.dev)
  ∧ (∀ (f off c : Nat) (bs : List Byte) (p : Bool) (s : State), s.dev.ept.tlpsCut = false →
      linkUp s.dev = true → hitsWindow s.dev f off = true → windowTarget s.dev f off false = .inl c →
    ∃ t, exec (.windowWrite f off bs p) s = .next t ∧ s.devOnly t
      ∧ t.dev.ept.unmapped = satAdd 32 s.dev.ept.unmapped 1)
  ∧ (∀ (f off a n : Nat) (s : State), s.dev.ept.tlpsCut = false → linkUp s.dev = true →
      hitsWindow s.dev f off = true → windowTarget s.dev f off true = .inr a → reloadPending s.dev a n = false →
    ∃ t, exec (.windowRead f off n) s = .next t ∧ s.devOnly t ∧ Dev.Reports s.dev t.dev
      ∧ t.dev.outbox
          = .readCompletion f .success (memReadBytes s.dram a n) (epRange s.dev a n) :: s.dev.outbox)
  ∧ (∀ (f off n c : Nat) (s : State), s.dev.ept.tlpsCut = false → linkUp s.dev = true →
      hitsWindow s.dev f off = true → windowTarget s.dev f off true = .inl c →
    ∃ t, exec (.windowRead f off n) s = .next t ∧ s.devOnly t
      ∧ t.dev.outbox.head? = some (.readCompletion f .unsupported [] false))
  ∧ (∀ (f off n : Nat) (bs : List Byte) (p : Bool) (s : State), s.dev.ept.tlpsCut = true →
    exec (.windowWrite f off bs p) s = .next { s with dev := { s.dev with
        ept := { s.dev.ept with discardRun := satAdd 32 s.dev.ept.discardRun 1 } } }
      ∧ exec (.windowRead f off n) s = .next s)
  ∧ (∀ s : State, exec .flip s = .next { s with dev := { s.dev with ept := { s.dev.ept with winBusy := true } } })
  ∧ (∀ s : State, s.dev.ept.winBusy = true → flipCheck s.dev = none →
    ∃ t, exec .flipComplete s = .next t ∧ s.devOnly t ∧ t.dev.ept.winBusy = false
      ∧ t.dev.ept.winResult = 1 ∧ t.dev.ept.winVersion = (s.dev.ept.winVersion + 1) % 256
      ∧ t.dev.ept.winActive = s.dev.ept.winEntry ∧ t.dev.ept.winFnActive = s.dev.ept.winFn
      ∧ Dev.Reports { s.dev with ept := t.dev.ept } t.dev)
  ∧ (∀ (s : State) (r i : Nat), s.dev.ept.winBusy = true → flipCheck s.dev = some (r, i) →
    ∃ t, exec .flipComplete s = .next t ∧ s.devOnly t ∧ t.dev.ept.winBusy = false
      ∧ t.dev.ept.winResult = r ∧ t.dev.ept.winErr = i ∧ t.dev.ept.winVersion = s.dev.ept.winVersion
      ∧ t.dev.ept.winActive = s.dev.ept.winActive ∧ t.dev.ept.winFnActive = s.dev.ept.winFnActive)

/-- An endpoint reset (R244): counted by its cause; no descriptor is left, the link is down after PERST_N
and trains after the others; host-loss timing starts where the link was up (R246), and nothing of admission,
staging or the time base changes (R29). Without power it sets the pin alone. PERST_N's release lets the link
train, and training at a width of R229 ends in L0 with host loss over. Host loss (R246): under policy 0 it
is only recorded; under policy 1 the modes that admit go to WRITE_THROUGH; under policy 2 a settled mode
takes a planned curtain. With the link up, or on a supply that is not good, nothing is lost. Link power
(R242): an idle link with L1 enabled enters L1, or the L1 substate that the host enabled, with everything
else but reports as it was; an L0p interval at the top rate sets the lanes that the traffic calls for.
Otherwise neither does anything. -/
def Obligations.EndpointAndLink : Prop :=
  (∀ (c : ResetCause) (s : State), endpointOn s.dev = true →
    ∃ t, exec (.endpointReset c) s = .next t ∧ s.devOnly t ∧ t.dev.descs = []
      ∧ t.dev.ept.hostLossState
          = (if linkUp s.dev = true ∨ s.dev.ept.hostLossState = 0 then 1 else s.dev.ept.hostLossState)
      ∧ t.dev.ept.link = (if c = .perst then .down else .training)
      ∧ t.dev.ept.perst = (if c = .perst then satAdd 8 s.dev.ept.perst 1 else s.dev.ept.perst)
      ∧ t.dev.ept.hot = (if c = .hotReset then satAdd 8 s.dev.ept.hot 1 else s.dev.ept.hot)
      ∧ t.dev.ept.linkDown = (if c = .linkDown then satAdd 8 s.dev.ept.linkDown 1 else s.dev.ept.linkDown)
      ∧ (c = .perst → t.dev.pins.perstN = false)
      ∧ t.dev.adm = s.dev.adm ∧ t.dev.tmb = s.dev.tmb ∧ t.dev.exts = s.dev.exts ∧ t.dev.pages = s.dev.pages
      ∧ t.dev.flash = s.dev.flash ∧ t.dev.chp = s.dev.chp)
  ∧ (∀ (c : ResetCause) (s : State), endpointOn s.dev = false →
    exec (.endpointReset c) s = .next { s with dev := { s.dev with
      pins := { s.dev.pins with perstN := s.dev.pins.perstN && decide (c ≠ .perst) } } })
  ∧ (∀ s : State, endpointOn s.dev = true → s.dev.pins.vaux3 = true → s.dev.ept.link = .down →
    exec .perstNRelease s = .next { s with dev := { s.dev with
      pins := { s.dev.pins with perstN := true }, ept := { s.dev.ept with link := .training } } })
  ∧ (∀ s : State, (endpointOn s.dev = false ∨ s.dev.pins.vaux3 = false ∨ s.dev.ept.link ≠ .down) →
    exec .perstNRelease s = .next { s with dev := { s.dev with
      pins := { s.dev.pins with perstN := true } } })
  ∧ (∀ (r w : Nat) (s : State), endpointOn s.dev = true → s.dev.pins.perstN = true →
      s.dev.pins.vaux3 = true → s.dev.chp.mode ≠ .intermission → trainsAt w = true →
    ∃ t, exec (.linkTrained r w) s = .next t ∧ s.devOnly t ∧ t.dev.ept.link = .l0
      ∧ t.dev.ept.rate = clamp 3 6 r ∧ t.dev.ept.width = w ∧ t.dev.ept.hostLossState = 0
      ∧ t.dev.adm.hostLossDrain = false)
  ∧ (∀ (r w : Nat) (s : State), (endpointOn s.dev = false ∨ s.dev.pins.perstN = false
        ∨ s.dev.pins.vaux3 = false ∨ s.dev.chp.mode = .intermission ∨ trainsAt w = false) →
    exec (.linkTrained r w) s = .next s)
  ∧ (∀ s : State, linkUp s.dev = false → s.dev.spw.good = true → s.dev.ept.hostLossState = 1 →
    ∃ t, exec .hostLoss s = .next t ∧ s.devOnly t ∧ t.dev.ept.hostLossState = 2
      ∧ (s.dev.ept.hostLossPolicy = 0 → t.dev = { s.dev with ept := { s.dev.ept with hostLossState := 2 } })
      ∧ (s.dev.ept.hostLossPolicy = 1 → s.dev.adm.hostLossDrain = false → s.dev.chp.mode.admits = true →
          t.dev.chp.mode = .writeThrough ∧ t.dev.adm.hostLossDrain = true)
      ∧ (s.dev.ept.hostLossPolicy = 2 → s.dev.chp.mode.settled = true →
          t.dev.chp.mode = .curtain ∧ t.dev.cur.plannedFlag = true ∧ t.dev.cur.linkKept = true))
  ∧ (∀ s : State, (linkUp s.dev = true ∨ s.dev.spw.good = false ∨ s.dev.ept.hostLossState ≠ 1) →
    exec .hostLoss s = .next s)
  ∧ (∀ s : State, bit s.dev.ept.linkCtl 1 = true → linkIdle s.dev = true → linkAwake s.dev = true →
    ∃ t, exec .l1Idle s = .next t ∧ s.devOnly t ∧ t.dev.ept.link = l1State s.dev
      ∧ Dev.Reports { s.dev with ept := { s.dev.ept with
          link := l1State s.dev, l1Mark := t.dev.ept.l1Mark } } t.dev)
  ∧ (∀ (n : Nat) (s : State), bit s.dev.ept.ctl 4 = true → s.dev.ept.rate = 6 → linkAwake s.dev = true →
    ∃ t, exec (.l0pInterval n) s = .next t ∧ s.devOnly t
      ∧ Dev.Reports { s.dev with ept := t.dev.ept } t.dev
      ∧ t.dev.ept.lanes = (if 50 * s.dev.ept.lanes < 4 * n then s.dev.ept.width
          else if n < 25 then min 4 s.dev.ept.width
          else if n < 50 then min 8 s.dev.ept.lanes else s.dev.ept.lanes))
  ∧ (∀ s : State, (bit s.dev.ept.linkCtl 1 = false ∨ linkIdle s.dev = false ∨ linkAwake s.dev = false) →
    exec .l1Idle s = .next s)
  ∧ (∀ (n : Nat) (s : State), (bit s.dev.ept.ctl 4 = false ∨ s.dev.ept.rate ≠ 6 ∨ linkAwake s.dev = false) →
    exec (.l0pInterval n) s = .next s)

/-- Doorbells (R250, R251): an accepted tail or head is the ring's; any other value moves no ring and is
counted on the function. A ring's enable (R247): a completion ring, and a submission ring whose completion
ring stands, start empty; a submission ring without its completion ring is a configuration error and stays
off; an enabled completion ring that no submission ring names can be disabled. Interrupt moderation (R252,
R233): the timer sends one message for the entries that stand unsent, and an unmasked vector that was
pending sends its own. -/
def Obligations.Rings : Prop :=
  (∀ (f n : Nat) (w : W32) (s : State), f ≠ 0 → ringBlocked s.dev f (sqRing s.dev f n).en = false →
      tailOk (sqRing s.dev f n) (field w 0 16) = true →
    ∃ t, exec (.sqDoorbell f n w) s = .next t ∧ s.devOnly t
      ∧ sqRing t.dev f n = { sqRing s.dev f n with host := field w 0 16 }
      ∧ (∀ g k, (g, k) ≠ (f, n) → sqRing t.dev g k = sqRing s.dev g k))
  ∧ (∀ (n : Nat) (w : W32) (s : State), (mrgRing s.dev 0).en = true →
      tailOk (mrgRing s.dev 0) (field w 0 16) = true →
    ∃ t, exec (.sqDoorbell 0 n w) s = .next t ∧ s.devOnly t
      ∧ mrgRing t.dev 0 = { mrgRing s.dev 0 with host := field w 0 16 })
  ∧ (∀ (f n : Nat) (w : W32) (s : State), f ≠ 0 →
      (ringBlocked s.dev f (sqRing s.dev f n).en = true ∨ tailOk (sqRing s.dev f n) (field w 0 16) = false) →
    ∃ t, exec (.sqDoorbell f n w) s = .next t ∧ s.devOnly t
      ∧ (getFn t.dev f).dbErrors = satAdd 8 (getFn s.dev f).dbErrors 1
      ∧ (∀ g k, sqRing t.dev g k = sqRing s.dev g k))
  ∧ (∀ (f n : Nat) (w : W32) (s : State), f ≠ 0 → ringBlocked s.dev f (cqRing s.dev f n).en = false →
      headOk (cqRing s.dev f n) (headValue s.dev f n w) = true →
    ∃ t, exec (.cqDoorbell f n w) s = .next t ∧ s.devOnly t
      ∧ (cqRing t.dev f n).host = headValue s.dev f n w ∧ (cqRing t.dev f n).en = true)
  ∧ (∀ (n : Nat) (w : W32) (s : State), 1 ≤ n → (mrgRing s.dev n).en = true →
      headOk (mrgRing s.dev n) (headValue s.dev 0 n w) = true →
    ∃ t, exec (.cqDoorbell 0 n w) s = .next t ∧ s.devOnly t
      ∧ (mrgRing t.dev n).host = headValue s.dev 0 n w)
  ∧ (∀ (f n : Nat) (w : W32) (s : State), f ≠ 0 →
      (ringBlocked s.dev f (cqRing s.dev f n).en = true
        ∨ headOk (cqRing s.dev f n) (headValue s.dev f n w) = false) →
    ∃ t, exec (.cqDoorbell f n w) s = .next t ∧ s.devOnly t
      ∧ (getFn t.dev f).dbErrors = satAdd 8 (getFn s.dev f).dbErrors 1)
  ∧ (∀ (f n : Nat) (w : W32) (s : State), 1 ≤ f → f ≤ 63 → n ≤ 15 → (cqRing s.dev f n).en = false →
      bit w 31 = true → log2Ok f .completion n (field w 0 5) = true →
    ∃ t, exec (.ringEnWrite f .completion n w) s = .next t ∧ s.devOnly t
      ∧ (cqRing t.dev f n).en = true ∧ (cqRing t.dev f n).host = 0)
  ∧ (∀ (f n : Nat) (w : W32) (s : State), 1 ≤ f → f ≤ 63 → n ≤ 15 → (sqRing s.dev f n).en = false →
      bit w 31 = true → (cqRing s.dev f (field w 20 4)).en = true →
      log2Ok f .submission n (field w 0 5) = true →
    ∃ t, exec (.ringEnWrite f .submission n w) s = .next t ∧ s.devOnly t
      ∧ (sqRing t.dev f n).en = true ∧ (sqRing t.dev f n).dev = 0 ∧ (sqRing t.dev f n).host = 0)
  ∧ (∀ (f n : Nat) (w : W32) (s : State), 1 ≤ f → f ≤ 63 → n ≤ 15 → (sqRing s.dev f n).en = false →
      bit w 31 = true → (cqRing s.dev f (field w 20 4)).en = false →
    ∃ t, exec (.ringEnWrite f .submission n w) s = .next t ∧ s.devOnly t
      ∧ (getFn t.dev f).cfgError = true ∧ (sqRing t.dev f n).en = false)
  ∧ (∀ (f n : Nat) (w : W32) (s : State), 1 ≤ f → f ≤ 63 → n ≤ 15 → (cqRing s.dev f n).en = true →
      bit w 31 = false →
      (getFn s.dev f).sq.any (fun e => e.2.en && field e.2.cfg 20 4 = n) = false →
    ∃ t, exec (.ringEnWrite f .completion n w) s = .next t ∧ s.devOnly t
      ∧ cqRing t.dev f n = { cqRing s.dev f n with en := false })
  ∧ (∀ (f n : Nat) (s : State), f ≠ 0 → (cqRing s.dev f n).unsent ≠ 0 →
      field (cqRing s.dev f n).cfg 16 8 ≠ 0 → (cqRing s.dev f n).en = true →
    ∃ t, exec (.coalesceTimer f n) s = .next t ∧ s.devOnly t ∧ Dev.Reports s.dev t.dev
      ∧ cqRing t.dev f n = { cqRing s.dev f n with unsent := 0 })
  ∧ (∀ (f v : Nat) (s : State),
    ∃ t, exec (.vectorUnmask f v) s = .next t ∧ s.devOnly t ∧ Dev.Reports s.dev t.dev
      ∧ Tab.get {} (getFn t.dev f).msix v
          = { Tab.get {} (getFn s.dev f).msix v with masked := false, pend := false }
      ∧ ((Tab.get {} (getFn s.dev f).msix v).pend = true →
          t.dev.outbox = .msix f v (Tab.get {} (getFn s.dev f).msix v).addr
            (Tab.get {} (getFn s.dev f).msix v).data :: s.dev.outbox))

/-- A fetch (R253): the admin ring first; one entry becomes a descriptor with the next handle, the ring's
head moves on by one, and a cache function's descriptor takes the next sequence number. The admin ring has
16 places in flight and the cache functions 2,032 of their own; with no entry that may be fetched nothing
happens. Function reset, disable and enable (R267, R268): a reset function has no ring and no error left; a
disabled one has its cause set (function 0 has no bit of EPT_FN_DISABLE), an enabled one has it clear, and
nothing of its rings moves for either. -/
def Obligations.FetchesAndFunctions : Prop :=
  (∀ (e : SqEntry) (g : SglRead) (s : State), fetches s.dev true = true → (mrgRing s.dev 0).en = true →
      (mrgRing s.dev 0).dev ≠ (mrgRing s.dev 0).host → inFlightCount s.dev true < 16 →
      (getFn s.dev 0).busMaster = true →
    ∃ t, exec (.descriptorFetch e g) s = .next t ∧ s.devOnly t
      ∧ t.dev.nextHandle = s.dev.nextHandle + 1
      ∧ (mrgRing t.dev 0).dev = ((mrgRing s.dev 0).dev + 1) % ringSize (mrgRing s.dev 0))
  ∧ (∀ (e : SqEntry) (g : SglRead) (s : State) (f k : Nat),
      (fetches s.dev true = false ∨ (mrgRing s.dev 0).en = false ∨ (mrgRing s.dev 0).dev = (mrgRing s.dev 0).host
        ∨ 16 ≤ inFlightCount s.dev true ∨ (getFn s.dev 0).busMaster = false) →
      fetches s.dev false = true → inFlightCount s.dev false < 2032 → pickFn s.dev = some f →
      pickRing s.dev f = some k → (listed e = false ∨ freeTag s.dev ≠ none) →
    ∃ t, exec (.descriptorFetch e g) s = .next t ∧ s.devOnly t
      ∧ t.dev.nextHandle = s.dev.nextHandle + 1
      ∧ (sqRing t.dev f k).dev = ((sqRing s.dev f k).dev + 1) % ringSize (sqRing s.dev f k)
      ∧ (getFn t.dev f).seqNext = ((getFn s.dev f).seqNext + 1) % 2 ^ 32)
  ∧ (∀ (e : SqEntry) (g : SglRead) (s : State),
      (fetches s.dev true = false ∨ (mrgRing s.dev 0).en = false ∨ (mrgRing s.dev 0).dev = (mrgRing s.dev 0).host
        ∨ 16 ≤ inFlightCount s.dev true ∨ (getFn s.dev 0).busMaster = false) →
      (fetches s.dev false = false ∨ 2032 ≤ inFlightCount s.dev false ∨ pickFn s.dev = none) →
    exec (.descriptorFetch e g) s = .next s)
  ∧ (∀ (f : Nat) (s : State), fnPresent s.dev f = true →
    ∃ t, exec (.fncCtlReset f) s = .next t ∧ s.devOnly t ∧ (getFn t.dev f).sq = []
      ∧ (getFn t.dev f).dbErrors = 0 ∧ (getFn t.dev f).cfgError = false
      ∧ (getFn t.dev f).resetting = false)
  ∧ (∀ (f : Nat) (s : State), fnPresent s.dev f = false → exec (.fncCtlReset f) s = .next s)
  ∧ (∀ (f : Nat) (c : DisableCause) (s : State), f ≤ 63 → f ≠ 0 ∨ c ≠ .eptFnDisable →
    ∃ t, exec (.functionDisable f c) s = .next t ∧ s.devOnly t ∧ fnDisabled t.dev f = true
      ∧ (getFn t.dev f).sq = (getFn s.dev f).sq)
  ∧ (∀ s : State, exec (.functionDisable 0 .eptFnDisable) s = .next s)
  ∧ (∀ (f : Nat) (c : DisableCause) (s : State), f ≤ 63 →
    ∃ t, exec (.functionEnable f c) s = .next t ∧ s.devOnly t
      ∧ (getFn t.dev f).busMaster = ((getFn s.dev f).busMaster || decide (c = .busMaster))
      ∧ (getFn t.dev f).d3hot = ((getFn s.dev f).d3hot && decide (c ≠ .d3hot))
      ∧ bit t.dev.ept.fnDisable f = (bit s.dev.ept.fnDisable f && decide (c ≠ .eptFnDisable)))

/-- Power-on (R359, R373, row 12): with VAUX3 and main supply at 10.7 V or more a dark device enters BOOT
with its flash image, no descriptor, no extent, no budget and its time base running. Above the rating it
stops. VAUX3 (R361): its loss asserts a reset while the pin's own level is kept, and its return lets an
endpoint that is out of reset train. -/
def Obligations.PowerOn : Prop :=
  (∀ (mv : Nat) (s : State), s.dev.chp.mode = .dark → 10700 ≤ mv → mv ≤ 16000 → s.dev.pins.vaux3 = true →
    ∃ t, exec (.mainSupplyGood mv) s = .next t ∧ s.devOnly t ∧ t.dev.chp.mode = .boot
      ∧ t.dev.chp.prev = .dark ∧ t.dev.flash = s.dev.flash ∧ t.dev.descs = [] ∧ t.dev.exts = []
      ∧ t.dev.pages = [] ∧ t.dev.adm.budget = 0 ∧ t.dev.tmb.powered = true)
  ∧ (∀ (mv : Nat) (s : State), mv ≤ 16000 →
      (s.dev.chp.mode ≠ .dark ∨ mv < 10700 ∨ s.dev.pins.vaux3 = false) →
    exec (.mainSupplyGood mv) s
      = .next { s with dev := { s.dev with pins := { s.dev.pins with vinMv := mv } } })
  ∧ (∀ (mv : Nat) (s : State), 16000 < mv → exec (.mainSupplyGood mv) s = .fault .absoluteMaximum)
  ∧ (∀ s : State, s.dev.pins.vaux3 = true →
    ∃ t, exec .vaux3Loss s = .next t ∧ s.devOnly t
      ∧ t.dev.pins = { s.dev.pins with vaux3 := false, clkreqN := true, ppsOut := false }
      ∧ (endpointOn s.dev = true → s.dev.pins.perstN = true → t.dev.ept.link = .down))
  ∧ (∀ s : State, exec .vaux3Return s = .next { s with dev := { s.dev with
        pins := { s.dev.pins with vaux3 := true, clkreqN := false }
        ept := { s.dev.ept with
          link := (if endpointOn s.dev = true ∧ s.dev.pins.perstN = true ∧ s.dev.ept.link = .down
            then .training else s.dev.ept.link) } } })

/-- The milestones of BOOT (R295, R315, R326, R329, R351, row 13): B2 runs the twin that the selectors name
or records the fault that holds BOOT; B3 holds out exactly the blocks that fail their checks; B4 leaves no
erase intent, and an epoch on a device that follows none; B5 enters ENCORE. -/
def Obligations.BootMilestones : Prop :=
  (∀ (s : State) (n : Nat), s.dev.chp.mode = .boot → s.dev.rom.booted = false → s.dev.chp.fatalBoot = false →
      bootTwin s.dev = some n →
    exec .twinSelected s = .next { s with dev := { s.dev with
      rom := { s.dev.rom with running := n, booted := true }
      board := { s.dev.board with fwVersion := BitVec.ofNat 32 (Tab.get 0 s.dev.rom.twinVersion n) } } })
  ∧ (∀ s : State, s.dev.chp.mode = .boot → s.dev.rom.booted = false → s.dev.chp.fatalBoot = false →
      bootTwin s.dev = none →
    ∃ t, exec .twinSelected s = .next t ∧ s.devOnly t
      ∧ Dev.Reports { s.dev with chp := { s.dev.chp with fatalBoot := true, cause := 0x1A } } t.dev)
  ∧ (∀ (ms : List ModuleFound) (s : State), s.dev.chp.mode = .boot → s.dev.rom.booted = true →
      s.dev.rom.modulesOk = false →
    ∃ t, exec (.modulesTrained ms) s = .next t ∧ s.devOnly t ∧ t.dev.rom.modulesOk = true
      ∧ ∀ b, b < s.dev.board.blocks → (getBlk t.dev b).heldOut
          = !modulePasses s.dev b
              (((ms.find? (fun m => m.block = 0)).map ModuleFound.capacityGib).getD 0) ms)
  ∧ (∀ s : State, s.dev.chp.mode = .boot → s.dev.rom.modulesOk = true → s.dev.rom.flashReady = false →
      s.dev.chp.fatalBoot = false → pinDriving s.dev.obs.tapIr = false →
    ∃ t, exec .flashReady s = .next t ∧ s.devOnly t ∧ t.dev.rom.flashReady = true
      ∧ t.dev.flash.intents = [] ∧ t.dev.flash.neverBooted = false
      ∧ (s.dev.tmb.follower = false → t.dev.flash.epoch.isSome = true)
      ∧ t.dev.chp = s.dev.chp)
  ∧ (∀ s : State, s.dev.chp.mode = .boot → s.dev.rom.flashReady = true → s.dev.rom.playbill = false →
      s.dev.chp.fatalBoot = false → s.dev.chp.tapDrove = false →
    ∃ t, exec .playbillWritten s = .next t ∧ s.devOnly t ∧ t.dev.chp.mode = .encore
      ∧ t.dev.chp.prev = .boot ∧ t.dev.chp.cause = 0x02 ∧ t.dev.rom.playbill = true)

/-- KEY_LOAD (R288): it waits while no tag is free (R239); a buffer that does not read, counted where it
times out (R240), and a key that the checks refuse, end the command and change nothing else; a new or
repeated key, and one that fills an older generation, appends one vault entry that is not yet written and
waits for it. KEY_ERASE (R266, R293): refused with BUSY or REFUSED_KEY where a command is pending on the
slot or its function holds data and FORCE is not given, with nothing else changed; with no data the key is
gone, or goes when the slot's requests end, and the erase is in the vault; with FORCE the function's pages
read zero. -/
def Obligations.KeyCommands : Prop :=
  (∀ (h : Nat) (data : HostData) (s : State) (x : Desc) (d : Dev), begin h true 0x40 s.dev = (some x, d) →
      data = .timeout ∨ data = .error → freeTag d ≠ none →
    ∃ t, exec (.keyLoad h data) s = .next t ∧ s.devOnly t
      ∧ Dev.Answers { s.dev with ept := { s.dev.ept with timeouts := t.dev.ept.timeouts } } t.dev
      ∧ findDesc t.dev h = none
      ∧ t.dev.ept.timeouts
          = (if data = .timeout then satAdd 32 s.dev.ept.timeouts 1 else s.dev.ept.timeouts))
  ∧ (∀ (h : Nat) (data : HostData) (s : State) (x : Desc) (d : Dev), begin h true 0x40 s.dev = (some x, d) →
      freeTag d = none → exec (.keyLoad h data) s = .next { s with dev := d })
  ∧ (∀ (h : Nat) (bs : List Byte) (s : State) (x : Desc) (d : Dev), begin h true 0x40 s.dev = (some x, d) →
      freeTag d ≠ none →
    ∃ t, exec (.keyLoad h (.ok bs)) s = .next t ∧ s.devOnly t
      ∧ match keyPlan d (field x.entry.p0 0 6) (field x.entry.p0 8 6)
            (Config.unwrapKey d.board.serial (ofBytes (bs.take 40))) with
        | .refuse _ => Dev.Answers s.dev t.dev ∧ findDesc t.dev h = none
        | plan => (∀ g, plan = .fill g → (getSlot t.dev (field x.entry.p0 0 6)).filling = some g)
            ∧ (getSlot t.dev (field x.entry.p0 0 6)).pending.isSome = true
            ∧ t.dev.cip.vault.length = s.dev.cip.vault.length + 1
            ∧ (∀ v, t.dev.cip.vault.getLast? = some v →
                v.written = false ∧ v.slot = field x.entry.p0 0 6 ∧ v.fn = field x.entry.p0 8 6))
  ∧ (∀ (h : Nat) (s : State) (x : Desc) (d : Dev), begin h true 0x41 s.dev = (some x, d) →
      ((getSlot d (field x.entry.p0 0 6)).pending.isSome = true
        ∨ ((getSlot d (field x.entry.p0 0 6)).bound = true ∧ (getSlot d (field x.entry.p0 0 6)).fn ≠ 0
            ∧ holdsData d (getSlot d (field x.entry.p0 0 6)).fn (field x.entry.p0 0 6) = true
            ∧ bit x.entry.flags 4 = false)) →
    ∃ t, exec (.keyErase h) s = .next t ∧ s.devOnly t ∧ Dev.Answers s.dev t.dev ∧ findDesc t.dev h = none)
  ∧ (∀ (h : Nat) (s : State) (x : Desc) (d : Dev), begin h true 0x41 s.dev = (some x, d) →
      (getSlot d (field x.entry.p0 0 6)).pending = none →
      holdsData d (getSlot d (field x.entry.p0 0 6)).fn (field x.entry.p0 0 6) = false →
    ∃ t, exec (.keyErase h) s = .next t ∧ s.devOnly t
      ∧ (slotActive d (field x.entry.p0 0 6) = false →
          (getSlot t.dev (field x.entry.p0 0 6)).bound = false
          ∧ (getSlot t.dev (field x.entry.p0 0 6)).loaded = false
          ∧ (getSlot t.dev (field x.entry.p0 0 6)).key = 0)
      ∧ t.dev.cip.vault.length = s.dev.cip.vault.length + 1)
  ∧ (∀ (h : Nat) (s : State) (x : Desc) (d : Dev), begin h true 0x41 s.dev = (some x, d) →
      (getSlot d (field x.entry.p0 0 6)).pending = none →
      (getSlot d (field x.entry.p0 0 6)).bound = true → (getSlot d (field x.entry.p0 0 6)).fn ≠ 0 →
      holdsData d (getSlot d (field x.entry.p0 0 6)).fn (field x.entry.p0 0 6) = true →
      bit x.entry.flags 4 = true →
      32 * (heldExtents d (getSlot d (field x.entry.p0 0 6)).fn).length ≤ x.entry.hlen →
    ∃ t, exec (.keyErase h) s = .next t ∧ t.pending = s.pending
      ∧ ∀ a, memRead t.dram a
          = if d.pages.any (fun e => e.1 = pageOf a && e.2.fn = (getSlot d (field x.entry.p0 0 6)).fn
              && (e.2.kind = .held || e.2.kind = .clean)) = true then 0 else memRead s.dram a)

/-- A vault entry written (R288, R293): a load puts the key in its slot under the entry's generation and
function, or gives the generation that it fills its key, an erase ends its command; either leaves nothing
pending on the slot. A cipher request that ends leaves its block's queue. The wrap service (R286): GO wraps
and zeroises the key written, or answers LOCKED and keeps it; LOCK stays; the timeout zeroises a key written
and not used. -/
def Obligations.VaultAndWrap : Prop :=
  (∀ (k : Nat) (s : State) (h key : Nat) (v : Vault) (x : Desc),
      (getSlot s.dev k).pending = some (h, key) →
      s.dev.cip.vault.find? (fun v => v.slot = k && !v.written) = some v →
      findDesc s.dev h = some x → (getSlot s.dev k).erasing = false →
    ∃ t, exec (.keyVaultWritten k) s = .next t ∧ s.devOnly t ∧ findDesc t.dev h = none
      ∧ (getSlot t.dev k).pending = none
      ∧ (v.eraseHt = 0 → (getSlot s.dev k).filling = none →
          (getSlot t.dev k).loaded = true ∧ (getSlot t.dev k).key = key
          ∧ (getSlot t.dev k).gen = v.gen ∧ (getSlot t.dev k).fn = v.fn)
      ∧ (∀ g, v.eraseHt = 0 → (getSlot s.dev k).filling = some g → (g, key) ∈ (getSlot t.dev k).older))
  ∧ (∀ (b : Nat) (s : State) (a : Nat × Nat × Nat) (rest : List (Nat × Nat × Nat)),
      (getBlk s.dev b).cipherActive = a :: rest →
    ∃ t, exec (.cipherRequestDone b) s = .next t ∧ s.devOnly t
      ∧ (getBlk t.dev b).cipherActive = rest.filter (fun q => q.1 ≠ a.1)
      ∧ (getBlk t.dev b).cipherDone = satAdd 32 (getBlk s.dev b).cipherDone 1)
  ∧ (∀ s : State, s.dev.cip.wrapLocked = true → exec .wrapGo s = .next { s with dev := { s.dev with
      cip := { s.dev.cip with wrapStatus := 2 } } })
  ∧ (∀ s : State, s.dev.cip.wrapLocked = false →
    ∃ t, exec .wrapGo s = .next t ∧ s.devOnly t
      ∧ t.dev.cip = { s.dev.cip with
          wrapKey := [], wrapWritten := false, wrapStatus := 1
          wrapOut := Config.wrapKey s.dev.board.serial (wrapKeyValue s.dev.cip)
          wrapKcv := kcvOf (wrapKeyValue s.dev.cip) }
      ∧ t.dev = { s.dev with cip := t.dev.cip, halfLatch := t.dev.halfLatch })
  ∧ (∀ s : State, exec .wrapLock s = .next { s with dev := { s.dev with
      cip := { s.dev.cip with wrapLocked := true } } })
  ∧ (∀ s : State,
    ∃ t, exec .wrapKeyTimeout s = .next t ∧ s.devOnly t ∧ t.dev.cip.wrapWritten = false
      ∧ (s.dev.cip.wrapWritten = true → t.dev.cip.wrapKey = [])
      ∧ (s.dev.cip.wrapWritten = false → t = s))

/-- The milestones E1 to E3 of an encore (R133 to R139): E1 names the kind, and keeps the cache DRAM only
for a short one; E2 resumes each function's sequence and makes each block's log known; E3 chooses the
winners, and no function is then both restored and waiting for a key. Restoration (R144, R145, row 14): the
function whose turn it is has none of its pages waiting after its E4; a block is done at its E5; with every
block done, or none to restore, RECONCILE is entered. Reconcile (R150, R151, row 15): a standalone device
merges by itself once HT is past its image; the timeout ends it with an order, merged or local; the order's
store enters the settled mode. -/
def Obligations.EncoreAndReconcile : Prop :=
  (∀ s : State, s.dev.chp.mode = .encore → s.dev.enc.located = false →
    ∃ t, exec .imageLocated s = .next t ∧ t.pending = s.pending ∧ t.dev.enc.located = true
      ∧ t.dev.enc.kind = encoreKind s.dev ∧ t.dev.chp.mode = .encore
      ∧ t.dram = (if encoreKind s.dev = 2 ∨ encoreKind s.dev = 4 then s.dram else [])
      ∧ (encoreKind s.dev ≠ 2 → encoreKind s.dev ≠ 4 → t.dev.pages = [] ∧ t.dev.exts = []))
  ∧ (∀ s : State, s.dev.chp.mode = .encore → s.dev.enc.located = true → s.dev.enc.scanned = false →
    ∃ t, exec .headersScanned s = .next t ∧ s.devOnly t ∧ t.dev.enc.scanned = true
      ∧ (∀ f, 1 ≤ f → f ≤ 63 → (getFn t.dev f).seqNext = resumeSeq s.dev f)
      ∧ (∀ b, b < s.dev.board.blocks → (getBlk s.dev b).heldOut = false → (getBlk t.dev b).logKnown = true))
  ∧ (∀ s : State, s.dev.chp.mode = .encore → s.dev.enc.scanned = true → s.dev.enc.chosen = false →
    ∃ t, exec .winnersChosen s = .next t ∧ s.devOnly t ∧ t.dev.enc.chosen = true
      ∧ t.dev.chp.mode = .encore
      ∧ (∀ f, 1 ≤ f → f ≤ 63 → ¬((getFn t.dev f).restored = true ∧ (getFn t.dev f).keyPending = true)))
  ∧ (∀ (f : Nat) (s : State), s.dev.enc.chosen = true → nextRestore s.dev = some f →
      s.dev.chp.mode = .encore ∨ s.dev.chp.mode = .reconcile ∨ s.dev.chp.mode.settled = true →
    ∃ t, exec (.functionRestored f) s = .next t ∧ t.pending = s.pending
      ∧ (getFn t.dev f).restored = true
      ∧ (∀ p, (getPage t.dev p).fn = f → (getPage t.dev p).restorePend = false))
  ∧ (∀ (b : Nat) (s : State), s.dev.chp.mode = .encore → s.dev.enc.chosen = true →
      (readBlocks s.dev).contains b = true → s.dev.enc.blockDone.contains b = false →
      blockReady s.dev b = true →
    ∃ t, exec (.blockRestored b) s = .next t ∧ s.devOnly t
      ∧ t.dev.enc.blockDone = b :: s.dev.enc.blockDone
      ∧ Dev.Reports { s.dev with enc := t.dev.enc } t.dev)
  ∧ (∀ s : State, s.dev.chp.mode = .encore → s.dev.enc.chosen = true →
      (s.dev.enc.short = true ∨ (readBlocks s.dev).all (fun b => s.dev.enc.blockDone.contains b) = true) →
    ∃ t, exec .encoreComplete s = .next t ∧ s.devOnly t ∧ t.dev.chp.mode = .reconcile
      ∧ t.dev.chp.cause = 0x03 ∧ t.dev.chp.sealRetained = false)
  ∧ (∀ s : State, rcnOpen s.dev = true → Tab.get 0 s.dev.enc.rcnHt 2 ≠ 0 → s.dev.hrk.role = 0 →
    ∃ t, exec .mergeComplete s = .next t ∧ s.devOnly t ∧ t.dev.enc.merged = true
      ∧ t.dev.chp.mode = .reconcile)
  ∧ (∀ s : State, rcnOpen s.dev = true →
    ∃ t, exec .reconcileTimeout s = .next t ∧ s.devOnly t ∧ t.dev.enc.timedOut = true
      ∧ (t.dev.enc.merged = true ∨ t.dev.enc.unmerged = true))
  ∧ (∀ s : State, s.dev.chp.mode = .reconcile → (s.dev.enc.merged = true ∨ s.dev.enc.unmerged = true) →
    ∃ t, exec .orderStoreWritten s = .next t ∧ s.devOnly t ∧ t.dev.chp.mode.settled = true
      ∧ t.dev.enc.orderStore = s.dev.enc.order ∧ t.dev.enc.resolved = [])

/-- ORDER_READ and LOOKUP always end (R152, R274, R279): an ORDER_READ without RELEASE and a LOOKUP whose
read-back holds change nothing but reports and descriptors, the LOOKUP also the index's counts; a repeated
mismatch starts a rebuild. A rebuild that holds ends it. A re-spread keeps every entry of the segment in its
order, and touches no other table; a bucket that needs none stands. The running order is monotone (R63): the
positions that a segment gives are 0, 1, 2, … in the order of the sort key. -/
def Obligations.OrderAndIndexReads : Prop :=
  (∀ (h : Nat) (s : State) (x : Desc) (d : Dev), begin h false 7 s.dev = (some x, d) →
    ∃ t, exec (.orderRead h) s = .next t ∧ s.devOnly t ∧ findDesc t.dev h = none
      ∧ (bit x.entry.flags 4 = false → Dev.Answers s.dev t.dev))
  ∧ (∀ (h : Nat) (c : LookupCheck) (s : State) (x : Desc) (d : Dev), begin h false 5 s.dev = (some x, d) →
    ∃ t, exec (.lookup h c) s = .next t ∧ s.devOnly t ∧ findDesc t.dev h = none
      ∧ (c = .clean ∨ c = .mismatch →
          Dev.Answers { s.dev with idx := t.dev.idx, freeCtr := t.dev.freeCtr } t.dev)
      ∧ (c = .repeated ∨ c = .poisoned → (getFn d x.fn).rebuildStopped = false → heldOutSearch d x = false →
          (getFn t.dev x.fn).rebuilding = true))
  ∧ (∀ (f : Nat) (s : State), (getFn s.dev f).rebuilding = true → indexOn s.dev = true →
    ∃ t, exec (.indexRebuildDone f false) s = .next t ∧ s.devOnly t
      ∧ (getFn t.dev f).rebuilding = false ∧ (getFn t.dev f).rebuilds = 0)
  ∧ (∀ (f : Nat) (s : State), (getFn s.dev f).rebuilding = true → (getFn s.dev f).rebuilds ≠ 0 →
      indexOn s.dev = true →
    ∃ t, exec (.indexRebuildDone f true) s = .next t ∧ s.devOnly t
      ∧ (getFn t.dev f).rebuilding = false ∧ (getFn t.dev f).rebuildStopped = true)
  ∧ (∀ (f k : Nat) (s : State), indexOn s.dev = true → keepsGaps s.dev f (k / 65536) = true →
      (getFn s.dev f).respreads.contains k = true → (getFn s.dev f).rebuilding = false →
    ∃ t, exec (.bucketRespread f k) s = .next t ∧ s.devOnly t
      ∧ (∀ b, b ≠ k / 65536 → Tab.get [] (getFn t.dev f).segs b = Tab.get [] (getFn s.dev f).segs b)
      ∧ (∀ b, ((Tab.get [] (getFn t.dev f).segs b).flatMap (fun k => k.filterMap id))
          = ((Tab.get [] (getFn s.dev f).segs b).flatMap (fun k => k.filterMap id)))
      ∧ t.dev = { s.dev with fns := t.dev.fns }
      ∧ (∀ g, g ≠ f → getFn t.dev g = getFn s.dev g)
      ∧ getFn t.dev f = { getFn s.dev f with
          segs := (getFn t.dev f).segs, respreads := (getFn t.dev f).respreads })
  ∧ (∀ (f k : Nat) (s : State), (indexOn s.dev = false ∨ keepsGaps s.dev f (k / 65536) = false
        ∨ (getFn s.dev f).respreads.contains k = false ∨ (getFn s.dev f).rebuilding = true) →
    exec (.bucketRespread f k) s = .next s)
  ∧ (∀ es : List (Nat × OrderKey),
    (placeSegment es).length = es.length
    ∧ (placeSegment es).map (fun e => e.2.position) = List.range es.length
    ∧ ((placeSegment es).map (fun e => orderKeyNat e.1.2)).Pairwise (· ≤ ·))

/-- A cell's failure and a target's death (R18, R20, R97): the cell leaves its block's working cells and its
port stops; a dead target is known and takes no erase; nothing of the cache DRAM is lost. -/
def Obligations.CellFaults : Prop :=
  (∀ (c : Nat) (k : CellCause) (s : State), blockOn s.dev (c / 8) = true → (getCell s.dev c).failed = false →
    ∃ t, exec (.cellFailure c k) s = .next t ∧ s.devOnly t
      ∧ (getCell t.dev c).failed = true ∧ (getCell t.dev c).arm = .disarmed
      ∧ workingCells t.dev (c / 8) = (workingCells s.dev (c / 8)).filter (fun q => q ≠ c))
  ∧ (∀ (c n : Nat) (b : Bool) (s : State), blockOn s.dev (c / 8) = true → (getCell s.dev c).failed = false →
      (getCell s.dev c).deadTargets.contains n = false → n < 8 →
    ∃ t, exec (.targetDead c n b) s = .next t ∧ s.devOnly t
      ∧ (getCell t.dev c).deadTargets = n :: (getCell s.dev c).deadTargets
      ∧ ((getCell s.dev c).deadTargets.length < 6 → (getCell t.dev c).failed = false
          ∧ (getCell t.dev c).erases = Tab.drop (getCell s.dev c).erases n)
      ∧ (6 ≤ (getCell s.dev c).deadTargets.length → (getCell t.dev c).failed = true ∧ (getCell t.dev c).erases = []))

/-- Faults of a block (R21, R23, R24, R284, R338): a pipe that fails leaves the other to work, and the
second stops the path; a usable partner takes the save over; a block whose DRAM, fabric or power fails is
fenced, and so is one without a partner outside CURTAIN. -/
def Obligations.BlockFaults : Prop :=
  (∀ (b p : Nat) (s : State), blockOn s.dev b = true → p < 2 →
      (getBlk s.dev b).pipe0Ok = true → (getBlk s.dev b).pipe1Ok = true →
    ∃ t, exec (.cipherPipeFault b p) s = .next t ∧ s.devOnly t
      ∧ (getBlk t.dev b).pipe0Ok = decide (p ≠ 0) ∧ (getBlk t.dev b).pipe1Ok = decide (p = 0)
      ∧ (getBlk t.dev b).pathFailed = (getBlk s.dev b).pathFailed)
  ∧ (∀ (b : Nat) (s : State), blockOn s.dev b = true →
      (getBlk s.dev b).pipe0Ok = true → (getBlk s.dev b).pipe1Ok = false →
    ∃ t, exec (.cipherPipeFault b 0) s = .next t ∧ s.devOnly t ∧ (getBlk t.dev b).pipe0Ok = false
      ∧ (getBlk t.dev b).pathFailed = true)
  ∧ (∀ (b : Nat) (c : BlockCause) (s : State), blockOn s.dev b = true →
      blkOut s.dev b = false → (getBlk s.dev b).crossSave = false → usablePartner s.dev (partner b) = true →
      (getBlk s.dev b).portOk = true →
    ∃ t, exec (.crossSave b c) s = .next t ∧ s.devOnly t ∧ (getBlk t.dev b).crossSave = true
      ∧ (getBlk t.dev b).pathFailed = true)
  ∧ (∀ (b : Nat) (c : FenceCause) (s : State), blockOn s.dev b = true →
      blkOut s.dev b = false → c = .dramPort ∨ c = .fabric ∨ c = .powerDomain →
    ∃ t, exec (.fence b c) s = .next t ∧ s.devOnly t ∧ (getBlk t.dev b).fenced = true)
  ∧ (∀ (b : Nat) (k : BlockCause) (s : State), blockOn s.dev b = true →
      blkOut s.dev b = false → usablePartner s.dev (partner b) = false →
    ∃ t, exec (.fence b (.noPartner k)) s = .next t ∧ s.devOnly t
      ∧ (s.dev.chp.mode = .curtain → t.dev.cur.faultFlag = true)
      ∧ (s.dev.chp.mode ≠ .curtain → (getBlk t.dev b).fenced = true))

/-- Refresh (R303, R304): a refresh falling due on an idle channel leaves no debt and the pull-ins at their
limit; on a busy one it uses a pull-in or adds a debt up to the limit; the multiplier follows the reported
rate and the debt stays within its new limit. An uncorrectable line (R22, R301): newly found in the usable
range it is poisoned, logged and counted, and no byte of the cache DRAM changes; found again it changes
nothing. -/
def Obligations.DramControllers : Prop :=
  (∀ (b : Nat) (s : State), channelOn s.dev b = true →
    ∃ t, exec (.refreshDue b true) s = .next t ∧ s.devOnly t
      ∧ (getBlk t.dev b).refDebt = 0 ∧ (getBlk t.dev b).pullIn = refreshLimit (getBlk s.dev b)
      ∧ Dev.Reports { s.dev with blk := t.dev.blk } t.dev)
  ∧ (∀ (b : Nat) (s : State), channelOn s.dev b = true →
    ∃ t, exec (.refreshDue b false) s = .next t ∧ s.devOnly t
      ∧ (getBlk t.dev b).pullIn = (getBlk s.dev b).pullIn - 1
      ∧ (getBlk t.dev b).refDebt = (if 0 < (getBlk s.dev b).pullIn then (getBlk s.dev b).refDebt
          else if (getBlk s.dev b).refDebt < refreshLimit (getBlk s.dev b) then (getBlk s.dev b).refDebt + 1
          else (getBlk s.dev b).refDebt)
      ∧ Dev.Reports { s.dev with blk := t.dev.blk } t.dev)
  ∧ (∀ (b r : Nat) (s : State), channelOn s.dev b = true →
    ∃ t, exec (.mr4Poll b r) s = .next t ∧ s.devOnly t
      ∧ (getBlk t.dev b).mult = (if r ≤ 100 then 1 else if r ≤ 200 then 2 else 4)
      ∧ ((getBlk s.dev b).mult ≠ (getBlk t.dev b).mult →
          (getBlk t.dev b).refDebt ≤ 8 / (getBlk t.dev b).mult)
      ∧ Dev.Reports { s.dev with blk := t.dev.blk } t.dev)
  ∧ (∀ (a p : Nat) (s : State), channelOn s.dev (blockOf (a - a % 64)) = true →
      s.dev.drc.poison.contains (a - a % 64) = false → (a - a % 64) % blockSpan < usable s.dev →
    ∃ t, exec (.dramUncorrectable a p) s = .next t ∧ s.devOnly t
      ∧ t.dev.drc.poison = (a - a % 64) :: s.dev.drc.poison
      ∧ (getBlk t.dev (blockOf (a - a % 64))).eccUncorrected
          = satAdd 32 (getBlk s.dev (blockOf (a - a % 64))).eccUncorrected 1)
  ∧ (∀ (a p : Nat) (s : State), s.dev.drc.poison.contains (a - a % 64) = true →
    exec (.dramUncorrectable a p) s = .next s)

/-- Training, calibration and frequency changes (R306 to R308): a retraining starts and its step's end
counts its result; a change waits for a step, then switches, and the switch puts its target in use; the
address map is stored only in SERVICE (R297). -/
def Obligations.TrainingAndFrequency : Prop :=
  (∀ (b : Nat) (p : Bool) (s : State), trains s.dev b = true → (getBlk s.dev b).training = false →
    ∃ t, exec (.retrainTimer b p) s = .next t ∧ s.devOnly t
      ∧ getBlk t.dev b = { getBlk s.dev b with training := true, trainFsp := s.dev.drc.fspNow, trainPass := p })
  ∧ (∀ (b : Nat) (s : State), (getBlk s.dev b).training = true → s.dev.drc.fspState ≠ 1 →
    ∃ t, exec (.trainingStepEnd b) s = .next t ∧ s.devOnly t ∧ (getBlk t.dev b).training = false
      ∧ (getBlk t.dev b).trainCount = satAdd 16 (getBlk s.dev b).trainCount 1
      ∧ (getBlk t.dev b).trainFails = (if (getBlk s.dev b).trainPass then (getBlk s.dev b).trainFails
          else satAdd 8 (getBlk s.dev b).trainFails 1)
      ∧ Dev.Reports { s.dev with blk := t.dev.blk } t.dev)
  ∧ (∀ (b : Nat) (s : State), (getBlk s.dev b).training = true → s.dev.drc.fspState = 1 →
    ∃ t, exec (.trainingStepEnd b) s = .next t ∧ s.devOnly t ∧ (getBlk t.dev b).training = false
      ∧ (getBlk t.dev b).trainCount = (getBlk s.dev b).trainCount
      ∧ (noStep t.dev = true → t.dev.drc.fspState = 2))
  ∧ (∀ (b : Nat) (s : State), channelOn s.dev b = true →
    ∃ t, exec (.zqTimer b) s = .next t ∧ s.devOnly t
      ∧ getBlk t.dev b = { getBlk s.dev b with zqCount := (getBlk s.dev b).zqCount + 1 }
      ∧ t.dev = { s.dev with blk := t.dev.blk })
  ∧ (∀ (w : W32) (s : State), s.dev.drc.fspState ≠ 2 → field w 0 1 ≠ s.dev.drc.fspNow →
      orderingPowered s.dev = true → s.dev.chp.mode ≠ .curtain →
    ∃ t, exec (.fspTarget w) s = .next t ∧ s.devOnly t ∧ t.dev.drc.fspTarget = field w 0 1
      ∧ t.dev.drc.fspState = (if noStep s.dev then 2 else 1)
      ∧ Dev.Reports { s.dev with drc := t.dev.drc } t.dev)
  ∧ (∀ s : State, s.dev.drc.fspState = 2 →
    ∃ t, exec .frequencySwitchDone s = .next t ∧ s.devOnly t ∧ t.dev.drc.fspState = 3
      ∧ t.dev.drc.fspNow = s.dev.drc.fspTarget ∧ t.dev.drc.addedUs ≤ 60)
  ∧ (∀ (w : W32) (s : State), exec (.drcMapNext w) s = .next { s with dev := { s.dev with
      drc := { s.dev.drc with
        mapNext := if s.dev.chp.mode = .service then field w 4 2 else s.dev.drc.mapNext } } })

/-- REHEARSE and the lead's slot (R38, R186, row 22): in ARMED or DERATED with the guard met, and the pack
and the budget recomputed at the change of mode holding no WRITE_THROUGH, the rehearsal starts; a REHEARSE
short of the guard ends and changes nothing else, and a slot short of it stays pending and starts once it is
met. A rehearsal's bursts and its end (R71, R73, row 23): a burst adds its bytes and energy unless a port in
panic interrupts it, and every block's image grows; in a rest window none runs (R205); the end takes the
energy per byte measured, with 3 % on it, and leaves REHEARSAL; the reset of e_byte puts back the data-sheet
figure. -/
def Obligations.Rehearsal : Prop :=
  (∀ (h : Nat) (s : State) (x : Desc) (d : Dev), begin h true 0x42 s.dev = (some x, d) →
      d.chp.mode = .armed ∨ d.chp.mode = .derated →
    ∃ t, exec (.rehearse h) s = .next t ∧ s.devOnly t
      ∧ (rehReady d = true → rehFits d = true → packHolds d = false →
          mib ≤ (recompute (abandonCompaction d)).adm.budget →
          t.dev.chp.mode = .rehearsal ∧ t.dev.reh.handle = h ∧ t.dev.reh.burstBytes = 0)
      ∧ ((rehReady d = false ∨ rehFits d = false) → Dev.Answers s.dev t.dev ∧ findDesc t.dev h = none))
  ∧ (∀ (q : FrameIn) (n : Nat) (s : State), heard s.dev q = true →
    ∃ t, exec (.rehSlot ⟨q, n⟩) s = .next t ∧ s.devOnly t
      ∧ (rehModes s.dev = true → rehReady s.dev = true → rehFits s.dev = true → packHolds s.dev = false →
          mib ≤ (recompute (abandonCompaction s.dev)).adm.budget →
          t.dev.chp.mode = .rehearsal ∧ t.dev.chp.rehearsePend = false)
      ∧ ((rehModes s.dev = false ∨ rehReady s.dev = false ∨ rehFits s.dev = false) →
          t.dev.chp = { s.dev.chp with rehearsePend := true }))
  ∧ (∀ s : State, s.dev.chp.rehearsePend = true → rehModes s.dev = true → rehReady s.dev = true →
      rehFits s.dev = true → packHolds s.dev = false → mib ≤ (recompute (abandonCompaction s.dev)).adm.budget →
    ∃ t, exec .rehearsalPendingStart s = .next t ∧ s.devOnly t ∧ t.dev.chp.mode = .rehearsal
      ∧ t.dev.chp.rehearsePend = false)
  ∧ (∀ (u : Nat) (p : Bool) (s : State), s.dev.chp.mode = .rehearsal → s.dev.est.restWindow = false →
    ∃ t, exec (.rehearsalBurst u p) s = .next t ∧ s.devOnly t
      ∧ t.dev.reh.burstBytes = s.dev.reh.burstBytes
          + (if p then 0 else sumNat ((testBlocks s.dev).map (burstBytes s.dev)))
      ∧ t.dev.reh.burstUj = s.dev.reh.burstUj + (if p then 0 else u)
      ∧ (∀ b, Tab.get 0 t.dev.reh.written b = Tab.get 0 s.dev.reh.written b
          + (if (testBlocks s.dev).contains b = true then burstBytes s.dev b else 0))
      ∧ Dev.Reports { s.dev with reh := t.dev.reh, flash := t.dev.flash, blk := t.dev.blk } t.dev)
  ∧ (∀ (u : Nat) (p : Bool) (s : State), (s.dev.chp.mode ≠ .rehearsal ∨ s.dev.est.restWindow = true) →
    exec (.rehearsalBurst u p) s = .next s)
  ∧ (∀ s : State, s.dev.chp.mode = .rehearsal → testBlocks s.dev = [] → s.dev.reh.burstBytes ≠ 0 →
    ∃ t, exec .rehearsalComplete s = .next t ∧ s.devOnly t ∧ t.dev.chp.mode.settled = true
      ∧ t.dev.adm.eByteMeasured = true
      ∧ t.dev.adm.eByteFj = s.dev.reh.burstUj * 10 ^ 9 / s.dev.reh.burstBytes * 103 / 100
      ∧ t.dev.adm.rateRef = s.dev.reh.burstRate)
  ∧ (∀ s : State,
    ∃ t, exec .ebyteReset s = .next t ∧ s.devOnly t ∧ t.dev.adm.eByteMeasured = false
      ∧ t.dev.adm.eByteFj = dsEByte s.dev.board.blocks * 12 / 10
      ∧ t.dev.reh.storedEByte = none)

/-- An estimator update (R207 to R209): with the pack tracked and no parameter commit pending, the nominal
energy is that of R207, the bound three sigma of R209, and the energy the rest of the device counts on is
their difference, or nothing under a fault of Table 12.5. With the pack not tracked nothing happens. Rest
points (R204, R205): one that the chemistry permits sets every cell's state from its resting voltage and
restarts drift and throughput; one that it does not permit leaves the states; without rest timing it is
nothing. A due rest point opens a window, or calls for a full charge first, only where the host allows it.
Probes (R206): a pulse starts only where one may be injected, of 0.2 C at most; its end records one probe
more and its time constant, and a pulse cut short records nothing. -/
def Obligations.Estimation : Prop :=
  (∀ s : State, tracking s.dev = true → s.dev.est.pending = 0 →
    ∃ t, exec .estimatorUpdate s = .next t ∧ s.devOnly t
      ∧ t.dev.est.eNom = (availableEnergy s.dev).1
      ∧ t.dev.est.sigma3 = sigma3 s.dev (availableEnergy s.dev).1
      ∧ t.dev.est.eCons = (if zeroFaults s.dev then 0 else t.dev.est.eNom - t.dev.est.sigma3)
      ∧ t.dev.est.soc = s.dev.est.soc ∧ t.dev.pkb = s.dev.pkb)
  ∧ (∀ s : State, tracking s.dev = false → exec .estimatorUpdate s = .next s)
  ∧ (∀ (uv : List Nat) (s : State), resting s.dev = true →
      corrects s.dev (leastOf (uv.map (invertOcv s.dev (evalTemp s.dev)))) = true →
    ∃ t, exec (.restPoint uv) s = .next t ∧ s.devOnly t
      ∧ t.dev.est.soc = uv.map (invertOcv s.dev (evalTemp s.dev)) ∧ t.dev.est.restUs = 0
      ∧ t.dev.est.thruPc = 0 ∧ t.dev.est.restHt = s.dev.tmb.ht ∧ t.dev.est.restDue = false
      ∧ Dev.Reports { s.dev with est := t.dev.est, freeCtr := t.dev.freeCtr } t.dev)
  ∧ (∀ (uv : List Nat) (s : State), resting s.dev = true →
      corrects s.dev (leastOf (uv.map (invertOcv s.dev (evalTemp s.dev)))) = false →
    ∃ t, exec (.restPoint uv) s = .next t ∧ s.devOnly t
      ∧ Dev.Reports { s.dev with est := { s.dev.est with
          restOk := false, learnRested := true
          restSoc := leastOf (uv.map (invertOcv s.dev (evalTemp s.dev))) } } t.dev)
  ∧ (∀ (uv : List Nat) (s : State), resting s.dev = false → exec (.restPoint uv) s = .next s)
  ∧ (∀ s : State, tracking s.dev = true →
    ∃ t, exec .restDue s = .next t ∧ s.devOnly t ∧ t.dev.est.restDue = true
      ∧ (bit s.dev.est.ctl 0 = true → lfpMiddle s.dev = false → t.dev.est.restWindow = true)
      ∧ (bit s.dev.est.ctl 0 = true → lfpMiddle s.dev = true → t.dev.est.restCharge = true)
      ∧ (bit s.dev.est.ctl 0 = false → t.dev.est.restWindow = s.dev.est.restWindow)
      ∧ t.dev.est.soc = s.dev.est.soc)
  ∧ (∀ s : State, tracking s.dev = false → exec .restDue s = .next s)
  ∧ (∀ s : State, s.dev.est.restWindow = true →
    exec .restWindowExpiry s = .next { s with dev := { s.dev with est := { s.dev.est with restWindow := false } } })
  ∧ (∀ s : State, s.dev.est.restWindow = false → tracking s.dev = true → s.dev.est.restDue = true →
      bit s.dev.est.ctl 0 = true → lfpMiddle s.dev = false →
    exec .restWindowExpiry s = .next { s with dev := { s.dev with est := { s.dev.est with
      restWindow := true, restCharge := false, probing := false, shareMa := 0 } } })
  ∧ (∀ s : State, s.dev.est.restWindow = false → tracking s.dev = true → s.dev.est.restDue = true →
      bit s.dev.est.ctl 0 = true → lfpMiddle s.dev = true →
    exec .restWindowExpiry s = .next { s with dev := { s.dev with est := { s.dev.est with restCharge := true } } })
  ∧ (∀ s : State, s.dev.est.restWindow = false →
      (tracking s.dev = false ∨ s.dev.est.restDue = false ∨ bit s.dev.est.ctl 0 = false) →
    exec .restWindowExpiry s = .next s)
  ∧ (∀ s : State, mayProbe s.dev = true →
    ∃ t, exec .probePulse s = .next t ∧ s.devOnly t ∧ t.dev.est.probing = true
      ∧ t.dev.est.shareMa ≤ designMah s.dev / 5
      ∧ t.dev = { s.dev with
          est := { s.dev.est with probing := true, shareMa := t.dev.est.shareMa }, freeCtr := t.dev.freeCtr })
  ∧ (∀ s : State, mayProbe s.dev = false → exec .probePulse s = .next s)
  ∧ (∀ (zs zp tau : Nat) (s : State), s.dev.est.probing = true →
    ∃ t, exec (.probePulseEnd zs zp tau) s = .next t ∧ s.devOnly t ∧ t.dev.est.probing = false
      ∧ t.dev.est.shareMa = 0 ∧ t.dev.est.probes.length = s.dev.est.probes.length + 1 ∧ t.dev.est.tau = tau
      ∧ 500 ≤ t.dev.est.zsRatio ∧ t.dev.est.zsRatio ≤ 4000
      ∧ 500 ≤ t.dev.est.zpRatio ∧ t.dev.est.zpRatio ≤ 4000
      ∧ Dev.Reports { s.dev with est := t.dev.est, freeCtr := t.dev.freeCtr } t.dev)
  ∧ (∀ (zs zp tau : Nat) (s : State), s.dev.est.probing = false →
    exec (.probePulseEnd zs zp tau) s = .next s)

/-- A learning cycle (R214, R216): LEARN_START starts it in ARMED or DERATED where the pack is tracked and
fits, and ends with nothing else changed where it does not; the phases follow one another on what their rest
points show, phase 3 drawing C ÷ RATE_DIV at most; the end of phase 4 within the bounds stores the learned
capacity; an abort ends the cycle as non-qualifying with cause 4. -/
def Obligations.LearningCycle : Prop :=
  (∀ (h : Nat) (s : State) (x : Desc) (d : Dev), begin h true 0x48 s.dev = (some x, d) →
      d.chp.mode = .armed ∨ d.chp.mode = .derated →
      d.est.learning = false → tracking d = true → learnFits d = true →
    ∃ t, exec (.learnStart h) s = .next t ∧ s.devOnly t ∧ findDesc t.dev h = none
      ∧ t.dev.est.learning = true ∧ (t.dev.est.learnPhase = 1 ∨ t.dev.est.learnPhase = 2)
      ∧ t.dev.est.restWindow = false
      ∧ Dev.Answers { s.dev with est := t.dev.est, pkb := t.dev.pkb } t.dev)
  ∧ (∀ (h : Nat) (s : State) (x : Desc) (d : Dev), begin h true 0x48 s.dev = (some x, d) →
      (d.est.learning = true ∨ tracking d = false ∨ learnFits d = false
        ∨ (d.chp.mode ≠ .armed ∧ d.chp.mode ≠ .derated)) →
    ∃ t, exec (.learnStart h) s = .next t ∧ s.devOnly t ∧ findDesc t.dev h = none
      ∧ Dev.Answers s.dev t.dev)
  ∧ (∀ s : State, s.dev.est.learning = true → s.dev.est.learnPhase = 1 → s.dev.pkb.chgPhase = .done →
    ∃ t, exec .learnPhaseEnd s = .next t ∧ s.devOnly t ∧ t.dev.est.learnPhase = 2
      ∧ Dev.Reports { s.dev with est := t.dev.est } t.dev)
  ∧ (∀ s : State, s.dev.est.learning = true → s.dev.est.learnPhase = 2 → s.dev.est.learnRested = true →
      90 * socOne ≤ s.dev.est.restSoc * 100 →
    ∃ t, exec .learnPhaseEnd s = .next t ∧ s.devOnly t ∧ t.dev.est.learnPhase = 3
      ∧ t.dev.est.learnTopSoc = s.dev.est.restSoc ∧ t.dev.est.learnPc = 0
      ∧ t.dev.est.shareMa ≤ designMah s.dev / rateDiv s.dev
      ∧ Dev.Reports { s.dev with est := t.dev.est, freeCtr := t.dev.freeCtr } t.dev)
  ∧ (∀ s : State, s.dev.est.learning = true → s.dev.est.learnPhase = 3 →
      weakest s.dev.est * 100 ≤ (learnEnd s.dev : Int) * socOne → rateOk s.dev = true →
    ∃ t, exec .learnPhaseEnd s = .next t ∧ s.devOnly t ∧ t.dev.est.learnPhase = 4
      ∧ t.dev.est.learnPc = s.dev.est.learnPc ∧ t.dev.est.shareMa = 0 ∧ Dev.Reports { s.dev with est := t.dev.est } t.dev)
  ∧ (∀ (s : State) (q : Nat), s.dev.est.learning = true → s.dev.est.learnPhase = 4 →
      s.dev.est.learnRested = true → s.dev.est.restSoc * 100 ≤ 15 * socOne →
      q = learnedNow { s.dev with est := { s.dev.est with learnEndSoc := s.dev.est.restSoc } } →
      designMah s.dev * 50 ≤ q * 100 → q * 100 ≤ designMah s.dev * 110 →
    ∃ t, exec .learnPhaseEnd s = .next t ∧ s.devOnly t ∧ t.dev.est.learnPhase = 5
      ∧ t.dev.est.learnedMah = q ∧ t.dev.est.learnedHt = s.dev.tmb.ht ∧ t.dev.est.learnResult = 1)
  ∧ (∀ s : State, s.dev.est.learning = true → s.dev.est.learnPhase ≠ 5 →
    ∃ t, exec .learnAbort s = .next t ∧ s.devOnly t ∧ t.dev.est.learning = false
      ∧ t.dev.est.learnResult = 2 ∧ t.dev.est.learnCause = 4
      ∧ t.dev.est.learnedMah = s.dev.est.learnedMah
      ∧ Dev.Reports { s.dev with est := t.dev.est } t.dev)
  ∧ (∀ s : State, s.dev.est.learning = false →
    exec .learnPhaseEnd s = .next s ∧ exec .learnAbort s = .next s)

/-- Insertion (R222, R213): a seated pack is debounced; its presence is counted, its descriptor read and
checked with the switch open; once settled it is in service behind a closed switch with a first estimate
from its resting cells, or, with a descriptor or voltage fault, the switch stays open. -/
def Obligations.PackInsertion : Prop :=
  (∀ s : State, s.dev.pins.packPresN = true → s.dev.chp.mode ≠ .dark →
    ∃ t, exec .packSeated s = .next t ∧ s.devOnly t
      ∧ t.dev.pins = { s.dev.pins with packPresN := false } ∧ t.dev.pkb.bay = .debouncing
      ∧ t.dev.pkb.switchClosed = s.dev.pkb.switchClosed
      ∧ Dev.Reports { s.dev with pins := t.dev.pins, pkb := t.dev.pkb } t.dev)
  ∧ (∀ s : State, s.dev.pins.packPresN = false → exec .packSeated s = .next s)
  ∧ (∀ (desc : List Byte) (mv : Nat) (s : State), s.dev.pkb.bay = .debouncing →
      s.dev.pins.packPresN = false → s.dev.chp.mode ≠ .dark →
    ∃ t, exec (.packPresenceDetect desc mv) s = .next t ∧ s.devOnly t ∧ t.dev.pkb.bay = .settling
      ∧ t.dev.pkb.switchClosed = false ∧ t.dev.pkb.desc = desc.take 256
      ∧ t.dev.pkb.descOk = descGood desc ∧ (descGood desc = false → faultOn t.dev 0 = true)
      ∧ t.dev.pkb.insertions = satAdd 8 s.dev.pkb.insertions 1)
  ∧ (∀ (desc : List Byte) (mv : Nat) (s : State),
      (s.dev.pkb.bay ≠ .debouncing ∨ s.dev.pins.packPresN = true ∨ s.dev.chp.mode = .dark) →
    exec (.packPresenceDetect desc mv) s = .next s)
  ∧ (∀ (uv : List Nat) (s : State), s.dev.pkb.bay = .settling → s.dev.chp.mode ≠ .dark →
      faultOn s.dev 0 = false → faultOn s.dev 1 = false →
    ∃ t, exec (.packSettleExpiry uv) s = .next t ∧ s.devOnly t ∧ t.dev.pkb.bay = .inService
      ∧ t.dev.pkb.switchClosed = true ∧ t.dev.est.valid = true
      ∧ t.dev.est.soc = uv.map (invertOcv s.dev (evalTemp s.dev)))
  ∧ (∀ (uv : List Nat) (s : State), s.dev.pkb.bay = .settling → s.dev.chp.mode ≠ .dark →
      (faultOn s.dev 0 = true ∨ faultOn s.dev 1 = true) →
    ∃ t, exec (.packSettleExpiry uv) s = .next t ∧ s.devOnly t ∧ t.dev.pkb.bay = .faultOpen
      ∧ Dev.Reports { s.dev with pkb := { s.dev.pkb with bay := .faultOpen } } t.dev)

/-- Removal (R223 to R225): a press in a mode that handles none, or while the bay drains, only counts; the
button opens and cancels the window in which a second press counts; its expiry and PKB_REMOVE start the
drain, in a mode that admits by way of WRITE_THROUGH; the drain ends with the switch open; PKB_CLOSE and a
press insert a removable pack again; a pack pulled from behind a closed switch is a surprise that puts an
admitting device in WRITE_THROUGH, and one pulled from behind an open switch ends its record and nothing
more. -/
def Obligations.PackRemoval : Prop :=
  (∀ s : State, bayModes s.dev = true → bit s.dev.pkb.ctl 0 = true → s.dev.pkb.bay = .inService →
    ∃ t, exec .attentionButtonPress s = .next t ∧ s.devOnly t
      ∧ Dev.Reports { s.dev with pkb := { s.dev.pkb with bay := .window } } t.dev)
  ∧ (∀ s : State, bayModes s.dev = true → bit s.dev.pkb.ctl 0 = true → s.dev.pkb.bay = .window →
    ∃ t, exec .attentionButtonPress s = .next t ∧ s.devOnly t
      ∧ Dev.Reports { s.dev with pkb := { s.dev.pkb with
          bay := .inService, cancels := satAdd 4 s.dev.pkb.cancels 1 } } t.dev)
  ∧ (∀ s : State, s.dev.pkb.bay = .window → bayModes s.dev = true →
    ∃ t, exec .attentionWindowExpiry s = .next t ∧ s.devOnly t ∧ t.dev.pkb.bay = .draining
      ∧ (s.dev.chp.mode.admits = true → t.dev.chp.mode = .writeThrough)
      ∧ (s.dev.chp.mode.admits = false →
          Dev.Reports { s.dev with pkb := { s.dev.pkb with bay := .draining } } t.dev))
  ∧ (∀ s : State, s.dev.pkb.bay = .window → bayModes s.dev = false →
    ∃ t, exec .attentionWindowExpiry s = .next t ∧ s.devOnly t
      ∧ Dev.Reports { s.dev with pkb := { s.dev.pkb with bay := .inService } } t.dev)
  ∧ (∀ s : State, s.dev.pkb.bay ≠ .window → exec .attentionWindowExpiry s = .next s)
  ∧ (∀ s : State, s.dev.chp.mode ≠ .dark → (bayModes s.dev = false ∨ s.dev.pkb.bay = .draining) →
    exec .attentionButtonPress s = .next { s with dev := { s.dev with
      pkb := { s.dev.pkb with ignored := satAdd 4 s.dev.pkb.ignored 1 } } })
  ∧ (∀ s : State, s.dev.pkb.bay = .inService ∨ s.dev.pkb.bay = .window → bayModes s.dev = true →
    ∃ t, exec .pkbRemove s = .next t ∧ s.devOnly t ∧ t.dev.pkb.bay = .draining
      ∧ (s.dev.chp.mode.admits = true → t.dev.chp.mode = .writeThrough)
      ∧ (s.dev.chp.mode.admits = false →
          Dev.Reports { s.dev with pkb := { s.dev.pkb with bay := .draining } } t.dev))
  ∧ (∀ s : State, s.dev.pkb.bay = .draining → bayModes s.dev = true → unstagedAll s.dev = 0 →
    ∃ t, exec .orderlyDrainDone s = .next t ∧ s.devOnly t ∧ t.dev.pkb.bay = .removable
      ∧ t.dev.pkb.switchClosed = false ∧ t.dev.est.eCons = 0
      ∧ t.dev.pkb.orderly = satAdd 8 s.dev.pkb.orderly 1)
  ∧ (∀ s : State, (unstagedAll s.dev ≠ 0 ∨ s.dev.pkb.bay ≠ .draining ∨ bayModes s.dev = false) →
    exec .orderlyDrainDone s = .next s)
  ∧ (∀ s : State, s.dev.pkb.bay = .removable → s.dev.pins.packPresN = false → bayModes s.dev = true →
    ∃ t, exec .pkbClose s = .next t ∧ s.devOnly t ∧ t.dev.pkb.bay = .settling
      ∧ t.dev.pkb.desc = s.dev.pkb.desc.take 256)
  ∧ (∀ s : State, (s.dev.pkb.bay ≠ .removable ∨ s.dev.pins.packPresN = true ∨ bayModes s.dev = false) →
    exec .pkbClose s = .next s)
  ∧ (∀ s : State, ((s.dev.pkb.bay ≠ .inService ∧ s.dev.pkb.bay ≠ .window) ∨ bayModes s.dev = false) →
    exec .pkbRemove s = .next s)
  ∧ (∀ s : State, s.dev.pins.packPresN = false → s.dev.pkb.switchClosed = true →
      s.dev.chp.mode.admits = true →
    ∃ t, exec .packSurpriseRemoval s = .next t ∧ t.pending = s.pending ∧ t.dev.chp.mode = .writeThrough
      ∧ t.dev.pins.packPresN = true ∧ t.dev.pkb.bay = .absent
      ∧ t.dev.pkb.surprise = satAdd 8 s.dev.pkb.surprise 1)
  ∧ (∀ s : State, s.dev.pins.packPresN = false → s.dev.pkb.switchClosed = true → bayModes s.dev = true →
    ∃ t, exec .packSurpriseRemoval s = .next t ∧ t.pending = s.pending ∧ t.dev.pins.packPresN = true
      ∧ t.dev.pkb.bay = .absent ∧ t.dev.pkb.surprise = satAdd 8 s.dev.pkb.surprise 1)
  ∧ (∀ s : State, (s.dev.pins.packPresN = true ∨ s.dev.pkb.switchClosed = false) →
    exec .packSurpriseRemoval s = .next s)
  ∧ (∀ s : State, s.dev.pins.packPresN = false → s.dev.pkb.switchClosed = false → s.dev.chp.mode ≠ .dark →
    ∃ t, exec .packRemovedSwitchOpen s = .next t ∧ s.devOnly t ∧ t.dev.pins.packPresN = true
      ∧ t.dev.pkb.bay = .absent ∧ t.dev.pkb.surprise = s.dev.pkb.surprise ∧ t.dev.chp = s.dev.chp)

/-- Samples and charger faults (R197, R203, R226, R228): a sample of a tracked pack moves every cell's state
by the charge it carries, offset taken off, and counts it; no pack, no effect. The charger's timeout raises
CHG_TIMEOUT and stops the charge, and a clear takes off the bits it names. -/
def Obligations.PackSamples : Prop :=
  (∀ (r : PackReading) (s : State), s.dev.pins.packPresN = false → s.dev.chp.mode.settled = true →
      s.dev.pkb.bay = .inService → s.dev.pkb.switchClosed = true → s.dev.est.valid = true →
      s.dev.pkb.descOk = true → r.switchAgrees = true → overLimit r s.dev = false →
      overRange r s.dev = false →
    ∃ t, exec (.packSample r) s = .next t ∧ t.pending = s.pending ∧ t.dev.pkb.vPack = r.packMv
      ∧ t.dev.est.cellUv = r.cellsUv ∧ t.dev.est.ntc1 = r.ntc1 ∧ t.dev.est.ntc2 = r.ntc2
      ∧ t.dev.est.soc = s.dev.est.soc.map (fun x =>
          x - socOf s.dev ((r.currentUa - s.dev.est.offset) * r.deltaUs))
      ∧ t.dev.est.thruPc = s.dev.est.thruPc + ((r.currentUa - s.dev.est.offset) * r.deltaUs).natAbs
      ∧ t.dev.est.restUs = s.dev.est.restUs + r.deltaUs ∧ t.dev.pkb.switchClosed = true)
  ∧ (∀ (r : PackReading) (s : State), s.dev.pins.packPresN = true →
    exec (.packSample r) s = .next s)
  ∧ (∀ s : State, s.dev.pkb.chgPhase = .current ∨ s.dev.pkb.chgPhase = .voltage →
    ∃ t, exec .chgTimeout s = .next t ∧ s.devOnly t ∧ t.dev.pkb.chgPhase = .off ∧ t.dev.pkb.chgMa = 0
      ∧ faultOn t.dev 12 = true)
  ∧ (∀ s : State, s.dev.pkb.chgPhase ≠ .current → s.dev.pkb.chgPhase ≠ .voltage →
    exec .chgTimeout s = .next s)
  ∧ (∀ (w : W32) (s : State),
    ∃ t, exec (.pkbFaultClear w) s = .next t ∧ s.devOnly t ∧ t.dev.pkb.fault = s.dev.pkb.fault &&& ~~~w
      ∧ (bit w 12 = true → faultOn t.dev 12 = false)
      ∧ (bit w 12 = false → t.dev = { s.dev with pkb := t.dev.pkb }))

/-- SERVICE (R40, rows 24 and 25): with everything staged the entry is made at once and completes; with data
unstaged it is refused and changes nothing else, or, with DRAIN, waits for the staging. The exit with REBOOT
goes to BOOT, and without it, with the address map unchanged and no transfer, to a settled mode.
PLANNED_CURTAIN and FN_RESET (R41, R267): the curtain starts as a planned one with the link kept; the reset
leaves the function without rings, and one of an absent function changes nothing else. -/
def Obligations.AdminModes : Prop :=
  (∀ (h : Nat) (s : State) (x : Desc) (d : Dev), begin h true 0x49 s.dev = (some x, d) →
      h ≠ 0 → d.chp.mode.settled = true →
      d.svc.entering = 0 → unstagedAll d = 0 → anyStaging d = false → bit x.entry.flags 4 = false →
    ∃ t, exec (.serviceEnter h) s = .next t ∧ s.devOnly t ∧ t.dev.chp.mode = .service
      ∧ t.dev.chp.cause = 0x16 ∧ findDesc t.dev h = none)
  ∧ (∀ (h : Nat) (s : State) (x : Desc) (d : Dev), begin h true 0x49 s.dev = (some x, d) →
      h ≠ 0 → d.svc.entering = 0 → (unstagedAll d ≠ 0 ∨ anyStaging d = true) → bit x.entry.flags 4 = false →
    ∃ t, exec (.serviceEnter h) s = .next t ∧ s.devOnly t ∧ Dev.Answers s.dev t.dev
      ∧ findDesc t.dev h = none)
  ∧ (∀ (h : Nat) (s : State) (x : Desc) (d : Dev), begin h true 0x49 s.dev = (some x, d) →
      h ≠ 0 → d.chp.mode.settled = true →
      d.svc.entering = 0 → (unstagedAll d ≠ 0 ∨ anyStaging d = true) → bit x.entry.flags 4 = true →
    ∃ t, exec (.serviceEnter h) s = .next t ∧ s.devOnly t ∧ t.dev.svc.entering = h
      ∧ t.dev.svc.drain = true ∧ t.dev.chp = s.dev.chp)
  ∧ (∀ (h : Nat) (s : State) (x : Desc) (d : Dev), begin h true 0x4A s.dev = (some x, d) →
      d.chp.mode = .service → bit x.entry.flags 4 = true →
    ∃ t, exec (.serviceExit h) s = .next t ∧ s.devOnly t ∧ t.dev.chp.mode = .boot
      ∧ t.dev.chp.cause = 0x17 ∧ t.dev.drc.mapNow = s.dev.drc.mapNext
      ∧ t.dev.chp.sealRetained = (s.dev.drc.mapNext = s.dev.drc.mapNow && !s.dev.svc.xferDone
          && !xferDest s.dev))
  ∧ (∀ (h : Nat) (s : State) (x : Desc) (d : Dev), begin h true 0x4A s.dev = (some x, d) →
      d.chp.mode = .service → bit x.entry.flags 4 = false → s.dev.drc.mapNext = s.dev.drc.mapNow →
      s.dev.svc.xferDone = false → xferDest s.dev = false →
    ∃ t, exec (.serviceExit h) s = .next t ∧ s.devOnly t ∧ t.dev.chp.mode.settled = true)
  ∧ (∀ (h : Nat) (s : State) (x : Desc) (d : Dev), begin h true 0x43 s.dev = (some x, d) →
      d.chp.mode.settled = true ∨ d.chp.mode = .rehearsal →
    ∃ t, exec (.plannedCurtain h) s = .next t ∧ s.devOnly t ∧ t.dev.chp.mode = .curtain
      ∧ t.dev.cur.plannedFlag = true ∧ t.dev.cur.linkKept = true ∧ t.dev.cur.handle = h
      ∧ t.dev.cur.after = field x.entry.p0 0 2)
  ∧ (∀ (h : Nat) (s : State) (x : Desc) (d : Dev), begin h true 0x44 s.dev = (some x, d) →
      fnPresent d (field x.entry.p0 0 6) = true →
    ∃ t, exec (.fnReset h) s = .next t ∧ s.devOnly t ∧ findDesc t.dev h = none
      ∧ (getFn t.dev (field x.entry.p0 0 6)).sq = [] ∧ (getFn t.dev (field x.entry.p0 0 6)).dbErrors = 0)
  ∧ (∀ (h : Nat) (s : State) (x : Desc) (d : Dev), begin h true 0x44 s.dev = (some x, d) →
      fnPresent d (field x.entry.p0 0 6) = false →
    ∃ t, exec (.fnReset h) s = .next t ∧ s.devOnly t ∧ findDesc t.dev h = none ∧ Dev.Answers s.dev t.dev)

/-- Parameter sets (R201, R217, Table 11.4): a set that passes its checks is the shadow and nothing more,
and a load waits while no tag is free (R239); a commit waits for the estimator's update, and ends at once
where WARN is asserted or there is no shadow; the update puts the shadow in force; a read writes the set out
and takes back the mark of new learned values. -/
def Obligations.ParameterSets : Prop :=
  (∀ (h : Nat) (bs : List Byte) (s : State) (x : Desc) (d : Dev), begin h true 0x45 s.dev = (some x, d) →
      freeTag d ≠ none → d.pkb.desc ≠ [] → setGood d (bs.take 2048) = true →
      bytesAt (bs.take 2048) 0x008 8 = packSerial d →
    ∃ t, exec (.packParamLoad h (.ok bs)) s = .next t ∧ s.devOnly t ∧ findDesc t.dev h = none
      ∧ Dev.Answers { s.dev with est := { s.dev.est with shadow := some (bs.take 2048) } } t.dev)
  ∧ (∀ (h : Nat) (data : HostData) (s : State) (x : Desc) (d : Dev), begin h true 0x45 s.dev = (some x, d) →
      data = .timeout ∨ data = .error → freeTag d ≠ none →
    ∃ t, exec (.packParamLoad h data) s = .next t ∧ s.devOnly t ∧ findDesc t.dev h = none
      ∧ Dev.Answers { s.dev with ept := { s.dev.ept with timeouts := t.dev.ept.timeouts } } t.dev
      ∧ t.dev.ept.timeouts
          = (if data = .timeout then satAdd 32 s.dev.ept.timeouts 1 else s.dev.ept.timeouts))
  ∧ (∀ (h : Nat) (data : HostData) (s : State) (x : Desc) (d : Dev), begin h true 0x45 s.dev = (some x, d) →
      freeTag d = none → exec (.packParamLoad h data) s = .next { s with dev := d })
  ∧ (∀ (h : Nat) (s : State) (x : Desc) (d : Dev), begin h true 0x46 s.dev = (some x, d) →
      d.spw.warn = false → d.est.shadow.isSome = true → d.est.learning = false → d.est.pending = 0 →
    ∃ t, exec (.packParamCommit h) s = .next t ∧ s.devOnly t
      ∧ Dev.Answers { s.dev with est := { s.dev.est with
          pending := h, paramSeq := (s.dev.est.paramSeq + 1) % 256 } } t.dev)
  ∧ (∀ (h : Nat) (s : State) (x : Desc) (d : Dev), begin h true 0x46 s.dev = (some x, d) →
      d.spw.warn = true ∨ d.est.shadow = none →
    ∃ t, exec (.packParamCommit h) s = .next t ∧ s.devOnly t ∧ findDesc t.dev h = none
      ∧ t.dev.est.pending = s.dev.est.pending ∧ t.dev.est.params = s.dev.est.params)
  ∧ (∀ (s : State) (bs : List Byte), tracking s.dev = true → s.dev.est.pending ≠ 0 →
      s.dev.est.shadow = some bs →
    ∃ t, exec .estimatorUpdate s = .next t ∧ s.devOnly t ∧ t.dev.est.params = some bs
      ∧ t.dev.est.shadow = none ∧ t.dev.est.pending = 0 ∧ t.dev.est.outcome = 1)
  ∧ (∀ (h : Nat) (s : State) (x : Desc) (d : Dev), begin h true 0x47 s.dev = (some x, d) → d.pkb.desc ≠ [] →
    ∃ t, exec (.packParamRead h) s = .next t ∧ s.devOnly t ∧ findDesc t.dev h = none
      ∧ Dev.Answers { s.dev with est := { s.dev.est with learnNew := false } } t.dev
      ∧ ∃ cells, Out.hostWrite 0 x.entry.haddr 2048 cells false ∈ t.dev.outbox)

/-- Arming (R316): key 1 at any point half arms a port, key 2 then arms it, and any other value, or key 2 on
a port that is not half armed, disarms it and is counted. An armed port takes a command code; while a port
is not armed a write to FLC_CMD, FLC_ADDR or FLC_CTL is ignored and counted, and no command of the table
runs on it. An endpoint reset leaves every port as it is. -/
def Obligations.PortArming : Prop :=
  (∀ (c : Nat) (w : W32) (s : State), portPresent s.dev c = true → field w 0 16 = 0x7E1B →
    exec (.flcKey c w) s = .next { s with dev := updCell c (fun k => { k with arm := .half }) s.dev })
  ∧ (∀ (c : Nat) (w : W32) (s : State), portPresent s.dev c = true → field w 0 16 = 0x81E4 →
      (getCell s.dev c).arm = .half →
    exec (.flcKey c w) s = .next { s with dev := updCell c (fun k => { k with arm := .armed }) s.dev })
  ∧ (∀ (c : Nat) (w : W32) (s : State), portPresent s.dev c = true → field w 0 16 ≠ 0x7E1B →
      (field w 0 16 ≠ 0x81E4 ∨ (getCell s.dev c).arm ≠ .half) →
    exec (.flcKey c w) s = .next { s with dev := updCell c (fun k => { k with
      arm := .disarmed, badKeys := satAdd 16 k.badKeys 1 }) s.dev })
  ∧ (∀ (c : Nat) (w : W32) (s : State), portPresent s.dev c = false → exec (.flcKey c w) s = .next s)
  ∧ (∀ (w : RegWrite) (c : Nat) (s : State), linkUp s.dev = true → w.size = .whole → w.reg = .flcCmd c →
      portPresent s.dev c = true → (getCell s.dev c).arm = .armed →
    ∃ t, exec (.registerWrite w) s = .next t ∧ s.devOnly t
      ∧ Dev.Reports (updCell c (fun k => { k with cmd := w.value.truncate 32 &&& 0xFF }) s.dev) t.dev)
  ∧ (∀ (w : RegWrite) (c : Nat) (s : State), linkUp s.dev = true → portPresent s.dev c = true →
      (getCell s.dev c).arm ≠ .armed →
      ((w.size = .whole ∧ w.reg = .flcCmd c) ∨ (w.size = .whole ∧ w.reg = .flcAddr c)
        ∨ (w.size = .lowerHalf ∧ w.reg = .flcAddr c)) →
    ∃ t, exec (.registerWrite w) s = .next t ∧ s.devOnly t
      ∧ Dev.Reports (updCell c (fun k => { k with ignored := satAdd 16 k.ignored 1 }) s.dev) t.dev)
  ∧ (∀ (c : Nat) (s : State), portPresent s.dev c = true → (getCell s.dev c).arm ≠ .armed →
    exec (.programSeg c) s = .next { s with dev := updCell c (fun k => { k with ignored := satAdd 16 k.ignored 1 }) s.dev }
    ∧ exec (.loadTlc c) s = .next { s with dev := updCell c (fun k => { k with ignored := satAdd 16 k.ignored 1 }) s.dev }
    ∧ exec (.next c) s = .next { s with dev := updCell c (fun k => { k with ignored := satAdd 16 k.ignored 1 }) s.dev })
  ∧ (∀ (c : Nat) (s : State), (getCell s.dev c).arm ≠ .armed →
    exec (.readSeg c) s = .next s ∧ exec (.readSpare c) s = .next s ∧ exec (.readRaw c) s = .next s
    ∧ exec (.creadUnit c) s = .next s ∧ exec (.creadTargets c) s = .next s ∧ exec (.creadStop c) s = .next s
    ∧ exec (.eraseUnit c) s = .next s ∧ exec (.readId c) s = .next s)
  ∧ (∀ (k : ResetCause) (s t : State), exec (.endpointReset k) s = .next t → t.dev.cells = s.dev.cells)

/-- The port commands (R317 to R321, R324): with the port armed for the command and free, one that passes
the checks of its start executes, one that fails a check is done at once with that result, and one whose
block or target is not ready is queued; each disarms the port. CREAD_STOP ends a continuous read. -/
def Obligations.PortCommands : Prop :=
  (∀ (c : Nat) (s : State), portFree s.dev c 0x01 = true →
    ∃ t, exec (.readSeg c) s = .next t ∧ PortRuns 0x01 c s t)
  ∧ (∀ (c : Nat) (s : State), portFree s.dev c 0x02 = true →
    ∃ t, exec (.readSpare c) s = .next t ∧ PortRuns 0x02 c s t)
  ∧ (∀ (c : Nat) (s : State), portFree s.dev c 0x03 = true →
    ∃ t, exec (.readRaw c) s = .next t ∧ PortRuns 0x03 c s t)
  ∧ (∀ (c : Nat) (s : State), portFree s.dev c 0x04 = true →
    ∃ t, exec (.creadUnit c) s = .next t ∧ PortRuns 0x04 c s t)
  ∧ (∀ (c : Nat) (s : State), portFree s.dev c 0x05 = true →
    ∃ t, exec (.creadTargets c) s = .next t ∧ PortRuns 0x05 c s t)
  ∧ (∀ (c : Nat) (s : State), portFree s.dev c 0x10 = true →
    ∃ t, exec (.programSeg c) s = .next t ∧ PortRuns 0x10 c s t)
  ∧ (∀ (c : Nat) (s : State), portFree s.dev c 0x11 = true →
    ∃ t, exec (.loadTlc c) s = .next t ∧ PortRuns 0x11 c s t)
  ∧ (∀ (c : Nat) (s : State), portFree s.dev c 0x20 = true →
    ∃ t, exec (.eraseUnit c) s = .next t ∧ PortRuns 0x20 c s t)
  ∧ (∀ (c : Nat) (s : State), portFree s.dev c 0x30 = true →
    ∃ t, exec (.readId c) s = .next t ∧ PortRuns 0x30 c s t)
  ∧ (∀ (c : Nat) (s : State), portPresent s.dev c = true → (getCell s.dev c).arm = .armed →
      field (getCell s.dev c).cmd 0 8 = 0x06 → (getCell s.dev c).port = .reading →
      portWaits s.dev c 0x06 (getCell s.dev c).addr = false →
      startResult s.dev c 0x06 (getCell s.dev c).addr = 0 →
    ∃ t, exec (.creadStop c) s = .next t ∧ s.devOnly t ∧ (getCell t.dev c).port = .done
      ∧ (getCell t.dev c).result = 1 ∧ (getCell t.dev c).left = 0
      ∧ Dev.Reports { s.dev with cells := t.dev.cells } t.dev)

/-- The die's answers (R317 to R322, R327), where the block is not powered down by a fence: a read that
comes back corrected leaves its data ready and its port done; a programmed segment counts, and the unit's
next segment is the one after it; a failed program ends the command and counts on its target, and a failed
erase ends it too; a continuous read stops after each segment until NEXT. -/
def Obligations.PortOperations : Prop :=
  (∀ (c load : Nat) (data : List Byte) (s : State), portPresent s.dev c = true →
      (getCell s.dev c).port = .executing →
      ((getCell s.dev c).op = 1 ∨ (getCell s.dev c).op = 2 ∨ (getCell s.dev c).op = 3) →
      eraseOf s.dev c (aTarget (getCell s.dev c).addr) = none →
    ∃ t, exec (.flashOperationDone c (.ok load data)) s = .next t ∧ s.devOnly t
      ∧ (getCell t.dev c).port = .done ∧ (getCell t.dev c).ready = true
      ∧ (getCell t.dev c).eccLoad = load
      ∧ (getCell t.dev c).result
          = (if openIntent s.dev c (aTarget (getCell s.dev c).addr) (aUnit (getCell s.dev c).addr)
             then 5 else 1)
      ∧ Dev.Reports { s.dev with cells := t.dev.cells } t.dev)
  ∧ (∀ (c load : Nat) (data : List Byte) (s : State), portPresent s.dev c = true →
      (getCell s.dev c).port = .executing →
      (getCell s.dev c).op = 0x10 →
    ∃ t, exec (.flashOperationDone c (.ok load data)) s = .next t ∧ s.devOnly t
      ∧ (getCell t.dev c).port = .done ∧ (getCell t.dev c).result = 1
      ∧ nextSegment t.dev c (aTarget (getCell s.dev c).addr) (aUnit (getCell s.dev c).addr)
          = aSegment (getCell s.dev c).addr + 1
      ∧ Dev.Reports { s.dev with cells := t.dev.cells, flash := t.dev.flash } t.dev)
  ∧ (∀ (c : Nat) (s : State), portPresent s.dev c = true →
      (getCell s.dev c).port = .executing → (getCell s.dev c).op = 0x10 →
    ∃ t, exec (.flashOperationDone c .programFail) s = .next t ∧ s.devOnly t
      ∧ (getCell t.dev c).port = .done ∧ (getCell t.dev c).result = 7
      ∧ Tab.get 0 (getCell t.dev c).fails (aTarget (getCell s.dev c).addr)
          = satAdd 16 (Tab.get 0 (getCell s.dev c).fails (aTarget (getCell s.dev c).addr)) 1
      ∧ Dev.Reports { s.dev with cells := t.dev.cells } t.dev)
  ∧ (∀ (c : Nat) (s : State), portPresent s.dev c = true → (getCell s.dev c).port = .executing →
      (getCell s.dev c).op = 0x20 →
    ∃ t, exec (.flashOperationDone c .eraseFail) s = .next t ∧ s.devOnly t
      ∧ (getCell t.dev c).port = .done ∧ (getCell t.dev c).result = 8
      ∧ eraseOf t.dev c (aTarget (getCell s.dev c).addr) = none
      ∧ Dev.Reports { s.dev with cells := t.dev.cells } t.dev)
  ∧ (∀ (c load : Nat) (data : List Byte) (s : State), portPresent s.dev c = true →
      (getCell s.dev c).port = .executing → (getCell s.dev c).op = 0x30 →
      eraseOf s.dev c (aTarget (getCell s.dev c).addr) = none →
    ∃ t, exec (.flashOperationDone c (.ok load data)) s = .next t ∧ s.devOnly t
      ∧ (getCell t.dev c).port = .done ∧ (getCell t.dev c).ready = true ∧ (getCell t.dev c).result = 1
      ∧ Dev.Reports { s.dev with cells := t.dev.cells } t.dev)
  ∧ (∀ (c : Nat) (o : DieOutcome) (s : State), (portPresent s.dev c = false
        ∨ ((getCell s.dev c).port ≠ .executing ∧ (getCell s.dev c).port ≠ .queued)) →
    exec (.flashOperationDone c o) s = .next s)
  ∧ (∀ (c load : Nat) (data : List Byte) (n : W64) (s : State), portPresent s.dev c = true →
      (getCell s.dev c).port = .executing →
      ((getCell s.dev c).op = 4 ∨ (getCell s.dev c).op = 5) → (getCell s.dev c).index = 0 →
      (getCell s.dev c).left = 0 → 1 < aLen (getCell s.dev c).addr →
      creadNext (getCell s.dev c).op (getCell s.dev c).addr = some n →
      eraseOf s.dev c (aTarget (getCell s.dev c).addr) = none →
    ∃ t, exec (.flashOperationDone c (.ok load data)) s = .next t ∧ s.devOnly t
      ∧ (getCell t.dev c).port = .reading ∧ (getCell t.dev c).nextAddr = n
      ∧ (getCell t.dev c).left = aLen (getCell s.dev c).addr - 1)
  ∧ (∀ (c : Nat) (s : State), portPresent s.dev c = true → (getCell s.dev c).arm = .armed →
      (getCell s.dev c).port = .reading → (getCell s.dev c).left ≠ 0 →
    exec (.next c) s = .next { s with dev := updCell c (fun k => { k with
      port := .executing, ready := false, index := k.index + 1 }) s.dev })

/-- ROM service reads (R328, R329): each ends its command and changes nothing but reports, descriptors and
free values; with room and alignment, and its object there, it writes that object's bytes to HADDR. Firmware
twins (R330): a chunk goes into the twin that is not running, which is then not valid, and the running twin
stands; a selection adds one selector entry for that twin where its image verifies, and changes nothing
where it does not. A chunk whose buffer does not read ends the command, and it waits while no tag is free
(R239, R240). -/
def Obligations.RomService : Prop :=
  (∀ (h : Nat) (s : State) (x : Desc) (d : Dev), romBegin h 0x01 s.dev = (some x, d) →
    ∃ t, exec (.traceTail h) s = .next t ∧ RomAnswers h s t
      ∧ (65552 ≤ x.entry.hlen → x.entry.haddr % 4 = 0 →
          romWrite x 0 (tailRing d.obs.tail ++ leBytes 4 0 ++ leBytes 4 (32 * d.obs.tail.length)
            ++ leBytes 8 (oldestHt d.obs.tail)) ∈ t.dev.outbox))
  ∧ (∀ (h : Nat) (s : State) (x : Desc) (d : Dev), romBegin h 0x02 s.dev = (some x, d) →
    ∃ t, exec (.faults h) s = .next t ∧ RomAnswers h s t
      ∧ (64 * (allFaults d).length ≤ x.entry.hlen → x.entry.haddr % 4 = 0 →
          romWrite x 0 ((allFaults d).flatMap faultBytes) ∈ t.dev.outbox))
  ∧ (∀ (h : Nat) (s : State) (x : Desc) (d : Dev), romBegin h 0x03 s.dev = (some x, d) →
    ∃ t, exec (.book h) s = .next t ∧ RomAnswers h s t
      ∧ ∀ (k : Book) (r : Rec), 131200 ≤ x.entry.hlen → x.entry.haddr % 4 = 0 →
          bookAt d (x.entry.p1 % 8) (x.entry.p1 / 256 % 2 ^ 24) = some (k, r) →
          romWrite x 0 (recHead d r ++ bookBody k) ∈ t.dev.outbox)
  ∧ (∀ (h : Nat) (s : State) (x : Desc) (d : Dev), romBegin h 0x04 s.dev = (some x, d) →
    ∃ t, exec (.vault h) s = .next t ∧ RomAnswers h s t
      ∧ (populated d (x.entry.p1 % 8) = true → 128 * (keptVault d).length ≤ x.entry.hlen → x.entry.haddr % 4 = 0 →
          romWrite x 0 ((keptVault d).flatMap vaultBytes) ∈ t.dev.outbox))
  ∧ (∀ (h : Nat) (s : State) (x : Desc) (d : Dev), romBegin h 0x05 s.dev = (some x, d) →
    ∃ t, exec (.anchor h) s = .next t ∧ RomAnswers h s t
      ∧ (populated d (x.entry.p1 % 8) = true → 64 * (anchorsOf d (x.entry.p1 % 8)).length ≤ x.entry.hlen →
          x.entry.haddr % 4 = 0 → romWrite x 0 (anchorsOf d (x.entry.p1 % 8)).flatten ∈ t.dev.outbox))
  ∧ (∀ (h : Nat) (s : State) (x : Desc) (d : Dev), romBegin h 0x06 s.dev = (some x, d) →
    ∃ t, exec (.selector h) s = .next t ∧ RomAnswers h s t
      ∧ (128 ≤ x.entry.hlen → x.entry.haddr % 4 = 0 →
          romWrite x 0 (((newestSelector d 0).map selectorBytes).getD (zeros 64)
            ++ ((newestSelector d 1).map selectorBytes).getD (zeros 64)) ∈ t.dev.outbox))
  ∧ (∀ (h : Nat) (s : State) (x : Desc) (d : Dev), romBegin h 0x07 s.dev = (some x, d) →
    ∃ t, exec (.privSeg h) s = .next t ∧ RomAnswers h s t
      ∧ (65536 ≤ x.entry.hlen → x.entry.haddr % 4 = 0 → aUnit (BitVec.ofNat 64 x.entry.p1) = 341 →
          aMode (BitVec.ofNat 64 x.entry.p1) = 2 → aSegment (BitVec.ofNat 64 x.entry.p1) < 256 →
          portPresent d (field (BitVec.ofNat 64 x.entry.p1 : W64) 42 6) = true →
          ∃ bs, bs.length = 65536 ∧ romWrite x 0 bs ∈ t.dev.outbox))
  ∧ (∀ (h : Nat) (bs : List Byte) (s : State) (x : Desc) (d : Dev) (r : Rec) (p : Place),
      romBegin h 0x08 s.dev = (some x, d) → freeTag d ≠ none →
      locate d (x.entry.p1 % 8) (bs.take 32) = some (r, p) →
      (recHead d r).length + r.bytes ≤ x.entry.hlen → x.entry.haddr % 4 = 0 →
      (recHead d r).length ≤ 4096 → r.bytes ≤ 16777216 →
    ∃ t, exec (.record h (.ok bs)) s = .next t ∧ s.devOnly t ∧ findDesc t.dev h = none
      ∧ Dev.Answers s.dev t.dev ∧ romWrite x 32 (recHead d r ++ recordBody d r) ∈ t.dev.outbox)
  ∧ (∀ (h : Nat) (bs : List Byte) (s : State) (x : Desc) (d : Dev),
      romBegin h 0x08 s.dev = (some x, d) → freeTag d ≠ none →
      locate d (x.entry.p1 % 8) (bs.take 32) = none →
    ∃ t, exec (.record h (.ok bs)) s = .next t ∧ s.devOnly t ∧ findDesc t.dev h = none
      ∧ Dev.Answers s.dev t.dev)
  ∧ (∀ (h : Nat) (data : HostData) (s : State) (x : Desc) (d : Dev), romBegin h 0x08 s.dev = (some x, d) →
      data = .timeout ∨ data = .error → freeTag d ≠ none →
    ∃ t, exec (.record h data) s = .next t ∧ s.devOnly t
      ∧ Dev.Answers { s.dev with ept := { s.dev.ept with timeouts := t.dev.ept.timeouts } } t.dev
      ∧ findDesc t.dev h = none
      ∧ t.dev.ept.timeouts
          = (if data = .timeout then satAdd 32 s.dev.ept.timeouts 1 else s.dev.ept.timeouts))
  ∧ (∀ (h : Nat) (data : HostData) (s : State) (x : Desc) (d : Dev), romBegin h 0x08 s.dev = (some x, d) →
      freeTag d = none → exec (.record h data) s = .next { s with dev := d })
  ∧ (∀ (h : Nat) (bs : List Byte) (s : State) (x : Desc) (d : Dev), romBegin h 0x10 s.dev = (some x, d) →
      freeTag d ≠ none →
      x.entry.hlen ≠ 0 → x.entry.hlen % 65536 = 0 → x.entry.hlen ≤ 16777216 →
      x.entry.p1 + x.entry.hlen ≤ twinMax → x.entry.haddr % 4 = 0 → x.entry.p1 % 65536 = 0 →
    ∃ t, exec (.twinWrite h (.ok bs)) s = .next t ∧ s.devOnly t ∧ findDesc t.dev h = none
      ∧ (x.entry.p1, bs.take x.entry.hlen) ∈ twinChunks t.dev (1 - s.dev.rom.running)
      ∧ (x.entry.p1 = 0 → twinChunks t.dev (1 - s.dev.rom.running) = [(0, bs.take x.entry.hlen)])
      ∧ Tab.get true t.dev.rom.twinValid (1 - s.dev.rom.running) = false
      ∧ t.dev.rom.running = s.dev.rom.running ∧ t.dev.rom.selectors = s.dev.rom.selectors
      ∧ Dev.Answers { s.dev with rom := t.dev.rom } t.dev)
  ∧ (∀ (h : Nat) (data : HostData) (s : State) (x : Desc) (d : Dev), romBegin h 0x10 s.dev = (some x, d) →
      data = .timeout ∨ data = .error → freeTag d ≠ none →
      x.entry.hlen ≠ 0 → x.entry.hlen % 65536 = 0 → x.entry.hlen ≤ 16777216 →
      x.entry.p1 + x.entry.hlen ≤ twinMax → x.entry.haddr % 4 = 0 → x.entry.p1 % 65536 = 0 →
    ∃ t, exec (.twinWrite h data) s = .next t ∧ s.devOnly t
      ∧ Dev.Answers { s.dev with ept := { s.dev.ept with timeouts := t.dev.ept.timeouts } } t.dev
      ∧ findDesc t.dev h = none
      ∧ t.dev.ept.timeouts
          = (if data = .timeout then satAdd 32 s.dev.ept.timeouts 1 else s.dev.ept.timeouts))
  ∧ (∀ (h : Nat) (data : HostData) (s : State) (x : Desc) (d : Dev), romBegin h 0x10 s.dev = (some x, d) →
      freeTag d = none →
      x.entry.hlen ≠ 0 → x.entry.hlen % 65536 = 0 → x.entry.hlen ≤ 16777216 →
      x.entry.p1 + x.entry.hlen ≤ twinMax → x.entry.haddr % 4 = 0 → x.entry.p1 % 65536 = 0 →
    exec (.twinWrite h data) s = .next { s with dev := d })
  ∧ (∀ (h : Nat) (s : State) (x : Desc) (d : Dev), romBegin h 0x11 s.dev = (some x, d) →
    ∃ t, exec (.twinSelect h) s = .next t ∧ s.devOnly t ∧ findDesc t.dev h = none
      ∧ t.dev.rom.running = s.dev.rom.running ∧ t.dev.rom.twinImage = s.dev.rom.twinImage
      ∧ Dev.Answers { s.dev with rom := t.dev.rom } t.dev
      ∧ t.dev.rom.selectors.length = s.dev.rom.selectors.length
          + (if x.entry.p1 ≤ twinMax
              ∧ Config.imageVerifies (twinChunks s.dev (1 - s.dev.rom.running)) x.entry.p1 = true
             then 1 else 0))

/-- The start of an image transfer (R189, Table 10.7): busy while one runs or the intent of an earlier one
is open; outside SERVICE, or without the transfer key, it ends in cause 4; with every check met the intent
is journalled and XFER_OPEN is sent. A source that is not in SERVICE answers no and keeps no transfer; one
that is becomes the source of the block asked for. The rest of a transfer (R190, R191), its frames from the
peer: a chunk out of turn is only acknowledged again; one in turn that verifies is taken and acknowledged;
an acknowledgement that advances is taken; a matching close completes the intent and one that does not match
ends the transfer, its intent left to the next BOOT while WARN is asserted (log entry 175); an abort ends a
transfer, and nothing of it happens with none under way. -/
def Obligations.ImageTransfer : Prop :=
  (∀ (h : Nat) (s : State) (x : Desc) (d : Dev), begin h true 0x4B s.dev = (some x, d) → xferRuns d = true →
      xferDest d = false ∨ d.hrk.xferHandle ≠ h →
    ∃ t, exec (.imageTransfer h) s = .next t ∧ s.devOnly t ∧ findDesc t.dev h = none
      ∧ Dev.Answers s.dev t.dev)
  ∧ (∀ (h : Nat) (s : State) (x : Desc) (d : Dev), begin h true 0x4B s.dev = (some x, d) →
      xferRuns d = false → d.chp.mode = .service → d.flash.xferIntent ≠ none →
    ∃ t, exec (.imageTransfer h) s = .next t ∧ s.devOnly t ∧ findDesc t.dev h = none
      ∧ Dev.Answers s.dev t.dev)
  ∧ (∀ (h : Nat) (s : State) (x : Desc), findDesc s.dev h = some x → x.fn = 0 → x.entry.opcode = 0x4B →
      x.phase = .fetched → heldBack s.dev x = false → checkDesc s.dev x = some stMode → xferRuns s.dev = false →
    ∃ t, exec (.imageTransfer h) s = .next t ∧ s.devOnly t ∧ findDesc t.dev h = none
      ∧ t.dev.hrk.xferState = 5 ∧ t.dev.hrk.xferCause = 4 ∧ t.dev.flash = s.dev.flash)
  ∧ (∀ (h : Nat) (s : State) (x : Desc) (d : Dev), begin h true 0x4B s.dev = (some x, d) →
      d.chp.mode = .service → xferRuns d = false → d.flash.xferIntent = none →
      xferKey d (field x.entry.p0 32 6) = false →
    ∃ t, exec (.imageTransfer h) s = .next t ∧ s.devOnly t ∧ findDesc t.dev h = none
      ∧ t.dev.hrk.xferState = 5 ∧ t.dev.hrk.xferCause = 4 ∧ t.dev.flash = s.dev.flash)
  ∧ (∀ (h : Nat) (s : State) (x : Desc) (d : Dev), begin h true 0x4B s.dev = (some x, d) →
      d.chp.mode = .service → xferRuns d = false → d.flash.xferIntent = none →
      xferKey d (field x.entry.p0 32 6) = true →
      blockBlank d (field x.entry.p0 24 3) = true →
      (getPort d (portTo d (field x.entry.p0 0 9))).trained = true →
      stripeErased d (field x.entry.p0 24 3) (openPlace d (field x.entry.p0 24 3)) = true →
    ∃ t, exec (.imageTransfer h) s = .next t ∧ s.devOnly t ∧ t.dev.hrk.xferState = 1
      ∧ t.dev.hrk.xferHandle = h ∧ t.dev.hrk.xferSource = false
      ∧ t.dev.hrk.xferPeer = field x.entry.p0 0 9
      ∧ t.dev.flash.xferIntent = some (field x.entry.p0 24 3) ∧ t.dev.flash.records = s.dev.flash.records)
  ∧ (∀ (q : FrameIn) (f : XferOpenFrame) (s : State), heard s.dev q = true → s.dev.chp.mode ≠ .service →
    ∃ t, exec (.xferOpen q f) s = .next t ∧ s.devOnly t ∧ t.dev.hrk.xferState = s.dev.hrk.xferState
      ∧ Dev.Reports { s.dev with hrk := t.dev.hrk, freeCtr := t.dev.freeCtr } t.dev)
  ∧ (∀ (q : FrameIn) (f : XferOpenFrame) (s : State), heard s.dev q = true →
      s.dev.chp.mode = .service → xferRuns s.dev = false → xferKey s.dev f.slot = true →
      (getSlot s.dev f.slot).kcv = f.kcv →
    ∃ t, exec (.xferOpen q f) s = .next t ∧ s.devOnly t
      ∧ (t.dev.hrk.xferState = 2 ∨ t.dev.hrk.xferState = 3) ∧ t.dev.hrk.xferSource = true
      ∧ t.dev.hrk.xferLocal = f.srcBlock ∧ t.dev.hrk.xferPeer = f.srcIdx
      ∧ Dev.Reports { s.dev with hrk := t.dev.hrk, freeCtr := t.dev.freeCtr } t.dev)
  ∧ (∀ (q : FrameIn) (c : XferChunk) (s : State), heard s.dev q = true → q.src = s.dev.hrk.xferPeer →
      xferDest s.dev = true → c.chunk ≠ s.dev.hrk.xferNext →
    ∃ t, exec (.xferData ⟨q, c⟩) s = .next t ∧ s.devOnly t ∧ t.dev.hrk.xferNext = s.dev.hrk.xferNext
      ∧ t.dev.hrk.xferState = s.dev.hrk.xferState
      ∧ Dev.Reports { s.dev with hrk := t.dev.hrk, freeCtr := t.dev.freeCtr } t.dev)
  ∧ (∀ (q : FrameIn) (c : XferChunk) (n : XferNonce) (s : State), heard s.dev q = true →
      q.src = s.dev.hrk.xferPeer → xferDest s.dev = true →
      c.chunk = s.dev.hrk.xferNext → c.verified = true → c.content = [.nonce n] →
    ∃ t, exec (.xferData ⟨q, c⟩) s = .next t ∧ s.devOnly t ∧ t.dev.hrk.xferNext = s.dev.hrk.xferNext + 1
      ∧ t.dev.hrk.xferState = 2 ∧ t.dev.hrk.xferFails = 0
      ∧ t.dev.flash.xferNonces = (n.slot, n.gen, n.hwm) :: s.dev.flash.xferNonces)
  ∧ (∀ (q : FrameIn) (c : XferChunk) (s : State), heard s.dev q = true → q.src = s.dev.hrk.xferPeer →
      xferDest s.dev = true → c.chunk = s.dev.hrk.xferNext → c.verified = false → 7 ≤ s.dev.hrk.xferFails →
    ∃ t, exec (.xferData ⟨q, c⟩) s = .next t ∧ s.devOnly t ∧ t.dev.hrk.xferState = 5 ∧ t.dev.hrk.xferCause = 2
      ∧ t.dev.svc.xferDone = true)
  ∧ (∀ (q : FrameIn) (n : Nat) (s : State), heard s.dev q = true → q.src = s.dev.hrk.xferPeer →
      xferSends s.dev = true → s.dev.hrk.xferState = 2 → s.dev.hrk.xferAcked < n → n ≤ s.dev.hrk.xferNext →
    ∃ t, exec (.xferAck ⟨q, n⟩) s = .next t ∧ s.devOnly t ∧ t.dev.hrk.xferAcked = n ∧ t.dev.hrk.xferFails = 0
      ∧ Dev.Reports { s.dev with hrk := t.dev.hrk, freeCtr := t.dev.freeCtr } t.dev)
  ∧ (∀ (q : FrameIn) (n : Nat) (w : W32) (s : State), heard s.dev q = true → q.src = s.dev.hrk.xferPeer →
      xferDest s.dev = true → n = s.dev.hrk.xferNext → w = s.dev.hrk.xferCrc ^^^ 0xFFFFFFFF →
    ∃ t, exec (.xferClose q n w) s = .next t ∧ s.devOnly t ∧ t.dev.hrk.xferState = 4
      ∧ t.dev.flash.xferIntent = none ∧ t.dev.svc.xferDone = true
      ∧ t.dev.flash.records = s.dev.flash.records)
  ∧ (∀ (q : FrameIn) (n : Nat) (w : W32) (s : State), heard s.dev q = true → q.src = s.dev.hrk.xferPeer →
      xferDest s.dev = true → (n ≠ s.dev.hrk.xferNext ∨ w ≠ s.dev.hrk.xferCrc ^^^ 0xFFFFFFFF) →
    ∃ t, exec (.xferClose q n w) s = .next t ∧ s.devOnly t ∧ t.dev.hrk.xferState = 5
      ∧ t.dev.svc.xferDone = true
      ∧ t.dev.flash.xferIntent = (if s.dev.spw.warn then s.dev.flash.xferIntent else none))
  ∧ (∀ (q : FrameIn) (st : Nat) (s : State), heard s.dev q = true → q.src = s.dev.hrk.xferPeer →
    ∃ t, exec (.xferAbort ⟨q, st⟩) s = .next t ∧ s.devOnly t
      ∧ (xferRuns s.dev = true → t.dev.hrk.xferState = 5)
      ∧ (xferRuns s.dev = false → t.dev.hrk.xferState = s.dev.hrk.xferState
          ∧ Dev.Reports { s.dev with hrk := t.dev.hrk, freeCtr := t.dev.freeCtr } t.dev))

/-- Ports of the hierarchy and their cues (R57, R180, R183, R196): an enabled port that trains carries
frames, one that is lost does not; a cue goes out on every port toward devices below, stamped with HT, and
their number advances; an answer is counted on its port and names the peer; a cue that completes an exchange
with the one before steers, and one that completes none is kept for the next. -/
def Obligations.PortsAndCues : Prop :=
  (∀ (p : Nat) (s : State), harkaOn s.dev = true → bit s.dev.hrk.ctl p = true →
      (p ≠ 0 ∨ s.dev.board.roleMgr = false) → (p = 0 ∨ s.dev.hrk.depth < 3) →
    ∃ t, exec (.harkaPortTrained p) s = .next t ∧ s.devOnly t ∧ (getPort t.dev p).trained = true
      ∧ (getPort t.dev p).responses = 0
      ∧ (p ≠ 0 → Dev.Reports { s.dev with hrk := t.dev.hrk } t.dev))
  ∧ (∀ (p : Nat) (s : State), (harkaOn s.dev = false ∨ bit s.dev.hrk.ctl p = false
        ∨ (p = 0 ∧ s.dev.board.roleMgr = true) ∨ (p ≠ 0 ∧ 3 ≤ s.dev.hrk.depth)) →
    exec (.harkaPortTrained p) s = .next s)
  ∧ (∀ (p : Nat) (s : State), (getPort s.dev p).trained = true →
    ∃ t, exec (.harkaPortLost p) s = .next t ∧ s.devOnly t ∧ (getPort t.dev p).trained = false)
  ∧ (∀ (p : Nat) (s : State), (getPort s.dev p).trained = false → exec (.harkaPortLost p) s = .next s)
  ∧ (∀ s : State, harkaOn s.dev = true →
    ∃ t, exec .cueSend s = .next t ∧ s.devOnly t
      ∧ t.dev.hrk.cueSeq = (s.dev.hrk.cueSeq + 1) % 65536
      ∧ ∀ p ∈ belowPorts s.dev, ∃ f, Out.frame p f f.bytes ∈ t.dev.outbox ∧ f.type = 1 ∧ f.dst = 0xFFFE
          ∧ f.payload = cueBytes (cueOn s.dev p) ∧ (cueOn s.dev p).t1 = s.dev.tmb.ht)
  ∧ (∀ s : State, harkaOn s.dev = false → exec .cueSend s = .next s)
  ∧ (∀ (q : FrameIn) (r : CueRespFrame) (s : State), harkaOn s.dev = true →
      (getPort s.dev q.port).trained = true → q.intact = true →
    ∃ t, exec (.cueResp q r) s = .next t ∧ s.devOnly t
      ∧ (getPort t.dev q.port).responses = (getPort s.dev q.port).responses + 1
      ∧ (getPort t.dev q.port).peer = q.src
      ∧ (s.dev.hrk.deposed = true → q.src = 1 → r.gmIdx = 0 → t.dev.hrk.deposed = false))
  ∧ (∀ (q : FrameIn) (c : CueFrame) (x : Nat × Nat × Nat × Nat) (s : State), harkaOn s.dev = true →
      (getPort s.dev q.port).trained = true → q.intact = true →
      q.port = uplink s.dev → s.dev.hrk.inWaiting = false → s.dev.hrk.role = 2 → s.dev.hrk.lead = false →
      c.depth < 3 → c.epochId = s.dev.tmb.epochId → exchange s.dev c = some x → s.dev.tmb.delays = [] →
    ∃ t, exec (.cue ⟨q, c⟩) s = .next t ∧ s.devOnly t ∧ t.dev.tmb.follower = true ∧ t.dev.tmb.everCue = true
      ∧ t.dev.tmb.cueOffset = cueOffset s.dev x ∧ t.dev.tmb.cueDelay = cueDelay s.dev x
      ∧ t.dev.tmb.uUp = c.u ∧ t.dev.tmb.depth = c.depth + 1 ∧ t.dev.hrk.takeover = c.takeover
      ∧ t.dev.tmb.lastCueHt = t.dev.tmb.ht)
  ∧ (∀ (q : FrameIn) (c : CueFrame) (s : State), harkaOn s.dev = true →
      (getPort s.dev q.port).trained = true → q.intact = true →
      q.port = uplink s.dev → s.dev.hrk.inWaiting = false → s.dev.hrk.role = 2 → s.dev.hrk.lead = false →
      c.depth < 3 → c.epochId = s.dev.tmb.epochId → exchange s.dev c = none →
    ∃ t, exec (.cue ⟨q, c⟩) s = .next t ∧ s.devOnly t
      ∧ t.dev.tmb = { s.dev.tmb with prevCue := some (c.seq, c.t1, s.dev.tmb.ht, s.dev.tmb.ht) }
      ∧ t.dev.hrk.takeover = c.takeover)

/-- JOIN and ASSIGN (R179, R180): the lead that grants an index keeps the device as present and routes its
index through the port of the JOIN, and the device's earlier node ends; a device that was assigned takes its
index, depth and role, and stores the index; a refused one stays standalone. Takeover, deposition and
standby (R59, R192 to R194): worker 1 becomes the lead at depth 0 with its own time; a lead with a worker 1
that may take over stands deposed, until it is told to dismiss that worker; a depth-1 device moves to its
standby port. Where a condition of the one that is commanded does not hold, nothing changes. -/
def Obligations.JoinTakeoverAndStandby : Prop :=
  (∀ (q : FrameIn) (i res dep : Nat) (f : JoinFrame) (s : State), carried s.dev q = true →
      (getPort s.dev q.port).dir ≠ 2 →
      actsLead s.dev = true → s.dev.hrk.seenSeqs.contains (q.port, 0x10000 + f.serial, q.seq) = false →
      decideJoin s.dev f dep = (res, some i) →
    ∃ t, exec (.join q f dep) s = .next t ∧ s.devOnly t
      ∧ (getNode t.dev i).present = true ∧ (getNode t.dev i).serial = f.serial
      ∧ (getNode t.dev i).depth = dep ∧ portTo t.dev i = q.port
      ∧ (∀ j, j ≠ i → (getNode s.dev j).serial ≠ f.serial → getNode t.dev j = getNode s.dev j)
      ∧ Dev.Reports { s.dev with hrk := t.dev.hrk, freeCtr := t.dev.freeCtr } t.dev)
  ∧ (∀ (q : FrameIn) (f : AssignFrame) (s : State), heard s.dev q = true → s.dev.hrk.joining = true →
      f.result < 2 →
    ∃ t, exec (.assign q f) s = .next t ∧ s.devOnly t ∧ t.dev.hrk.role = 2 ∧ t.dev.hrk.lead = false
      ∧ t.dev.hrk.index = f.index ∧ t.dev.hrk.depth = f.depth ∧ t.dev.flash.hidx = some f.index
      ∧ t.dev.hrk.joining = false)
  ∧ (∀ (q : FrameIn) (f : AssignFrame) (s : State), heard s.dev q = true → s.dev.hrk.joining = true →
      2 ≤ f.result →
    ∃ t, exec (.assign q f) s = .next t ∧ s.devOnly t ∧ t.dev.hrk.role = 0 ∧ t.dev.hrk.lead = true
      ∧ t.dev.hrk.joinRefused = true ∧ t.dev.flash = s.dev.flash)
  ∧ (∀ s : State, harkaOn s.dev = true → bit s.dev.hrk.ctl 10 = true → s.dev.hrk.role = 2 →
      s.dev.hrk.index = 1 → s.dev.hrk.depth = 1 → s.dev.hrk.lead = false →
      s.dev.flash.epoch.isSome = true → takeoverMode s.dev.chp.mode = true →
      powerEvent s.dev.hrk.upMode = false →
    ∃ t, exec .takeover s = .next t ∧ s.devOnly t ∧ t.dev.hrk.lead = true ∧ t.dev.hrk.takeover = true
      ∧ t.dev.tmb.follower = false ∧ t.dev.tmb.depth = 0 ∧ t.dev.tmb.floorU = uField s.dev
      ∧ t.dev.tmb.ht = s.dev.tmb.ht)
  ∧ (∀ s : State, (harkaOn s.dev = false ∨ bit s.dev.hrk.ctl 10 = false ∨ s.dev.hrk.role ≠ 2
        ∨ s.dev.hrk.index ≠ 1 ∨ s.dev.hrk.depth ≠ 1 ∨ s.dev.hrk.lead = true ∨ s.dev.flash.epoch = none
        ∨ takeoverMode s.dev.chp.mode = false ∨ powerEvent s.dev.hrk.upMode = true) →
    exec .takeover s = .next s)
  ∧ (∀ s : State, harkaOn s.dev = true → s.dev.hrk.role = 1 → actsLead s.dev = true →
      s.dev.hrk.deposed = false → (getNode s.dev 1).present = true → (getNode s.dev 1).takeoverEn = true →
      powerEvent (getNode s.dev 1).status.mode = false →
    ∃ t, exec .deposed s = .next t ∧ s.devOnly t
      ∧ Dev.Reports { s.dev with hrk := { s.dev.hrk with deposed := true } } t.dev)
  ∧ (∀ s : State, (harkaOn s.dev = false ∨ s.dev.hrk.role ≠ 1 ∨ actsLead s.dev = false
        ∨ s.dev.hrk.deposed = true ∨ (getNode s.dev 1).present = false
        ∨ (getNode s.dev 1).takeoverEn = false ∨ powerEvent (getNode s.dev 1).status.mode = true) →
    exec .deposed s = .next s)
  ∧ (∀ s : State, s.dev.hrk.deposed = true →
    ∃ t, exec .dismissUs s = .next t ∧ s.devOnly t ∧ t.dev.hrk.deposed = false ∧ t.dev.hrk.dismissed = true
      ∧ (getNode t.dev 1).present = false ∧ Dev.Reports { s.dev with hrk := t.dev.hrk } t.dev)
  ∧ (∀ s : State, s.dev.hrk.deposed = false → exec .dismissUs s = .next s)
  ∧ (∀ s : State, harkaOn s.dev = true → s.dev.hrk.role = 2 → s.dev.hrk.depth = 1 → s.dev.hrk.index ≠ 1 →
      1 ≤ s.dev.hrk.standbyPort → s.dev.hrk.standbyPort ≤ 8 → s.dev.hrk.onStandby = false →
      s.dev.hrk.sawTakeover = true → (getPort s.dev s.dev.hrk.standbyPort).trained = true →
      s.dev.hrk.inWaiting = false →
    ∃ t, exec .standbySwitch s = .next t ∧ s.devOnly t ∧ t.dev.hrk.onStandby = true
      ∧ uplink t.dev = s.dev.hrk.standbyPort ∧ t.dev.hrk.takeover = true)
  ∧ (∀ s : State, (harkaOn s.dev = false ∨ s.dev.hrk.role ≠ 2 ∨ s.dev.hrk.depth ≠ 1 ∨ s.dev.hrk.index = 1
        ∨ s.dev.hrk.standbyPort = 0 ∨ 8 < s.dev.hrk.standbyPort ∨ s.dev.hrk.onStandby = true
        ∨ s.dev.hrk.sawTakeover = false ∨ (getPort s.dev s.dev.hrk.standbyPort).trained = false) →
    exec .standbySwitch s = .next s)

/-- Status, absence and rehearsal slots (R181, R182, R185, R186): the lead keeps each device's status as it
came; a device under a lead takes the lead's mode; a frame for another device goes on unchanged, one on a
standby uplink is not taken (R179), and one that fails its check codes is dropped and counted; a device's
own status goes to its lead; a device unheard of is absent; a slot that timed out is free. The directory and
the reconcile frames (R150, R187, R188): updates are kept by the lead and by worker 1; a query latches the
entry it names; the lead keeps summaries and keys until it has merged; a worker takes its places, and its
merge is done once all of them have come. Acknowledgement (R182): an ACK takes the frame it names off those
that wait; a timeout repeats one, and drops it after eight repeats, an XFER_OPEN ending the transfer that it
asked for. An ACK or a timeout of a frame that does not wait changes nothing but counts. -/
def Obligations.StatusDirectoryAndAcks : Prop :=
  (∀ (q : FrameIn) (f : StatusFrame) (s : State), heard s.dev q = true → actsLead s.dev = true →
      f.hidx ≠ s.dev.hrk.index → (f.hidx ≠ 1 ∨ s.dev.hrk.dismissed = false) →
    ∃ t, exec (.status ⟨q, f⟩) s = .next t ∧ s.devOnly t ∧ (getNode t.dev f.hidx).status = f
      ∧ (getNode t.dev f.hidx).present = true)
  ∧ (∀ (q : FrameIn) (f : StatusFrame) (s : State), heard s.dev q = true → actsLead s.dev = false →
      f.hidx = leadIndex s.dev →
    ∃ t, exec (.status ⟨q, f⟩) s = .next t ∧ s.devOnly t ∧ t.dev.hrk.upMode = f.mode
      ∧ Dev.Reports { s.dev with hrk := t.dev.hrk, freeCtr := t.dev.freeCtr } t.dev)
  ∧ (∀ (q : FrameIn) (f : StatusFrame) (s : State), carried s.dev q = true →
      (getPort s.dev q.port).dir ≠ 2 → q.dst ≠ 0xFFFF → q.dst ≠ 0xFFFE → q.dst ≠ ownIndex s.dev →
    ∃ t, exec (.status ⟨q, f⟩) s = .next t ∧ s.devOnly t
      ∧ Dev.Reports { s.dev with hrk := { s.dev.hrk with
          ports := t.dev.hrk.ports, routes := t.dev.hrk.routes } } t.dev
      ∧ ((getPort s.dev (portTo t.dev q.dst)).trained = true →
          Out.frame (portTo t.dev q.dst) (onward q 5 (statusBytes f)) (onward q 5 (statusBytes f)).bytes
            ∈ t.dev.outbox))
  ∧ (∀ (q : FrameIn) (f : StatusFrame) (s : State), carried s.dev q = true → (getPort s.dev q.port).dir = 2 →
    ∃ t, exec (.status ⟨q, f⟩) s = .next t ∧ s.devOnly t ∧ Dev.Reports s.dev t.dev)
  ∧ (∀ (q : FrameIn) (f : StatusFrame) (s : State), harkaOn s.dev = true →
      (getPort s.dev q.port).trained = true → q.intact = false →
    ∃ t, exec (.status ⟨q, f⟩) s = .next t ∧ s.devOnly t
      ∧ (getPort t.dev q.port).crcErr = satAdd 16 (getPort s.dev q.port).crcErr 1
      ∧ Dev.Reports { s.dev with hrk := { s.dev.hrk with ports := t.dev.hrk.ports } } t.dev)
  ∧ (∀ s : State, subordinate s.dev = true → harkaOn s.dev = true →
      (getPort s.dev (portTo s.dev (leadIndex s.dev))).trained = true →
    ∃ t, exec .statusSend s = .next t ∧ s.devOnly t
      ∧ Dev.Reports { s.dev with hrk := t.dev.hrk, freeCtr := t.dev.freeCtr } t.dev
      ∧ ∃ f, Out.frame (portTo s.dev (leadIndex s.dev)) f f.bytes ∈ t.dev.outbox ∧ f.type = 5
          ∧ f.payload = statusBytes (ownStatus s.dev))
  ∧ (∀ (i : Nat) (s : State), actsLead s.dev = true → (getNode s.dev i).present = true →
      i ≠ s.dev.hrk.index →
    ∃ t, exec (.nodeAbsent i) s = .next t ∧ s.devOnly t ∧ (getNode t.dev i).present = false
      ∧ (∀ j, j ≠ i → getNode t.dev j = getNode s.dev j)
      ∧ Dev.Reports { s.dev with hrk := t.dev.hrk } t.dev)
  ∧ (∀ (i : Nat) (s : State), (actsLead s.dev = false ∨ (getNode s.dev i).present = false ∨ i = s.dev.hrk.index) →
    exec (.nodeAbsent i) s = .next s)
  ∧ (∀ s : State, s.dev.hrk.role = 0 → s.dev.hrk.inWaiting = false → exec .statusSend s = .next s)
  ∧ (∀ (i : Nat) (s : State), (actsLead s.dev && s.dev.hrk.rehEn) = false →
    ∃ t, exec (.rehSlotTimeout i) s = .next t ∧ s.devOnly t ∧ (getNode t.dev i).slotOut = false
      ∧ (∀ j, j ≠ i → getNode t.dev j = getNode s.dev j)
      ∧ t.dev = { s.dev with hrk := t.dev.hrk })
  ∧ (∀ (q : FrameIn) (e : DirEntry) (more : List DirEntry) (s : State), heard s.dev q = true →
      (actsLead s.dev = true ∨ s.dev.hrk.index = 1) →
    ∃ t, exec (.dirUpdate q e more) s = .next t ∧ s.devOnly t
      ∧ t.dev.hrk.dir = (storeDir (e :: more) s.dev).hrk.dir
      ∧ Dev.Reports { s.dev with hrk := t.dev.hrk, freeCtr := t.dev.freeCtr } t.dev)
  ∧ (∀ (w : W32) (s : State),
    ∃ t, exec (.hrkDirQuery w) s = .next t ∧ s.devOnly t
      ∧ t.dev = { s.dev with hrk := { s.dev.hrk with
          dirQuery := w &&& 0x7FFF, dirResult := t.dev.hrk.dirResult } }
      ∧ (∀ e, t.dev.hrk.dirResult = some e → e ∈ s.dev.hrk.dir ∧ e.hidx = field w 6 9 ∧ e.fn = field w 0 6))
  ∧ (∀ (q : FrameIn) (f : SummaryFrame) (kind : Nat) (s : State), heard s.dev q = true → actsLead s.dev = true →
      s.dev.enc.merged = false → s.dev.chp.mode.settled = false → s.dev.chp.mode.admits = false →
    ∃ t, exec (.reconSummary q f kind) s = .next t ∧ s.devOnly t ∧ (q.src, f) ∈ t.dev.hrk.summaries)
  ∧ (∀ (q : FrameIn) (n : Nat) (ks : List OrderKey) (s : State), heard s.dev q = true →
      actsLead s.dev = true → s.dev.enc.merged = false →
    ∃ t, exec (.reconKeys q n ks) s = .next t ∧ s.devOnly t
      ∧ (∀ e ∈ ks.zipIdx, (∀ o ∈ s.dev.hrk.keys, ¬(o.1 = q.src ∧ o.2.1 = n + e.2)) →
          (q.src, n + e.2, e.1) ∈ t.dev.hrk.keys)
      ∧ (∀ e ∈ s.dev.hrk.keys, e ∈ t.dev.hrk.keys))
  ∧ (∀ (q : FrameIn) (n : Nat) (ps : List OrderPlace) (s : State), heard s.dev q = true →
      rcnOpen s.dev = true → subordinate s.dev = true →
    ∃ t, exec (.reconResult q n ps) s = .next t ∧ s.devOnly t
      ∧ t.dev.enc.placed = s.dev.enc.placed + ps.length
      ∧ t.dev.enc.order.length = s.dev.enc.order.length)
  ∧ (∀ (q : FrameIn) (n : Nat) (s : State), heard s.dev q = true →
      rcnOpen s.dev = true → subordinate s.dev = true → (runEntries s.dev).length ≤ s.dev.enc.placed →
      Tab.get 0 s.dev.enc.rcnHt 2 ≠ 0 →
    ∃ t, exec (.reconDone ⟨q, n⟩) s = .next t ∧ s.devOnly t ∧ t.dev.enc.merged = true
      ∧ t.dev.enc.order.length = s.dev.enc.order.length
      ∧ (s.dev.hrk.index = 1 → n < (s.dev.hrk.dir.map DirEntry.serial).eraseDups.length →
          t.dev.enc.partialMerge = true)
      ∧ (s.dev.hrk.index = 1 → (s.dev.hrk.dir.map DirEntry.serial).eraseDups.length ≤ n →
          (∀ e ∈ s.dev.hrk.dir, e.serial = s.dev.board.serial) → t.dev.enc.partialMerge = false)
      ∧ Dev.Reports { s.dev with enc := t.dev.enc, hrk := t.dev.hrk, freeCtr := t.dev.freeCtr } t.dev)
  ∧ (∀ (h : FrameIn) (q v p n : Nat) (f : Frame) (s : State), carried s.dev h = true → forUs s.dev h = true →
      s.dev.hrk.unacked.find? (fun e => e.2.2.seq = q) = some (p, n, f) → f.type ≠ 0x10 → f.type ≠ 0x13 →
    ∃ t, exec (.ack h ⟨q, v⟩) s = .next t ∧ s.devOnly t
      ∧ Dev.Reports { s.dev with hrk := { s.dev.hrk with
          unacked := s.dev.hrk.unacked.filter (fun e => e.2.2.seq ≠ q) } } t.dev)
  ∧ (∀ (h : FrameIn) (q v : Nat) (s : State), carried s.dev h = true → forUs s.dev h = true →
      s.dev.hrk.unacked.find? (fun e => e.2.2.seq = q) = none →
    ∃ t, exec (.ack h ⟨q, v⟩) s = .next t ∧ s.devOnly t ∧ Dev.Reports s.dev t.dev)
  ∧ (∀ (p q : Nat) (s : State),
      s.dev.hrk.unacked.find? (fun e => e.1 = p && e.2.2.seq = q) = none →
    exec (.ackTimeout p q) s = .next s)
  ∧ (∀ (p q n : Nat) (f : Frame) (s : State),
      s.dev.hrk.unacked.find? (fun e => e.1 = p && e.2.2.seq = q) = some (p, n, f) → n < 8 →
    ∃ t, exec (.ackTimeout p q) s = .next t ∧ s.devOnly t
      ∧ t.dev.hrk.unacked = s.dev.hrk.unacked.map (fun e =>
          if e.1 = p && e.2.2.seq = q then (p, n + 1, { f with retry := true }) else e)
      ∧ (getPort t.dev p).retry = satAdd 16 (getPort s.dev p).retry 1)
  ∧ (∀ (p q n : Nat) (f : Frame) (s : State),
      s.dev.hrk.unacked.find? (fun e => e.1 = p && e.2.2.seq = q) = some (p, n, f) → 8 ≤ n →
      f.type ≠ 0x10 → f.type ≠ 0x13 →
    ∃ t, exec (.ackTimeout p q) s = .next t ∧ s.devOnly t
      ∧ t.dev.hrk.unacked = s.dev.hrk.unacked.filter (fun e => !(e.1 = p && e.2.2.seq = q)))
  ∧ (∀ (p q n : Nat) (f : Frame) (s : State),
      s.dev.hrk.unacked.find? (fun e => e.1 = p && e.2.2.seq = q) = some (p, n, f) → 8 ≤ n →
      f.type = 0x10 → xferDest s.dev = true →
    ∃ t, exec (.ackTimeout p q) s = .next t ∧ s.devOnly t ∧ t.dev.hrk.xferState = 5 ∧ t.dev.svc.xferDone = true)

/-- Register accesses (R10 to R12, R72, R247): without a link nothing happens; a wrong size is only
reported; an absent register takes nothing; a value is kept under its mask and E_FIXED not below its floor;
the lower half of a 64-bit register waits for the upper, and both then act as one; a ring's base stands
while the ring is enabled. A read of a lower half latches the upper one, which the next read of the upper
half returns and ends; a read of any size returns the addressed bytes, zero where no register is assigned.
Telemetry and the TAP (R350, R351, R361): a copy refreshes exactly the blocks whose source is on; a block
read answers with the block as last copied; the TAP takes its instructions only with VAUX3, drives pins only
in BOOT with nothing retained, and holds the device in BOOT from then on. -/
def Obligations.RegistersAndObservation : Prop :=
  (∀ (w : RegWrite) (s : State), linkUp s.dev = false → s.dev.ept.tlpsCut = false →
    exec (.registerWrite w) s = .next s)
  ∧ (∀ (w : RegWrite) (s : State), linkUp s.dev = true → w.size = .wrong →
    ∃ t, exec (.registerWrite w) s = .next t ∧ s.devOnly t ∧ Dev.Reports s.dev t.dev)
  ∧ (∀ (w : RegWrite) (s : State), linkUp s.dev = true → w.size ≠ .wrong → regPresent s.dev w.reg = false →
    ∃ t, exec (.registerWrite w) s = .next t ∧ s.devOnly t ∧ Dev.Reports s.dev t.dev)
  ∧ (∀ (w : RegWrite) (s : State), linkUp s.dev = true → w.size = .whole → w.reg = .spwSealHold →
    ∃ t, exec (.registerWrite w) s = .next t ∧ s.devOnly t
      ∧ Dev.Reports { s.dev with spw := { s.dev.spw with
          sealHold := w.value.truncate 32 &&& 0xFFFF } } t.dev)
  ∧ (∀ (w : RegWrite) (s : State), linkUp s.dev = true → w.size = .whole → w.reg = .admEFixed →
    ∃ t, exec (.registerWrite w) s = .next t ∧ s.devOnly t
      ∧ t.dev.adm.eFixed
          = BitVec.ofNat 32 (max (w.value.truncate 32 : W32).toNat (dsEFixed s.dev.board.blocks)))
  ∧ (∀ (w : RegWrite) (s : State), linkUp s.dev = true → w.size = .lowerHalf → w.reg = .chpEncFirst →
    ∃ t, exec (.registerWrite w) s = .next t ∧ s.devOnly t ∧ t.dev.enc = s.dev.enc
      ∧ t.dev.halfLatch.head? = some (.chpEncFirst, w.value.truncate 32))
  ∧ (∀ (w : RegWrite) (lo : W32) (rest : List (Reg × W32)) (s : State), linkUp s.dev = true →
      w.size = .upperHalf → w.reg = .chpEncFirst → s.dev.halfLatch = (.chpEncFirst, lo) :: rest →
    ∃ t, exec (.registerWrite w) s = .next t ∧ s.devOnly t
      ∧ t.dev.enc.first = (((w.value.truncate 32 : W32).zeroExtend 64 <<< 32) ||| lo.zeroExtend 64)
          &&& 0xFFFFFFFFFFFFFFFE)
  ∧ (∀ (w : RegWrite) (n : Nat) (s : State), linkUp s.dev = true → w.size = .whole → w.reg = .mrgBase n →
      n ≤ 4 → (mrgRing s.dev n).en = true →
    ∃ t, exec (.registerWrite w) s = .next t ∧ s.devOnly t ∧ mrgRing t.dev n = mrgRing s.dev n)
  ∧ (∀ (r : Reg64) (s : State), linkUp s.dev = true → (∀ n, r ≠ .mrgState n) →
    ∃ t, exec (.lowHalfRead (.lowHalf r)) s = .next t ∧ s.devOnly t
      ∧ t.dev.readLatch.head? = some (r, (BitVec.ofNat 64 (read64 r s.dev)).extractLsb' 32 32)
      ∧ t.dev.outbox = .readCompletion 0 .success
          (leBytes 4 (BitVec.ofNat 64 (read64 r s.dev)).toNat) false :: s.dev.outbox
      ∧ Dev.Reports { s.dev with readLatch := t.dev.readLatch } t.dev)
  ∧ (∀ (r : Reg64) (hi : W32) (s : State), linkUp s.dev = true →
      s.dev.readLatch.find? (fun e => e.1 = r) = some (r, hi) →
    ∃ t, exec (.lowHalfRead (.highHalf r)) s = .next t ∧ s.devOnly t
      ∧ t.dev.readLatch = s.dev.readLatch.filter (fun e => e.1 ≠ r)
      ∧ t.dev.outbox = .readCompletion 0 .success (leBytes 4 hi.toNat) false :: s.dev.outbox
      ∧ Dev.Reports { s.dev with readLatch := t.dev.readLatch } t.dev)
  ∧ (∀ (f off n : Nat) (s : State), linkUp s.dev = true → (f = 0 ∨ fnPresent s.dev f = true) →
      (n ≠ 4 ∨ halfAt f off = none) →
    ∃ t bs, exec (.lowHalfRead (.bytes f off n)) s = .next t ∧ s.devOnly t ∧ Dev.Reports s.dev t.dev
      ∧ bs.length = n ∧ t.dev.outbox = .readCompletion f .success bs false :: s.dev.outbox
      ∧ ∀ k, k < n → (rowsOf f).all (fun r => (r.at (off + k)).isNone) = true → bs[k]? = some 0)
  ∧ (∀ (r : HostRead) (s : State), linkUp s.dev = false → exec (.lowHalfRead r) s = .next s)
  ∧ (∀ s : State, retentionOn s.dev = true →
    ∃ t, exec .telemetryCopy s = .next t ∧ s.devOnly t
      ∧ t.dev = { s.dev with obs := { s.dev.obs with telemetry := t.dev.obs.telemetry } }
      ∧ (∀ n z, n < 12 → Tab.get z t.dev.obs.telemetry n
          = if sourceOn s.dev n then (telemetryBlock s.dev n).map BitVec.toNat
            else Tab.get z s.dev.obs.telemetry n))
  ∧ (∀ s : State, retentionOn s.dev = false → exec .telemetryCopy s = .next s)
  ∧ (∀ (n : Nat) (s : State), s.dev.pins.vaux3 = true → retentionOn s.dev = true →
    ∃ t, exec (.smbusBlockRead 0x5C n) s = .next t ∧ s.devOnly t ∧ Dev.Reports s.dev t.dev
      ∧ t.dev.outbox
          = .smbus (16 :: Tab.get (List.replicate 16 0) s.dev.obs.telemetry n) :: s.dev.outbox)
  ∧ (∀ (a n : Nat) (s : State), a ≠ 0x5C ∨ s.dev.pins.vaux3 = false →
    exec (.smbusBlockRead a n) s = .next s)
  ∧ (∀ s : State, s.dev.pins.vaux3 = true →
    exec .tapReset s = .next { s with dev := { s.dev with obs := { s.dev.obs with tapIr := .idcode } } })
  ∧ (∀ s : State, s.dev.pins.vaux3 = true →
    exec .bypass s = .next { s with dev := { s.dev with obs := { s.dev.obs with tapIr := .bypass } } })
  ∧ (∀ s : State, s.dev.pins.vaux3 = true →
    ∃ t, exec .idcode s = .next t ∧ s.devOnly t ∧ t.dev.obs.tapIr = .idcode ∧ Dev.Reports s.dev t.dev
      ∧ t.dev.outbox = .tdo 32 Sys2Proof.Machine.idcode :: s.dev.outbox)
  ∧ (∀ (v : Nat) (s : State), s.dev.pins.vaux3 = true →
    exec (.samplePreload v) s = .next { s with dev := { s.dev with
      obs := { s.dev.obs with tapIr := .samplePreload, boundary := v } } })
  ∧ (∀ s : State, s.dev.pins.vaux3 = true →
    exec .extest s = .next { s with dev := if s.dev.chp.mode = .boot ∧ s.dev.chp.sealRetained = false then { s.dev with
        obs := { s.dev.obs with tapIr := .extest }, chp := { s.dev.chp with tapDrove := true } }
      else { s.dev with obs := { s.dev.obs with tapIr := .bypass } } })
  ∧ (∀ s : State, s.dev.pins.vaux3 = true →
    exec .extestPulse s = .next { s with dev := if s.dev.chp.mode = .boot ∧ s.dev.chp.sealRetained = false then { s.dev with
        obs := { s.dev.obs with tapIr := .extestPulse }, chp := { s.dev.chp with tapDrove := true } }
      else { s.dev with obs := { s.dev.obs with tapIr := .bypass } } })
  ∧ (∀ s : State, s.dev.pins.vaux3 = true →
    exec .extestTrain s = .next { s with dev := if s.dev.chp.mode = .boot ∧ s.dev.chp.sealRetained = false then { s.dev with
        obs := { s.dev.obs with tapIr := .extestTrain }, chp := { s.dev.chp with tapDrove := true } }
      else { s.dev with obs := { s.dev.obs with tapIr := .bypass } } })
  ∧ (∀ s : State, s.dev.pins.vaux3 = true →
    exec .clamp s = .next { s with dev := if s.dev.chp.mode = .boot ∧ s.dev.chp.sealRetained = false then { s.dev with
        obs := { s.dev.obs with tapIr := .clamp }, chp := { s.dev.chp with tapDrove := true } }
      else { s.dev with obs := { s.dev.obs with tapIr := .bypass } } })
  ∧ (∀ s : State, s.dev.pins.vaux3 = true →
    exec .highz s = .next { s with dev := if s.dev.chp.mode = .boot ∧ s.dev.chp.sealRetained = false then { s.dev with
        obs := { s.dev.obs with tapIr := .highz }, chp := { s.dev.chp with tapDrove := true } }
      else { s.dev with obs := { s.dev.obs with tapIr := .bypass } } })
  ∧ (∀ s : State, s.dev.pins.vaux3 = false →
    exec .tapReset s = .next s ∧ exec .bypass s = .next s ∧ exec .idcode s = .next s ∧ exec .extest s = .next s
    ∧ exec .extestPulse s = .next s ∧ exec .extestTrain s = .next s ∧ exec .clamp s = .next s
    ∧ exec .highz s = .next s ∧ ∀ v, exec (.samplePreload v) s = .next s)
end

