-- ==== Sys2Proof/Laws/Laid.lean ====
section
/-!
SUPPORT. What reading the units that ports have laid down can do: nothing where there are none, and nothing to a
record that the device has written itself.
-/

namespace Sys2Proof.Machine

theorem adoptLaid_of_none {d : Dev} (h : laidUnits d = []) : adoptLaid d = d := by simp [adoptLaid, h]

theorem laidUnits_of_no_foreign {d : Dev} (h : d.flash.foreign = []) : laidUnits d = [] := by
  simp [laidUnits, h]

theorem adoptLaid_of_no_foreign {d : Dev} (h : d.flash.foreign = []) : adoptLaid d = d :=
  adoptLaid_of_none (laidUnits_of_no_foreign h)

theorem openLaid_of_device {d : Dev} {id : Nat} {r : Rec} (h : findRec d id = some r) (hl : r.laid = none) :
    openLaid id d = d := by
  simp [openLaid, h, hl]

end Sys2Proof.Machine
end

