-- ==== Sys2Proof/Laws/Memory.lean ====
section
/-!
SUPPORT. The cache DRAM: what a read gives after each memory operation, and that each keeps the
canonical form `Memory.wf` (R17, R263).
-/

namespace Sys2Proof.Machine

open Host (Cell)

@[simp] theorem memRead_nil (a : Nat) : memRead [] a = 0 := rfl

theorem memory_wf_nil : Memory.wf [] := ⟨List.Pairwise.nil, by simp⟩

/-- Reset's cache DRAM is in its canonical form. -/
theorem memory_wf_reset : Memory.wf State.reset.dram := memory_wf_nil

theorem memory_wf_tail {c : Cell} {m : List Cell} (h : Memory.wf (c :: m)) : Memory.wf m :=
  ⟨(List.pairwise_cons.1 h.1).2, fun x hx => h.2 x (List.mem_cons_of_mem _ hx)⟩

/-- An address below every listed one reads zero. -/
theorem memRead_below (m : List Cell) (a : Nat) (h : ∀ c ∈ m, a < c.1) : memRead m a = 0 := by
  induction m with
  | nil => rfl
  | cons c m ih =>
    have hc : ¬c.1 = a := by have := h c (List.mem_cons_self); omega
    simp only [memRead, hc, if_false]
    exact ih (fun x hx => h x (List.mem_cons_of_mem _ hx))

theorem memory_wf_head_lt {c : Cell} {m : List Cell} (h : Memory.wf (c :: m)) : ∀ x ∈ m, c.1 < x.1 :=
  (List.pairwise_cons.1 h.1).1

/-- A write is read back, and every other address reads as before. -/
theorem memRead_memWrite (m : List Cell) (a b : Nat) (v : Byte) (h : Memory.wf m) :
    memRead (memWrite m a v) b = if b = a then v else memRead m b := by
  have here : ∀ n : List Cell, memRead n a = 0 →
      memRead (if v = 0 then n else (a, v) :: n) b = if b = a then v else memRead n b := by
    intro n hn
    by_cases hb : b = a
    · subst hb
      split
      · next hv => rw [if_pos rfl, hn, hv]
      · simp [memRead]
    · rw [if_neg hb]
      split
      · rfl
      · simp [memRead, Ne.symm hb]
  induction m with
  | nil => exact here [] rfl
  | cons c m ih =>
    obtain ⟨k, w⟩ := c
    have hlt := memory_wf_head_lt h
    unfold memWrite
    split
    · next hak =>
      exact here _ (memRead_below _ _ (fun x hx => by
        rcases List.mem_cons.1 hx with rfl | hx
        · exact hak
        · exact Nat.lt_trans hak (hlt x hx)))
    · split
      · next _ hka =>
        subst hka
        rw [here m (memRead_below _ _ (fun x hx => hlt x hx))]
        by_cases hb : b = k
        · rw [if_pos hb, if_pos hb]
        · simp [memRead, hb, Ne.symm hb]
      · next _ hka =>
        simp only [memRead, ih (memory_wf_tail h)]
        by_cases hb : b = a
        · subst hb; simp [hka]
        · simp [hb]

/-- What a write lists: its own cell, and cells listed before. -/
theorem mem_memWrite {m : List Cell} {a : Nat} {v : Byte} {c : Cell} (h : c ∈ memWrite m a v) :
    (c = (a, v) ∧ v ≠ 0) ∨ c ∈ m := by
  have here : ∀ n : List Cell, c ∈ (if v = 0 then n else (a, v) :: n) → (c = (a, v) ∧ v ≠ 0) ∨ c ∈ n := by
    intro n hn
    split at hn
    · exact .inr hn
    · next hv => exact (List.mem_cons.1 hn).imp (fun e => ⟨e, hv⟩) id
  induction m with
  | nil => exact here [] h
  | cons e m ih =>
    obtain ⟨k, w⟩ := e
    unfold memWrite at h
    split at h
    · exact here _ h
    · split at h
      · exact (here _ h).imp_right (List.mem_cons_of_mem _)
      · rcases List.mem_cons.1 h with rfl | h
        · exact .inr (List.mem_cons_self)
        · exact (ih h).imp_right (List.mem_cons_of_mem _)

theorem memWrite_wf (m : List Cell) (a : Nat) (v : Byte) (h : Memory.wf m) :
    Memory.wf (memWrite m a v) := by
  refine ⟨?_, fun c hc => ?_⟩
  · have here : ∀ n : List Cell, n.Pairwise (fun x y => x.1 < y.1) → (∀ x ∈ n, a < x.1) →
        (if v = 0 then n else (a, v) :: n).Pairwise (fun x y => x.1 < y.1) := by
      intro n hn hl
      split
      · exact hn
      · exact List.pairwise_cons.2 ⟨hl, hn⟩
    induction m with
    | nil => exact here [] List.Pairwise.nil (by simp)
    | cons e m ih =>
      obtain ⟨k, w⟩ := e
      have hlt := memory_wf_head_lt h
      unfold memWrite
      split
      · next hak =>
        refine here _ h.1 (fun x hx => ?_)
        rcases List.mem_cons.1 hx with rfl | hx
        · exact hak
        · exact Nat.lt_trans hak (hlt x hx)
      · split
        · next _ hka =>
          subst hka
          exact here _ (memory_wf_tail h).1 (fun x hx => hlt x hx)
        · next hnot hka =>
          refine List.pairwise_cons.2 ⟨fun x hx => ?_, ih (memory_wf_tail h)⟩
          rcases mem_memWrite hx with ⟨rfl, _⟩ | hx
          · show k < a; omega
          · exact hlt x hx
  · rcases mem_memWrite hc with ⟨rfl, hv⟩ | hc
    · exact hv
    · exact h.2 c hc

theorem memWriteBytes_wf (bs : List Byte) (m : List Cell) (a : Nat) (h : Memory.wf m) :
    Memory.wf (memWriteBytes m a bs) := by
  induction bs generalizing m a with
  | nil => exact h
  | cons b bs ih => exact ih _ _ (memWrite_wf m a b h)

/-- Consecutive bytes: inside the written range the byte written, outside it what was there. -/
theorem memRead_memWriteBytes (bs : List Byte) (m : List Cell) (a b : Nat) (h : Memory.wf m) :
    memRead (memWriteBytes m a bs) b
      = if a ≤ b ∧ b < a + bs.length then bs.getD (b - a) 0 else memRead m b := by
  induction bs generalizing m a with
  | nil =>
    have : ¬(a ≤ b ∧ b < a + ([] : List Byte).length) := by simp only [List.length_nil]; omega
    rw [if_neg this, memWriteBytes]
  | cons x bs ih =>
    simp only [memWriteBytes, ih _ _ (memWrite_wf m a x h), memRead_memWrite _ _ _ _ h, List.length_cons]
    by_cases hb : b = a
    · subst hb
      simp
    · by_cases hr : a + 1 ≤ b ∧ b < a + 1 + bs.length
      · have h2 : a ≤ b ∧ b < a + (bs.length + 1) := by omega
        have h3 : b - a = (b - (a + 1)) + 1 := by omega
        rw [if_pos hr, if_pos h2, h3, List.getD_cons_succ]
      · have h2 : ¬(a ≤ b ∧ b < a + (bs.length + 1)) := by omega
        rw [if_neg hr, if_neg h2, if_neg hb]

/-- A filter by address keeps the form. -/
theorem memory_wf_filter (p : Cell → Bool) (m : List Cell) (h : Memory.wf m) : Memory.wf (m.filter p) :=
  ⟨h.1.filter p, fun c hc => h.2 c (List.mem_filter.1 hc).1⟩

theorem memClear_wf (m : List Cell) (a n : Nat) (h : Memory.wf m) : Memory.wf (memClear m a n) :=
  memory_wf_filter _ m h

theorem memSlice_wf (m : List Cell) (a n : Nat) (h : Memory.wf m) : Memory.wf (memSlice m a n) :=
  memory_wf_filter _ m h

/-- Reading through a filter by address. -/
theorem memRead_filter (p : Nat → Bool) (m : List Cell) (b : Nat) :
    memRead (m.filter (fun c => p c.1)) b = if p b then memRead m b else 0 := by
  induction m with
  | nil => simp
  | cons c m ih =>
    obtain ⟨k, w⟩ := c
    by_cases hk : p k <;> by_cases hb : k = b
    · subst hb; simp [hk, memRead]
    · simp [hk, memRead, hb, ih]
    · subst hb; simp [hk, ih]
    · simp [hk, memRead, hb, ih]

theorem memRead_memClear (m : List Cell) (a n b : Nat) :
    memRead (memClear m a n) b = if a ≤ b ∧ b < a + n then 0 else memRead m b := by
  have h := memRead_filter (fun k => !(a ≤ k && k < a + n)) m b
  simp only [memClear, h]
  by_cases hr : a ≤ b ∧ b < a + n <;> simp [hr]

theorem memRead_memSlice (m : List Cell) (a n b : Nat) :
    memRead (memSlice m a n) b = if a ≤ b ∧ b < a + n then memRead m b else 0 := by
  have h := memRead_filter (fun k => a ≤ k && k < a + n) m b
  simp only [memSlice, h]
  by_cases hr : a ≤ b ∧ b < a + n <;> simp [hr]

theorem memOverlay_wf (cs : List Cell) (m : List Cell) (h : Memory.wf m) : Memory.wf (memOverlay m cs) := by
  induction cs generalizing m with
  | nil => exact h
  | cons c cs ih => exact ih _ (memWrite_wf m c.1 c.2 h)

/-- An address that an overlay does not list reads as before. -/
theorem memRead_memOverlay_other (cs : List Cell) (m : List Cell) (b : Nat) (h : Memory.wf m)
    (hb : ∀ c ∈ cs, c.1 ≠ b) : memRead (memOverlay m cs) b = memRead m b := by
  induction cs generalizing m with
  | nil => rfl
  | cons c cs ih =>
    rw [memOverlay, List.foldl_cons]
    have := ih (memWrite m c.1 c.2) (memWrite_wf m c.1 c.2 h) (fun x hx => hb x (List.mem_cons_of_mem _ hx))
    rw [memOverlay] at this
    rw [this, memRead_memWrite _ _ _ _ h, if_neg (Ne.symm (hb c List.mem_cons_self))]

/-- Two canonical memories that read alike at every address are equal data. -/
theorem memory_ext (m n : List Cell) (hm : Memory.wf m) (hn : Memory.wf n)
    (h : ∀ a, memRead m a = memRead n a) : m = n := by
  induction m generalizing n with
  | nil =>
    cases n with
    | nil => rfl
    | cons c n =>
      have := h c.1
      simp only [memRead, if_true] at this
      exact absurd this.symm (hn.2 c List.mem_cons_self)
  | cons c m ih =>
    cases n with
    | nil =>
      have := h c.1
      simp only [memRead, if_true] at this
      exact absurd this (hm.2 c List.mem_cons_self)
    | cons e n =>
      have hc : ∀ x ∈ m, c.1 < x.1 := memory_wf_head_lt hm
      have he : ∀ x ∈ n, e.1 < x.1 := memory_wf_head_lt hn
      have key : c.1 = e.1 := by
        rcases Nat.lt_trichotomy c.1 e.1 with hlt | heq | hgt
        · have h1 := h c.1
          rw [memRead_below (e :: n) c.1 (fun x hx => by
            rcases List.mem_cons.1 hx with rfl | hx
            · exact hlt
            · exact Nat.lt_trans hlt (he x hx))] at h1
          simp only [memRead, if_true] at h1
          exact absurd h1 (hm.2 c List.mem_cons_self)
        · exact heq
        · have h1 := h e.1
          rw [memRead_below (c :: m) e.1 (fun x hx => by
            rcases List.mem_cons.1 hx with rfl | hx
            · exact hgt
            · exact Nat.lt_trans hgt (hc x hx))] at h1
          simp only [memRead, if_true] at h1
          exact absurd h1.symm (hn.2 e List.mem_cons_self)
      have hv : c.2 = e.2 := by
        have h1 := h c.1
        simp only [memRead, key, if_true] at h1
        exact h1
      have hrest : m = n := ih n (memory_wf_tail hm) (memory_wf_tail hn) (fun a => by
        by_cases ha : c.1 = a
        · subst ha
          rw [memRead_below m c.1 hc, memRead_below n c.1 (fun x hx => by rw [key]; exact he x hx)]
        · have h1 := h a
          simpa [memRead, ha, ← key] using h1)
      rw [hrest, Prod.ext key hv]

end Sys2Proof.Machine
end

