-- ==== Sys2Proof/Laws/Operands.lean ====
section
/-!
SUPPORT. Operand forms: what bit fields, limits, saturating counts and little-endian bytes give.
-/

namespace Sys2Proof.Machine

theorem field_lt {n : Nat} (w : BitVec n) (lo len : Nat) : field w lo len < 2 ^ len :=
  Nat.mod_lt _ (Nat.two_pow_pos len)

@[simp] theorem field_zero (n lo len : Nat) : field (0 : BitVec n) lo len = 0 := by simp [field]

theorem clamp_mem {lo hi : Nat} (h : lo ≤ hi) (v : Nat) : lo ≤ clamp lo hi v ∧ clamp lo hi v ≤ hi := by
  unfold clamp; split
  · exact ⟨Nat.le_refl _, h⟩
  · split <;> omega

/-- A value within its limits acts as it stands (R13). -/
theorem clamp_of_mem {lo hi v : Nat} (h : lo ≤ v) (g : v ≤ hi) : clamp lo hi v = v := by
  unfold clamp; rw [if_neg (by omega), if_neg (by omega)]

theorem satAdd_le (bits n k : Nat) : satAdd bits n k ≤ 2 ^ bits - 1 := Nat.min_le_right ..

theorem satAdd_of_fits {bits n k : Nat} (h : n + k < 2 ^ bits) : satAdd bits n k = n + k := by
  unfold satAdd; omega

@[simp] theorem leBytes_length (n v : Nat) : (leBytes n v).length = n := by
  induction n generalizing v with
  | zero => rfl
  | succ n ih => simp [leBytes, ih]

/-- Bytes of a number, least significant first, give back what fits in them (R9). -/
theorem ofBytes_leBytes (n v : Nat) : ofBytes (leBytes n v) = v % 256 ^ n := by
  induction n generalizing v with
  | zero => simp [leBytes, ofBytes, Nat.mod_one]
  | succ n ih =>
    have h : ofBytes (leBytes (n + 1) v) = v % 256 + 256 * (v / 256 % 256 ^ n) := by
      rw [leBytes, ofBytes, ih, BitVec.toNat_ofNat]
    rw [h, Nat.pow_succ', Nat.mod_mul]

@[simp] theorem withCrc_length (bs : List Byte) : (withCrc bs).length = bs.length + 4 := by simp [withCrc]

/-- The last four bytes of a checked string are the code of those before them (R157). -/
theorem ofBytes_withCrc (bs : List Byte) :
    ofBytes (((withCrc bs).drop bs.length).take 4) = (crc32c ((withCrc bs).take bs.length)).toNat := by
  have h : (crc32c bs).toNat < 256 ^ 4 := (crc32c bs).isLt
  simp only [withCrc, List.drop_left, List.take_left]
  rw [List.take_of_length_le (by simp), ofBytes_leBytes, Nat.mod_eq_of_lt h]

end Sys2Proof.Machine
end

