-- ==== Sys2Proof/Laws/Tab.lean ====
section
/-!
SUPPORT. Sparse tables: what reading an entry gives after each operation on the table.
-/

namespace Sys2Proof

@[simp] theorem Tab.get_set {α : Type} (dflt : α) (t : Tab α) (k j : Nat) (v : α) :
    Tab.get dflt (Tab.set t k v) j = if k = j then v else Tab.get dflt t j := by
  induction t with
  | nil => simp [Tab.set, Tab.get]
  | cons e rest ih =>
    obtain ⟨i, w⟩ := e
    by_cases hk : i = k
    · subst hk; by_cases hj : i = j <;> simp [Tab.set, Tab.get, hj]
    · by_cases hj : i = j
      · subst hj; simp [Tab.set, Tab.get, hk, Ne.symm hk]
      · simp [Tab.set, Tab.get, hk, hj, ih]

@[simp] theorem Tab.get_upd {α : Type} (dflt : α) (t : Tab α) (k j : Nat) (f : α → α) :
    Tab.get dflt (Tab.upd dflt t k f) j = if k = j then f (Tab.get dflt t k) else Tab.get dflt t j := by
  simp [Tab.upd]

theorem Tab.get_mapVals {α β : Type} (a : α) (b : β) (f : α → β) (h : f a = b) (t : Tab α) (j : Nat) :
    Tab.get b (Tab.mapVals f t) j = f (Tab.get a t j) := by
  induction t with
  | nil => simpa [Tab.mapVals, Tab.get] using h.symm
  | cons e rest ih =>
    obtain ⟨i, w⟩ := e
    simp only [Tab.mapVals, List.map_cons, Tab.get] at ih ⊢
    split
    · rfl
    · exact ih

@[simp] theorem Tab.get_drop {α : Type} (dflt : α) (t : Tab α) (k j : Nat) :
    Tab.get dflt (Tab.drop t k) j = if k = j then dflt else Tab.get dflt t j := by
  induction t with
  | nil => simp [Tab.drop, Tab.get]
  | cons e rest ih =>
    obtain ⟨i, w⟩ := e
    by_cases hk : i = k <;> by_cases hj : i = j
    · subst hk; subst hj; simpa [Tab.drop] using ih
    · subst hk; simpa [Tab.drop, Tab.get, hj] using ih
    · subst hj; simp [Tab.drop, Tab.get, hk, Ne.symm hk]
    · simpa [Tab.drop, Tab.get, hk, hj] using ih

end Sys2Proof
end

