-- ==== Sys2Proof/Laws/Reports.lean ====
section
/-!
SUPPORT. The shared reporting operations change nothing but the reports (`Dev.Reports`), and ending a
descriptor nothing but reports and descriptors (`Dev.Answers`).
-/

namespace Sys2Proof.Machine

theorem Dev.Reports.refl (d : Dev) : d.Reports d := ⟨rfl, fun _ => rfl⟩

theorem Dev.Reports.trans {a b c : Dev} (h : a.Reports b) (g : b.Reports c) : a.Reports c :=
  ⟨g.bare.trans h.bare, fun f => (g.fns f).trans (h.fns f)⟩

/-- `trans` with the later change first. -/
theorem Dev.Reports.after {a b c : Dev} (g : b.Reports c) (h : a.Reports b) : a.Reports c := h.trans g

theorem Dev.Answers.trans {a b c : Dev} (h : a.Answers b) (g : b.Answers c) : a.Answers c :=
  ⟨g.bare.trans h.bare, fun f => (g.fns f).trans (h.fns f)⟩

theorem Dev.Reports.answers {a b : Dev} (h : a.Reports b) : a.Answers b :=
  ⟨congrArg (fun d : Dev => { d with descs := [], ept := { d.ept with tags := [] } }) h.bare, h.fns⟩

theorem Dev.Answers.refl (d : Dev) : d.Answers d := ⟨rfl, fun _ => rfl⟩

/-- What a report leaves alone, field by field: any function of the bare device. -/
theorem Dev.Reports.keep {α : Type} {a b : Dev} (h : a.Reports b) (f : Dev → α)
    (hf : ∀ d, f d.bare = f d) : f b = f a := by rw [← hf b, h.bare, hf a]

theorem Dev.Answers.keep {α : Type} {a b : Dev} (h : a.Answers b) (f : Dev → α)
    (hf : ∀ d, f d.bareAll = f d) : f b = f a := by rw [← hf b, h.bare, hf a]

theorem reports_count (n k : Nat) (d : Dev) : d.Reports (count n k d) := ⟨rfl, fun _ => rfl⟩

theorem reports_countFn (f k v : Nat) (d : Dev) : d.Reports (countFn f k v d) := by
  unfold countFn; split
  · exact (Dev.Reports.refl d)
  · exact reports_count ..

theorem reports_countBlk (b k v : Nat) (d : Dev) : d.Reports (countBlk b k v d) := reports_count ..
theorem reports_countCell (c k v : Nat) (d : Dev) : d.Reports (countCell c k v d) := reports_count ..
theorem reports_countPort (p k v : Nat) (d : Dev) : d.Reports (countPort p k v d) := reports_count ..
theorem reports_countChip (k v : Nat) (d : Dev) : d.Reports (countChip k v d) := reports_count ..

theorem reports_emit (o : Out) (d : Dev) : d.Reports (emit o d) := ⟨rfl, fun _ => rfl⟩

theorem getFn_updFn (f j : Nat) (g : FnSt → FnSt) (d : Dev) :
    getFn (updFn f g d) j = if f = j then g (getFn d f) else getFn d j := by
  simp [getFn, updFn]

/-- A change of a function's completion rings, waiting completions or MSI-X table is a report. -/
theorem reports_updFn (f : Nat) (g : FnSt → FnSt) (d : Dev)
    (h : ∀ s, { g s with cq := [], cqWait := [], msix := [] } = { s with cq := [], cqWait := [], msix := [] }) :
    d.Reports (updFn f g d) := by
  refine ⟨rfl, fun j => ?_⟩
  simp only [Dev.fnCore, getFn_updFn]
  split
  · next e => subst e; exact h _
  · rfl

theorem reports_msixSend (f v : Nat) (d : Dev) : d.Reports (msixSend f v d) := by
  unfold msixSend
  simp only
  split
  · exact reports_updFn _ _ _ (fun _ => rfl)
  · exact (reports_emit ..).trans (reports_count ..)

theorem reports_setMrgRing (r : Nat) (g : Ring) (d : Dev) : d.Reports (setMrgRing r g d) :=
  ⟨rfl, fun _ => rfl⟩

theorem reports_setCqRing (f n : Nat) (g : Ring) (d : Dev) : d.Reports (setCqRing f n g d) :=
  reports_updFn _ _ _ (fun _ => rfl)

theorem reports_coalesce (f : Nat) (r : Ring) (d : Dev) : d.Reports (coalesce f r d).2 := by
  unfold coalesce; split
  · exact reports_msixSend ..
  · exact (Dev.Reports.refl d)

theorem reports_mrgWrite (r : Nat) (b : Bool → List Byte) (d : Dev) : d.Reports (mrgWrite r b d) :=
  (reports_emit ..).trans ((reports_coalesce ..).trans (reports_setMrgRing ..))

theorem reports_traceHost (t : TraceEv) (d : Dev) : d.Reports (traceHost t d) := by
  unfold traceHost; simp only
  split
  · exact (Dev.Reports.refl d)
  · split
    · exact ⟨rfl, fun _ => rfl⟩
    · exact Dev.Reports.after (reports_mrgWrite ..) ⟨rfl, fun _ => rfl⟩

theorem reports_trace (ty i a b : Nat) (d : Dev) : d.Reports (trace ty i a b d) :=
  Dev.Reports.after (reports_traceHost ..) ⟨rfl, fun _ => rfl⟩

theorem reports_sayLost (d : Dev) : d.Reports (sayLost d) := by
  unfold sayLost; split
  · exact (Dev.Reports.refl d)
  · exact ⟨rfl, fun _ => rfl⟩

theorem reports_drainEvents (n : Nat) (d : Dev) : d.Reports (drainEvents n d) := by
  induction n generalizing d with
  | zero => exact (Dev.Reports.refl d)
  | succ n ih =>
    unfold drainEvents
    split
    · exact (Dev.Reports.refl d)
    · split
      · exact (Dev.Reports.refl d)
      · exact Dev.Reports.after (ih _) (Dev.Reports.after (reports_mrgWrite ..)
          (Dev.Reports.after (reports_sayLost _) ⟨rfl, fun _ => rfl⟩))

theorem reports_postEvent (t f : Nat) (p : List Nat) (d : Dev) : d.Reports (postEvent t f p d) := by
  unfold postEvent; simp only
  split
  · exact ⟨rfl, fun _ => rfl⟩
  · exact Dev.Reports.after (reports_drainEvents ..) ⟨rfl, fun _ => rfl⟩

theorem reports_drainOrphans (n : Nat) (d : Dev) : d.Reports (drainOrphans n d) := by
  induction n generalizing d with
  | zero => exact (Dev.Reports.refl d)
  | succ n ih =>
    unfold drainOrphans
    split
    · exact (Dev.Reports.refl d)
    · split
      · exact Dev.Reports.after (ih _) (Dev.Reports.after (reports_count ..)
          (Dev.Reports.after (reports_mrgWrite ..) ⟨rfl, fun _ => rfl⟩))
      · exact (Dev.Reports.refl d)

theorem reports_cplWrite (c : Cpl) (d : Dev) : d.Reports (cplWrite c d) := by
  unfold cplWrite; simp only
  split
  · exact (reports_mrgWrite ..).trans (reports_count ..)
  · exact (reports_emit ..).trans ((reports_coalesce ..).trans
      ((reports_setCqRing ..).trans (reports_count ..)))

theorem reports_drainCpls (n f : Nat) (d : Dev) : d.Reports (drainCpls n f d) := by
  induction n generalizing d with
  | zero => exact (Dev.Reports.refl d)
  | succ n ih =>
    unfold drainCpls
    split
    · exact (Dev.Reports.refl d)
    · exact Dev.Reports.after (ih _) (Dev.Reports.after (reports_cplWrite ..) (reports_updFn _ _ _ (fun _ => rfl)))

theorem reports_deliver (c : Cpl) (d : Dev) : d.Reports (deliver c d) := by
  unfold deliver
  split
  · exact (Dev.Reports.refl d)
  · split
    · exact Dev.Reports.after (reports_drainOrphans ..) ⟨rfl, fun _ => rfl⟩
    · exact Dev.Reports.after (reports_drainCpls ..) (reports_updFn _ _ _ (fun _ => rfl))

theorem reports_countStatus (c : Cpl) (d : Dev) : d.Reports (countStatus c d) := by
  unfold countStatus
  repeat' split
  all_goals first | exact reports_countFn .. | exact (Dev.Reports.refl d)

theorem answers_dropDesc (h : Nat) (d : Dev) : d.Answers (dropDesc h d) := ⟨rfl, fun _ => rfl⟩
theorem answers_updDesc (h : Nat) (g : Desc → Desc) (d : Dev) : d.Answers (updDesc h g d) :=
  ⟨rfl, fun _ => rfl⟩
theorem answers_discardReads (h : Nat) (d : Dev) : d.Answers (discardReads h d) := ⟨rfl, fun _ => rfl⟩

theorem answers_finish (x : Desc) (st r b c y h : Nat) (d : Dev) : d.Answers (finish x st r b c y h d) :=
  ((((answers_dropDesc ..).trans (answers_discardReads ..)).trans
    (reports_countFn ..).answers).trans
      (reports_countStatus ..).answers).trans (reports_deliver ..).answers

theorem answers_endWith (x : Desc) (st r b : Nat) (d : Dev) : d.Answers (endWith x st r b d) :=
  answers_finish ..

theorem answers_refuse (x : Desc) (st : Nat) (d : Dev) : d.Answers (refuse x st d) :=
  (answers_finish ..).trans (reports_trace ..).answers

theorem reports_aerSignal (n : Nat) (d : Dev) : d.Reports (aerSignal n d) := by
  unfold aerSignal
  repeat' split
  all_goals first
    | exact (Dev.Reports.refl d)
    | exact reports_emit ..
    | exact Dev.Reports.after (reports_emit ..) ⟨rfl, fun _ => rfl⟩

theorem reports_raiseFault (i : FaultInfo) (d : Dev) : d.Reports (raiseFault i d) := by
  unfold raiseFault
  split
  · exact ⟨rfl, fun _ => rfl⟩
  · simp only
    split
    all_goals
      refine Dev.Reports.after (reports_aerSignal ..) (Dev.Reports.after (reports_trace ..) ?_)
    · exact Dev.Reports.after (reports_count ..) ⟨rfl, fun _ => rfl⟩
    · exact Dev.Reports.after (reports_postEvent ..)
        (Dev.Reports.after (reports_count ..) ⟨rfl, fun _ => rfl⟩)

theorem reports_configRejected (i o : Nat) (d : Dev) : d.Reports (configRejected i o d) :=
  reports_raiseFault ..

end Sys2Proof.Machine
end

