-- ==== Sys2Proof/Laws/State.lean ====
section
/-!
SUPPORT. What each update of the device leaves alone, field by field, and what reading an entry gives
after it; the same for everything that only reports (`Dev.Reports`) or answers (`Dev.Answers`).
-/

namespace Sys2Proof.Machine

/-! ### updBlk -/

@[simp] theorem updBlk_board (b : Nat) (g : Blk → Blk) (d : Dev) : (updBlk b g d).board = d.board := rfl
@[simp] theorem updBlk_pins (b : Nat) (g : Blk → Blk) (d : Dev) : (updBlk b g d).pins = d.pins := rfl
@[simp] theorem updBlk_chp (b : Nat) (g : Blk → Blk) (d : Dev) : (updBlk b g d).chp = d.chp := rfl
@[simp] theorem updBlk_tmb (b : Nat) (g : Blk → Blk) (d : Dev) : (updBlk b g d).tmb = d.tmb := rfl
@[simp] theorem updBlk_spw (b : Nat) (g : Blk → Blk) (d : Dev) : (updBlk b g d).spw = d.spw := rfl
@[simp] theorem updBlk_cur (b : Nat) (g : Blk → Blk) (d : Dev) : (updBlk b g d).cur = d.cur := rfl
@[simp] theorem updBlk_int (b : Nat) (g : Blk → Blk) (d : Dev) : (updBlk b g d).int = d.int := rfl
@[simp] theorem updBlk_adm (b : Nat) (g : Blk → Blk) (d : Dev) : (updBlk b g d).adm = d.adm := rfl
@[simp] theorem updBlk_pages (b : Nat) (g : Blk → Blk) (d : Dev) : (updBlk b g d).pages = d.pages := rfl
@[simp] theorem updBlk_exts (b : Nat) (g : Blk → Blk) (d : Dev) : (updBlk b g d).exts = d.exts := rfl
@[simp] theorem updBlk_cells (b : Nat) (g : Blk → Blk) (d : Dev) : (updBlk b g d).cells = d.cells := rfl
@[simp] theorem updBlk_flash (b : Nat) (g : Blk → Blk) (d : Dev) : (updBlk b g d).flash = d.flash := rfl
@[simp] theorem updBlk_stgCtl (b : Nat) (g : Blk → Blk) (d : Dev) : (updBlk b g d).stgCtl = d.stgCtl := rfl
@[simp] theorem updBlk_stgWear (b : Nat) (g : Blk → Blk) (d : Dev) : (updBlk b g d).stgWear = d.stgWear := rfl
@[simp] theorem updBlk_stgScrub (b : Nat) (g : Blk → Blk) (d : Dev) : (updBlk b g d).stgScrub = d.stgScrub := rfl
@[simp] theorem updBlk_stgCompact (b : Nat) (g : Blk → Blk) (d : Dev) : (updBlk b g d).stgCompact = d.stgCompact := rfl
@[simp] theorem updBlk_stgReserve (b : Nat) (g : Blk → Blk) (d : Dev) : (updBlk b g d).stgReserve = d.stgReserve := rfl
@[simp] theorem updBlk_err (b : Nat) (g : Blk → Blk) (d : Dev) : (updBlk b g d).err = d.err := rfl
@[simp] theorem updBlk_obs (b : Nat) (g : Blk → Blk) (d : Dev) : (updBlk b g d).obs = d.obs := rfl
@[simp] theorem updBlk_fns (b : Nat) (g : Blk → Blk) (d : Dev) : (updBlk b g d).fns = d.fns := rfl
@[simp] theorem updBlk_mrg (b : Nat) (g : Blk → Blk) (d : Dev) : (updBlk b g d).mrg = d.mrg := rfl
@[simp] theorem updBlk_descs (b : Nat) (g : Blk → Blk) (d : Dev) : (updBlk b g d).descs = d.descs := rfl
@[simp] theorem updBlk_ept (b : Nat) (g : Blk → Blk) (d : Dev) : (updBlk b g d).ept = d.ept := rfl
@[simp] theorem updBlk_cip (b : Nat) (g : Blk → Blk) (d : Dev) : (updBlk b g d).cip = d.cip := rfl
@[simp] theorem updBlk_idx (b : Nat) (g : Blk → Blk) (d : Dev) : (updBlk b g d).idx = d.idx := rfl
@[simp] theorem updBlk_drc (b : Nat) (g : Blk → Blk) (d : Dev) : (updBlk b g d).drc = d.drc := rfl
@[simp] theorem updBlk_enc (b : Nat) (g : Blk → Blk) (d : Dev) : (updBlk b g d).enc = d.enc := rfl
@[simp] theorem updBlk_reh (b : Nat) (g : Blk → Blk) (d : Dev) : (updBlk b g d).reh = d.reh := rfl
@[simp] theorem updBlk_svc (b : Nat) (g : Blk → Blk) (d : Dev) : (updBlk b g d).svc = d.svc := rfl
@[simp] theorem updBlk_rom (b : Nat) (g : Blk → Blk) (d : Dev) : (updBlk b g d).rom = d.rom := rfl
@[simp] theorem updBlk_hrk (b : Nat) (g : Blk → Blk) (d : Dev) : (updBlk b g d).hrk = d.hrk := rfl
@[simp] theorem updBlk_est (b : Nat) (g : Blk → Blk) (d : Dev) : (updBlk b g d).est = d.est := rfl
@[simp] theorem updBlk_pkb (b : Nat) (g : Blk → Blk) (d : Dev) : (updBlk b g d).pkb = d.pkb := rfl
@[simp] theorem updBlk_halfLatch (b : Nat) (g : Blk → Blk) (d : Dev) : (updBlk b g d).halfLatch = d.halfLatch := rfl
@[simp] theorem updBlk_readLatch (b : Nat) (g : Blk → Blk) (d : Dev) : (updBlk b g d).readLatch = d.readLatch := rfl
@[simp] theorem updBlk_freeCtr (b : Nat) (g : Blk → Blk) (d : Dev) : (updBlk b g d).freeCtr = d.freeCtr := rfl
@[simp] theorem updBlk_nextHandle (b : Nat) (g : Blk → Blk) (d : Dev) : (updBlk b g d).nextHandle = d.nextHandle := rfl
@[simp] theorem updBlk_nextEid (b : Nat) (g : Blk → Blk) (d : Dev) : (updBlk b g d).nextEid = d.nextEid := rfl
@[simp] theorem updBlk_wrrFn (b : Nat) (g : Blk → Blk) (d : Dev) : (updBlk b g d).wrrFn = d.wrrFn := rfl
@[simp] theorem updBlk_outbox (b : Nat) (g : Blk → Blk) (d : Dev) : (updBlk b g d).outbox = d.outbox := rfl
@[simp] theorem getCell_updBlk (b : Nat) (g : Blk → Blk) (d : Dev) (j : Nat) : getCell (updBlk b g d) j = getCell d j := rfl
@[simp] theorem getFn_updBlk (b : Nat) (g : Blk → Blk) (d : Dev) (j : Nat) : getFn (updBlk b g d) j = getFn d j := rfl
@[simp] theorem getPage_updBlk (b : Nat) (g : Blk → Blk) (d : Dev) (j : Nat) : getPage (updBlk b g d) j = getPage d j := rfl
@[simp] theorem getSlot_updBlk (b : Nat) (g : Blk → Blk) (d : Dev) (j : Nat) : getSlot (updBlk b g d) j = getSlot d j := rfl
@[simp] theorem getPort_updBlk (b : Nat) (g : Blk → Blk) (d : Dev) (j : Nat) : getPort (updBlk b g d) j = getPort d j := rfl
@[simp] theorem findDesc_updBlk (b : Nat) (g : Blk → Blk) (d : Dev) (j : Nat) : findDesc (updBlk b g d) j = findDesc d j := rfl
@[simp] theorem findRec_updBlk (b : Nat) (g : Blk → Blk) (d : Dev) (j : Nat) : findRec (updBlk b g d) j = findRec d j := rfl
@[simp] theorem getBlk_updBlk (b : Nat) (g : Blk → Blk) (d : Dev) (j : Nat) :
    getBlk (updBlk b g d) j = if b = j then g (getBlk d b) else getBlk d j := by
  simp [getBlk, updBlk]

/-! ### updCell -/

@[simp] theorem updCell_board (c : Nat) (g : CellSt → CellSt) (d : Dev) : (updCell c g d).board = d.board := rfl
@[simp] theorem updCell_pins (c : Nat) (g : CellSt → CellSt) (d : Dev) : (updCell c g d).pins = d.pins := rfl
@[simp] theorem updCell_chp (c : Nat) (g : CellSt → CellSt) (d : Dev) : (updCell c g d).chp = d.chp := rfl
@[simp] theorem updCell_tmb (c : Nat) (g : CellSt → CellSt) (d : Dev) : (updCell c g d).tmb = d.tmb := rfl
@[simp] theorem updCell_spw (c : Nat) (g : CellSt → CellSt) (d : Dev) : (updCell c g d).spw = d.spw := rfl
@[simp] theorem updCell_cur (c : Nat) (g : CellSt → CellSt) (d : Dev) : (updCell c g d).cur = d.cur := rfl
@[simp] theorem updCell_int (c : Nat) (g : CellSt → CellSt) (d : Dev) : (updCell c g d).int = d.int := rfl
@[simp] theorem updCell_adm (c : Nat) (g : CellSt → CellSt) (d : Dev) : (updCell c g d).adm = d.adm := rfl
@[simp] theorem updCell_pages (c : Nat) (g : CellSt → CellSt) (d : Dev) : (updCell c g d).pages = d.pages := rfl
@[simp] theorem updCell_exts (c : Nat) (g : CellSt → CellSt) (d : Dev) : (updCell c g d).exts = d.exts := rfl
@[simp] theorem updCell_blk (c : Nat) (g : CellSt → CellSt) (d : Dev) : (updCell c g d).blk = d.blk := rfl
@[simp] theorem updCell_flash (c : Nat) (g : CellSt → CellSt) (d : Dev) : (updCell c g d).flash = d.flash := rfl
@[simp] theorem updCell_stgCtl (c : Nat) (g : CellSt → CellSt) (d : Dev) : (updCell c g d).stgCtl = d.stgCtl := rfl
@[simp] theorem updCell_stgWear (c : Nat) (g : CellSt → CellSt) (d : Dev) : (updCell c g d).stgWear = d.stgWear := rfl
@[simp] theorem updCell_stgScrub (c : Nat) (g : CellSt → CellSt) (d : Dev) : (updCell c g d).stgScrub = d.stgScrub := rfl
@[simp] theorem updCell_stgCompact (c : Nat) (g : CellSt → CellSt) (d : Dev) : (updCell c g d).stgCompact = d.stgCompact := rfl
@[simp] theorem updCell_stgReserve (c : Nat) (g : CellSt → CellSt) (d : Dev) : (updCell c g d).stgReserve = d.stgReserve := rfl
@[simp] theorem updCell_err (c : Nat) (g : CellSt → CellSt) (d : Dev) : (updCell c g d).err = d.err := rfl
@[simp] theorem updCell_obs (c : Nat) (g : CellSt → CellSt) (d : Dev) : (updCell c g d).obs = d.obs := rfl
@[simp] theorem updCell_fns (c : Nat) (g : CellSt → CellSt) (d : Dev) : (updCell c g d).fns = d.fns := rfl
@[simp] theorem updCell_mrg (c : Nat) (g : CellSt → CellSt) (d : Dev) : (updCell c g d).mrg = d.mrg := rfl
@[simp] theorem updCell_descs (c : Nat) (g : CellSt → CellSt) (d : Dev) : (updCell c g d).descs = d.descs := rfl
@[simp] theorem updCell_ept (c : Nat) (g : CellSt → CellSt) (d : Dev) : (updCell c g d).ept = d.ept := rfl
@[simp] theorem updCell_cip (c : Nat) (g : CellSt → CellSt) (d : Dev) : (updCell c g d).cip = d.cip := rfl
@[simp] theorem updCell_idx (c : Nat) (g : CellSt → CellSt) (d : Dev) : (updCell c g d).idx = d.idx := rfl
@[simp] theorem updCell_drc (c : Nat) (g : CellSt → CellSt) (d : Dev) : (updCell c g d).drc = d.drc := rfl
@[simp] theorem updCell_enc (c : Nat) (g : CellSt → CellSt) (d : Dev) : (updCell c g d).enc = d.enc := rfl
@[simp] theorem updCell_reh (c : Nat) (g : CellSt → CellSt) (d : Dev) : (updCell c g d).reh = d.reh := rfl
@[simp] theorem updCell_svc (c : Nat) (g : CellSt → CellSt) (d : Dev) : (updCell c g d).svc = d.svc := rfl
@[simp] theorem updCell_rom (c : Nat) (g : CellSt → CellSt) (d : Dev) : (updCell c g d).rom = d.rom := rfl
@[simp] theorem updCell_hrk (c : Nat) (g : CellSt → CellSt) (d : Dev) : (updCell c g d).hrk = d.hrk := rfl
@[simp] theorem updCell_est (c : Nat) (g : CellSt → CellSt) (d : Dev) : (updCell c g d).est = d.est := rfl
@[simp] theorem updCell_pkb (c : Nat) (g : CellSt → CellSt) (d : Dev) : (updCell c g d).pkb = d.pkb := rfl
@[simp] theorem updCell_halfLatch (c : Nat) (g : CellSt → CellSt) (d : Dev) : (updCell c g d).halfLatch = d.halfLatch := rfl
@[simp] theorem updCell_readLatch (c : Nat) (g : CellSt → CellSt) (d : Dev) : (updCell c g d).readLatch = d.readLatch := rfl
@[simp] theorem updCell_freeCtr (c : Nat) (g : CellSt → CellSt) (d : Dev) : (updCell c g d).freeCtr = d.freeCtr := rfl
@[simp] theorem updCell_nextHandle (c : Nat) (g : CellSt → CellSt) (d : Dev) : (updCell c g d).nextHandle = d.nextHandle := rfl
@[simp] theorem updCell_nextEid (c : Nat) (g : CellSt → CellSt) (d : Dev) : (updCell c g d).nextEid = d.nextEid := rfl
@[simp] theorem updCell_wrrFn (c : Nat) (g : CellSt → CellSt) (d : Dev) : (updCell c g d).wrrFn = d.wrrFn := rfl
@[simp] theorem updCell_outbox (c : Nat) (g : CellSt → CellSt) (d : Dev) : (updCell c g d).outbox = d.outbox := rfl
@[simp] theorem getBlk_updCell (c : Nat) (g : CellSt → CellSt) (d : Dev) (j : Nat) : getBlk (updCell c g d) j = getBlk d j := rfl
@[simp] theorem getFn_updCell (c : Nat) (g : CellSt → CellSt) (d : Dev) (j : Nat) : getFn (updCell c g d) j = getFn d j := rfl
@[simp] theorem getPage_updCell (c : Nat) (g : CellSt → CellSt) (d : Dev) (j : Nat) : getPage (updCell c g d) j = getPage d j := rfl
@[simp] theorem getSlot_updCell (c : Nat) (g : CellSt → CellSt) (d : Dev) (j : Nat) : getSlot (updCell c g d) j = getSlot d j := rfl
@[simp] theorem getPort_updCell (c : Nat) (g : CellSt → CellSt) (d : Dev) (j : Nat) : getPort (updCell c g d) j = getPort d j := rfl
@[simp] theorem findDesc_updCell (c : Nat) (g : CellSt → CellSt) (d : Dev) (j : Nat) : findDesc (updCell c g d) j = findDesc d j := rfl
@[simp] theorem findRec_updCell (c : Nat) (g : CellSt → CellSt) (d : Dev) (j : Nat) : findRec (updCell c g d) j = findRec d j := rfl
@[simp] theorem getCell_updCell (c : Nat) (g : CellSt → CellSt) (d : Dev) (j : Nat) :
    getCell (updCell c g d) j = if c = j then g (getCell d c) else getCell d j := by
  simp [getCell, updCell]

/-! ### updFn -/

@[simp] theorem updFn_board (f : Nat) (g : FnSt → FnSt) (d : Dev) : (updFn f g d).board = d.board := rfl
@[simp] theorem updFn_pins (f : Nat) (g : FnSt → FnSt) (d : Dev) : (updFn f g d).pins = d.pins := rfl
@[simp] theorem updFn_chp (f : Nat) (g : FnSt → FnSt) (d : Dev) : (updFn f g d).chp = d.chp := rfl
@[simp] theorem updFn_tmb (f : Nat) (g : FnSt → FnSt) (d : Dev) : (updFn f g d).tmb = d.tmb := rfl
@[simp] theorem updFn_spw (f : Nat) (g : FnSt → FnSt) (d : Dev) : (updFn f g d).spw = d.spw := rfl
@[simp] theorem updFn_cur (f : Nat) (g : FnSt → FnSt) (d : Dev) : (updFn f g d).cur = d.cur := rfl
@[simp] theorem updFn_int (f : Nat) (g : FnSt → FnSt) (d : Dev) : (updFn f g d).int = d.int := rfl
@[simp] theorem updFn_adm (f : Nat) (g : FnSt → FnSt) (d : Dev) : (updFn f g d).adm = d.adm := rfl
@[simp] theorem updFn_pages (f : Nat) (g : FnSt → FnSt) (d : Dev) : (updFn f g d).pages = d.pages := rfl
@[simp] theorem updFn_exts (f : Nat) (g : FnSt → FnSt) (d : Dev) : (updFn f g d).exts = d.exts := rfl
@[simp] theorem updFn_blk (f : Nat) (g : FnSt → FnSt) (d : Dev) : (updFn f g d).blk = d.blk := rfl
@[simp] theorem updFn_cells (f : Nat) (g : FnSt → FnSt) (d : Dev) : (updFn f g d).cells = d.cells := rfl
@[simp] theorem updFn_flash (f : Nat) (g : FnSt → FnSt) (d : Dev) : (updFn f g d).flash = d.flash := rfl
@[simp] theorem updFn_stgCtl (f : Nat) (g : FnSt → FnSt) (d : Dev) : (updFn f g d).stgCtl = d.stgCtl := rfl
@[simp] theorem updFn_stgWear (f : Nat) (g : FnSt → FnSt) (d : Dev) : (updFn f g d).stgWear = d.stgWear := rfl
@[simp] theorem updFn_stgScrub (f : Nat) (g : FnSt → FnSt) (d : Dev) : (updFn f g d).stgScrub = d.stgScrub := rfl
@[simp] theorem updFn_stgCompact (f : Nat) (g : FnSt → FnSt) (d : Dev) : (updFn f g d).stgCompact = d.stgCompact := rfl
@[simp] theorem updFn_stgReserve (f : Nat) (g : FnSt → FnSt) (d : Dev) : (updFn f g d).stgReserve = d.stgReserve := rfl
@[simp] theorem updFn_err (f : Nat) (g : FnSt → FnSt) (d : Dev) : (updFn f g d).err = d.err := rfl
@[simp] theorem updFn_obs (f : Nat) (g : FnSt → FnSt) (d : Dev) : (updFn f g d).obs = d.obs := rfl
@[simp] theorem updFn_mrg (f : Nat) (g : FnSt → FnSt) (d : Dev) : (updFn f g d).mrg = d.mrg := rfl
@[simp] theorem updFn_descs (f : Nat) (g : FnSt → FnSt) (d : Dev) : (updFn f g d).descs = d.descs := rfl
@[simp] theorem updFn_ept (f : Nat) (g : FnSt → FnSt) (d : Dev) : (updFn f g d).ept = d.ept := rfl
@[simp] theorem updFn_cip (f : Nat) (g : FnSt → FnSt) (d : Dev) : (updFn f g d).cip = d.cip := rfl
@[simp] theorem updFn_idx (f : Nat) (g : FnSt → FnSt) (d : Dev) : (updFn f g d).idx = d.idx := rfl
@[simp] theorem updFn_drc (f : Nat) (g : FnSt → FnSt) (d : Dev) : (updFn f g d).drc = d.drc := rfl
@[simp] theorem updFn_enc (f : Nat) (g : FnSt → FnSt) (d : Dev) : (updFn f g d).enc = d.enc := rfl
@[simp] theorem updFn_reh (f : Nat) (g : FnSt → FnSt) (d : Dev) : (updFn f g d).reh = d.reh := rfl
@[simp] theorem updFn_svc (f : Nat) (g : FnSt → FnSt) (d : Dev) : (updFn f g d).svc = d.svc := rfl
@[simp] theorem updFn_rom (f : Nat) (g : FnSt → FnSt) (d : Dev) : (updFn f g d).rom = d.rom := rfl
@[simp] theorem updFn_hrk (f : Nat) (g : FnSt → FnSt) (d : Dev) : (updFn f g d).hrk = d.hrk := rfl
@[simp] theorem updFn_est (f : Nat) (g : FnSt → FnSt) (d : Dev) : (updFn f g d).est = d.est := rfl
@[simp] theorem updFn_pkb (f : Nat) (g : FnSt → FnSt) (d : Dev) : (updFn f g d).pkb = d.pkb := rfl
@[simp] theorem updFn_halfLatch (f : Nat) (g : FnSt → FnSt) (d : Dev) : (updFn f g d).halfLatch = d.halfLatch := rfl
@[simp] theorem updFn_readLatch (f : Nat) (g : FnSt → FnSt) (d : Dev) : (updFn f g d).readLatch = d.readLatch := rfl
@[simp] theorem updFn_freeCtr (f : Nat) (g : FnSt → FnSt) (d : Dev) : (updFn f g d).freeCtr = d.freeCtr := rfl
@[simp] theorem updFn_nextHandle (f : Nat) (g : FnSt → FnSt) (d : Dev) : (updFn f g d).nextHandle = d.nextHandle := rfl
@[simp] theorem updFn_nextEid (f : Nat) (g : FnSt → FnSt) (d : Dev) : (updFn f g d).nextEid = d.nextEid := rfl
@[simp] theorem updFn_wrrFn (f : Nat) (g : FnSt → FnSt) (d : Dev) : (updFn f g d).wrrFn = d.wrrFn := rfl
@[simp] theorem updFn_outbox (f : Nat) (g : FnSt → FnSt) (d : Dev) : (updFn f g d).outbox = d.outbox := rfl
@[simp] theorem getBlk_updFn (f : Nat) (g : FnSt → FnSt) (d : Dev) (j : Nat) : getBlk (updFn f g d) j = getBlk d j := rfl
@[simp] theorem getCell_updFn (f : Nat) (g : FnSt → FnSt) (d : Dev) (j : Nat) : getCell (updFn f g d) j = getCell d j := rfl
@[simp] theorem getPage_updFn (f : Nat) (g : FnSt → FnSt) (d : Dev) (j : Nat) : getPage (updFn f g d) j = getPage d j := rfl
@[simp] theorem getSlot_updFn (f : Nat) (g : FnSt → FnSt) (d : Dev) (j : Nat) : getSlot (updFn f g d) j = getSlot d j := rfl
@[simp] theorem getPort_updFn (f : Nat) (g : FnSt → FnSt) (d : Dev) (j : Nat) : getPort (updFn f g d) j = getPort d j := rfl
@[simp] theorem findDesc_updFn (f : Nat) (g : FnSt → FnSt) (d : Dev) (j : Nat) : findDesc (updFn f g d) j = findDesc d j := rfl
@[simp] theorem findRec_updFn (f : Nat) (g : FnSt → FnSt) (d : Dev) (j : Nat) : findRec (updFn f g d) j = findRec d j := rfl

/-! ### updPage -/

@[simp] theorem updPage_board (p : Nat) (g : Page → Page) (d : Dev) : (updPage p g d).board = d.board := rfl
@[simp] theorem updPage_pins (p : Nat) (g : Page → Page) (d : Dev) : (updPage p g d).pins = d.pins := rfl
@[simp] theorem updPage_chp (p : Nat) (g : Page → Page) (d : Dev) : (updPage p g d).chp = d.chp := rfl
@[simp] theorem updPage_tmb (p : Nat) (g : Page → Page) (d : Dev) : (updPage p g d).tmb = d.tmb := rfl
@[simp] theorem updPage_spw (p : Nat) (g : Page → Page) (d : Dev) : (updPage p g d).spw = d.spw := rfl
@[simp] theorem updPage_cur (p : Nat) (g : Page → Page) (d : Dev) : (updPage p g d).cur = d.cur := rfl
@[simp] theorem updPage_int (p : Nat) (g : Page → Page) (d : Dev) : (updPage p g d).int = d.int := rfl
@[simp] theorem updPage_adm (p : Nat) (g : Page → Page) (d : Dev) : (updPage p g d).adm = d.adm := rfl
@[simp] theorem updPage_exts (p : Nat) (g : Page → Page) (d : Dev) : (updPage p g d).exts = d.exts := rfl
@[simp] theorem updPage_blk (p : Nat) (g : Page → Page) (d : Dev) : (updPage p g d).blk = d.blk := rfl
@[simp] theorem updPage_cells (p : Nat) (g : Page → Page) (d : Dev) : (updPage p g d).cells = d.cells := rfl
@[simp] theorem updPage_flash (p : Nat) (g : Page → Page) (d : Dev) : (updPage p g d).flash = d.flash := rfl
@[simp] theorem updPage_stgCtl (p : Nat) (g : Page → Page) (d : Dev) : (updPage p g d).stgCtl = d.stgCtl := rfl
@[simp] theorem updPage_stgWear (p : Nat) (g : Page → Page) (d : Dev) : (updPage p g d).stgWear = d.stgWear := rfl
@[simp] theorem updPage_stgScrub (p : Nat) (g : Page → Page) (d : Dev) : (updPage p g d).stgScrub = d.stgScrub := rfl
@[simp] theorem updPage_stgCompact (p : Nat) (g : Page → Page) (d : Dev) : (updPage p g d).stgCompact = d.stgCompact := rfl
@[simp] theorem updPage_stgReserve (p : Nat) (g : Page → Page) (d : Dev) : (updPage p g d).stgReserve = d.stgReserve := rfl
@[simp] theorem updPage_err (p : Nat) (g : Page → Page) (d : Dev) : (updPage p g d).err = d.err := rfl
@[simp] theorem updPage_obs (p : Nat) (g : Page → Page) (d : Dev) : (updPage p g d).obs = d.obs := rfl
@[simp] theorem updPage_fns (p : Nat) (g : Page → Page) (d : Dev) : (updPage p g d).fns = d.fns := rfl
@[simp] theorem updPage_mrg (p : Nat) (g : Page → Page) (d : Dev) : (updPage p g d).mrg = d.mrg := rfl
@[simp] theorem updPage_descs (p : Nat) (g : Page → Page) (d : Dev) : (updPage p g d).descs = d.descs := rfl
@[simp] theorem updPage_ept (p : Nat) (g : Page → Page) (d : Dev) : (updPage p g d).ept = d.ept := rfl
@[simp] theorem updPage_cip (p : Nat) (g : Page → Page) (d : Dev) : (updPage p g d).cip = d.cip := rfl
@[simp] theorem updPage_idx (p : Nat) (g : Page → Page) (d : Dev) : (updPage p g d).idx = d.idx := rfl
@[simp] theorem updPage_drc (p : Nat) (g : Page → Page) (d : Dev) : (updPage p g d).drc = d.drc := rfl
@[simp] theorem updPage_enc (p : Nat) (g : Page → Page) (d : Dev) : (updPage p g d).enc = d.enc := rfl
@[simp] theorem updPage_reh (p : Nat) (g : Page → Page) (d : Dev) : (updPage p g d).reh = d.reh := rfl
@[simp] theorem updPage_svc (p : Nat) (g : Page → Page) (d : Dev) : (updPage p g d).svc = d.svc := rfl
@[simp] theorem updPage_rom (p : Nat) (g : Page → Page) (d : Dev) : (updPage p g d).rom = d.rom := rfl
@[simp] theorem updPage_hrk (p : Nat) (g : Page → Page) (d : Dev) : (updPage p g d).hrk = d.hrk := rfl
@[simp] theorem updPage_est (p : Nat) (g : Page → Page) (d : Dev) : (updPage p g d).est = d.est := rfl
@[simp] theorem updPage_pkb (p : Nat) (g : Page → Page) (d : Dev) : (updPage p g d).pkb = d.pkb := rfl
@[simp] theorem updPage_halfLatch (p : Nat) (g : Page → Page) (d : Dev) : (updPage p g d).halfLatch = d.halfLatch := rfl
@[simp] theorem updPage_readLatch (p : Nat) (g : Page → Page) (d : Dev) : (updPage p g d).readLatch = d.readLatch := rfl
@[simp] theorem updPage_freeCtr (p : Nat) (g : Page → Page) (d : Dev) : (updPage p g d).freeCtr = d.freeCtr := rfl
@[simp] theorem updPage_nextHandle (p : Nat) (g : Page → Page) (d : Dev) : (updPage p g d).nextHandle = d.nextHandle := rfl
@[simp] theorem updPage_nextEid (p : Nat) (g : Page → Page) (d : Dev) : (updPage p g d).nextEid = d.nextEid := rfl
@[simp] theorem updPage_wrrFn (p : Nat) (g : Page → Page) (d : Dev) : (updPage p g d).wrrFn = d.wrrFn := rfl
@[simp] theorem updPage_outbox (p : Nat) (g : Page → Page) (d : Dev) : (updPage p g d).outbox = d.outbox := rfl
@[simp] theorem getBlk_updPage (p : Nat) (g : Page → Page) (d : Dev) (j : Nat) : getBlk (updPage p g d) j = getBlk d j := rfl
@[simp] theorem getCell_updPage (p : Nat) (g : Page → Page) (d : Dev) (j : Nat) : getCell (updPage p g d) j = getCell d j := rfl
@[simp] theorem getFn_updPage (p : Nat) (g : Page → Page) (d : Dev) (j : Nat) : getFn (updPage p g d) j = getFn d j := rfl
@[simp] theorem getSlot_updPage (p : Nat) (g : Page → Page) (d : Dev) (j : Nat) : getSlot (updPage p g d) j = getSlot d j := rfl
@[simp] theorem getPort_updPage (p : Nat) (g : Page → Page) (d : Dev) (j : Nat) : getPort (updPage p g d) j = getPort d j := rfl
@[simp] theorem findDesc_updPage (p : Nat) (g : Page → Page) (d : Dev) (j : Nat) : findDesc (updPage p g d) j = findDesc d j := rfl
@[simp] theorem findRec_updPage (p : Nat) (g : Page → Page) (d : Dev) (j : Nat) : findRec (updPage p g d) j = findRec d j := rfl
@[simp] theorem getPage_updPage (p : Nat) (g : Page → Page) (d : Dev) (j : Nat) :
    getPage (updPage p g d) j = if p = j then g (getPage d p) else getPage d j := by
  simp [getPage, updPage]

/-! ### updSlot -/

@[simp] theorem updSlot_board (k : Nat) (g : Slot → Slot) (d : Dev) : (updSlot k g d).board = d.board := rfl
@[simp] theorem updSlot_pins (k : Nat) (g : Slot → Slot) (d : Dev) : (updSlot k g d).pins = d.pins := rfl
@[simp] theorem updSlot_chp (k : Nat) (g : Slot → Slot) (d : Dev) : (updSlot k g d).chp = d.chp := rfl
@[simp] theorem updSlot_tmb (k : Nat) (g : Slot → Slot) (d : Dev) : (updSlot k g d).tmb = d.tmb := rfl
@[simp] theorem updSlot_spw (k : Nat) (g : Slot → Slot) (d : Dev) : (updSlot k g d).spw = d.spw := rfl
@[simp] theorem updSlot_cur (k : Nat) (g : Slot → Slot) (d : Dev) : (updSlot k g d).cur = d.cur := rfl
@[simp] theorem updSlot_int (k : Nat) (g : Slot → Slot) (d : Dev) : (updSlot k g d).int = d.int := rfl
@[simp] theorem updSlot_adm (k : Nat) (g : Slot → Slot) (d : Dev) : (updSlot k g d).adm = d.adm := rfl
@[simp] theorem updSlot_pages (k : Nat) (g : Slot → Slot) (d : Dev) : (updSlot k g d).pages = d.pages := rfl
@[simp] theorem updSlot_exts (k : Nat) (g : Slot → Slot) (d : Dev) : (updSlot k g d).exts = d.exts := rfl
@[simp] theorem updSlot_blk (k : Nat) (g : Slot → Slot) (d : Dev) : (updSlot k g d).blk = d.blk := rfl
@[simp] theorem updSlot_cells (k : Nat) (g : Slot → Slot) (d : Dev) : (updSlot k g d).cells = d.cells := rfl
@[simp] theorem updSlot_flash (k : Nat) (g : Slot → Slot) (d : Dev) : (updSlot k g d).flash = d.flash := rfl
@[simp] theorem updSlot_stgCtl (k : Nat) (g : Slot → Slot) (d : Dev) : (updSlot k g d).stgCtl = d.stgCtl := rfl
@[simp] theorem updSlot_stgWear (k : Nat) (g : Slot → Slot) (d : Dev) : (updSlot k g d).stgWear = d.stgWear := rfl
@[simp] theorem updSlot_stgScrub (k : Nat) (g : Slot → Slot) (d : Dev) : (updSlot k g d).stgScrub = d.stgScrub := rfl
@[simp] theorem updSlot_stgCompact (k : Nat) (g : Slot → Slot) (d : Dev) : (updSlot k g d).stgCompact = d.stgCompact := rfl
@[simp] theorem updSlot_stgReserve (k : Nat) (g : Slot → Slot) (d : Dev) : (updSlot k g d).stgReserve = d.stgReserve := rfl
@[simp] theorem updSlot_err (k : Nat) (g : Slot → Slot) (d : Dev) : (updSlot k g d).err = d.err := rfl
@[simp] theorem updSlot_obs (k : Nat) (g : Slot → Slot) (d : Dev) : (updSlot k g d).obs = d.obs := rfl
@[simp] theorem updSlot_fns (k : Nat) (g : Slot → Slot) (d : Dev) : (updSlot k g d).fns = d.fns := rfl
@[simp] theorem updSlot_mrg (k : Nat) (g : Slot → Slot) (d : Dev) : (updSlot k g d).mrg = d.mrg := rfl
@[simp] theorem updSlot_descs (k : Nat) (g : Slot → Slot) (d : Dev) : (updSlot k g d).descs = d.descs := rfl
@[simp] theorem updSlot_ept (k : Nat) (g : Slot → Slot) (d : Dev) : (updSlot k g d).ept = d.ept := rfl
@[simp] theorem updSlot_idx (k : Nat) (g : Slot → Slot) (d : Dev) : (updSlot k g d).idx = d.idx := rfl
@[simp] theorem updSlot_drc (k : Nat) (g : Slot → Slot) (d : Dev) : (updSlot k g d).drc = d.drc := rfl
@[simp] theorem updSlot_enc (k : Nat) (g : Slot → Slot) (d : Dev) : (updSlot k g d).enc = d.enc := rfl
@[simp] theorem updSlot_reh (k : Nat) (g : Slot → Slot) (d : Dev) : (updSlot k g d).reh = d.reh := rfl
@[simp] theorem updSlot_svc (k : Nat) (g : Slot → Slot) (d : Dev) : (updSlot k g d).svc = d.svc := rfl
@[simp] theorem updSlot_rom (k : Nat) (g : Slot → Slot) (d : Dev) : (updSlot k g d).rom = d.rom := rfl
@[simp] theorem updSlot_hrk (k : Nat) (g : Slot → Slot) (d : Dev) : (updSlot k g d).hrk = d.hrk := rfl
@[simp] theorem updSlot_est (k : Nat) (g : Slot → Slot) (d : Dev) : (updSlot k g d).est = d.est := rfl
@[simp] theorem updSlot_pkb (k : Nat) (g : Slot → Slot) (d : Dev) : (updSlot k g d).pkb = d.pkb := rfl
@[simp] theorem updSlot_halfLatch (k : Nat) (g : Slot → Slot) (d : Dev) : (updSlot k g d).halfLatch = d.halfLatch := rfl
@[simp] theorem updSlot_readLatch (k : Nat) (g : Slot → Slot) (d : Dev) : (updSlot k g d).readLatch = d.readLatch := rfl
@[simp] theorem updSlot_freeCtr (k : Nat) (g : Slot → Slot) (d : Dev) : (updSlot k g d).freeCtr = d.freeCtr := rfl
@[simp] theorem updSlot_nextHandle (k : Nat) (g : Slot → Slot) (d : Dev) : (updSlot k g d).nextHandle = d.nextHandle := rfl
@[simp] theorem updSlot_nextEid (k : Nat) (g : Slot → Slot) (d : Dev) : (updSlot k g d).nextEid = d.nextEid := rfl
@[simp] theorem updSlot_wrrFn (k : Nat) (g : Slot → Slot) (d : Dev) : (updSlot k g d).wrrFn = d.wrrFn := rfl
@[simp] theorem updSlot_outbox (k : Nat) (g : Slot → Slot) (d : Dev) : (updSlot k g d).outbox = d.outbox := rfl
@[simp] theorem getBlk_updSlot (k : Nat) (g : Slot → Slot) (d : Dev) (j : Nat) : getBlk (updSlot k g d) j = getBlk d j := rfl
@[simp] theorem getCell_updSlot (k : Nat) (g : Slot → Slot) (d : Dev) (j : Nat) : getCell (updSlot k g d) j = getCell d j := rfl
@[simp] theorem getFn_updSlot (k : Nat) (g : Slot → Slot) (d : Dev) (j : Nat) : getFn (updSlot k g d) j = getFn d j := rfl
@[simp] theorem getPage_updSlot (k : Nat) (g : Slot → Slot) (d : Dev) (j : Nat) : getPage (updSlot k g d) j = getPage d j := rfl
@[simp] theorem getPort_updSlot (k : Nat) (g : Slot → Slot) (d : Dev) (j : Nat) : getPort (updSlot k g d) j = getPort d j := rfl
@[simp] theorem findDesc_updSlot (k : Nat) (g : Slot → Slot) (d : Dev) (j : Nat) : findDesc (updSlot k g d) j = findDesc d j := rfl
@[simp] theorem findRec_updSlot (k : Nat) (g : Slot → Slot) (d : Dev) (j : Nat) : findRec (updSlot k g d) j = findRec d j := rfl
@[simp] theorem getSlot_updSlot (k : Nat) (g : Slot → Slot) (d : Dev) (j : Nat) :
    getSlot (updSlot k g d) j = if k = j then g (getSlot d k) else getSlot d j := by
  simp [getSlot, updSlot]

/-! ### updPort -/

@[simp] theorem updPort_board (p : Nat) (g : Port → Port) (d : Dev) : (updPort p g d).board = d.board := rfl
@[simp] theorem updPort_pins (p : Nat) (g : Port → Port) (d : Dev) : (updPort p g d).pins = d.pins := rfl
@[simp] theorem updPort_chp (p : Nat) (g : Port → Port) (d : Dev) : (updPort p g d).chp = d.chp := rfl
@[simp] theorem updPort_tmb (p : Nat) (g : Port → Port) (d : Dev) : (updPort p g d).tmb = d.tmb := rfl
@[simp] theorem updPort_spw (p : Nat) (g : Port → Port) (d : Dev) : (updPort p g d).spw = d.spw := rfl
@[simp] theorem updPort_cur (p : Nat) (g : Port → Port) (d : Dev) : (updPort p g d).cur = d.cur := rfl
@[simp] theorem updPort_int (p : Nat) (g : Port → Port) (d : Dev) : (updPort p g d).int = d.int := rfl
@[simp] theorem updPort_adm (p : Nat) (g : Port → Port) (d : Dev) : (updPort p g d).adm = d.adm := rfl
@[simp] theorem updPort_pages (p : Nat) (g : Port → Port) (d : Dev) : (updPort p g d).pages = d.pages := rfl
@[simp] theorem updPort_exts (p : Nat) (g : Port → Port) (d : Dev) : (updPort p g d).exts = d.exts := rfl
@[simp] theorem updPort_blk (p : Nat) (g : Port → Port) (d : Dev) : (updPort p g d).blk = d.blk := rfl
@[simp] theorem updPort_cells (p : Nat) (g : Port → Port) (d : Dev) : (updPort p g d).cells = d.cells := rfl
@[simp] theorem updPort_flash (p : Nat) (g : Port → Port) (d : Dev) : (updPort p g d).flash = d.flash := rfl
@[simp] theorem updPort_stgCtl (p : Nat) (g : Port → Port) (d : Dev) : (updPort p g d).stgCtl = d.stgCtl := rfl
@[simp] theorem updPort_stgWear (p : Nat) (g : Port → Port) (d : Dev) : (updPort p g d).stgWear = d.stgWear := rfl
@[simp] theorem updPort_stgScrub (p : Nat) (g : Port → Port) (d : Dev) : (updPort p g d).stgScrub = d.stgScrub := rfl
@[simp] theorem updPort_stgCompact (p : Nat) (g : Port → Port) (d : Dev) : (updPort p g d).stgCompact = d.stgCompact := rfl
@[simp] theorem updPort_stgReserve (p : Nat) (g : Port → Port) (d : Dev) : (updPort p g d).stgReserve = d.stgReserve := rfl
@[simp] theorem updPort_err (p : Nat) (g : Port → Port) (d : Dev) : (updPort p g d).err = d.err := rfl
@[simp] theorem updPort_obs (p : Nat) (g : Port → Port) (d : Dev) : (updPort p g d).obs = d.obs := rfl
@[simp] theorem updPort_fns (p : Nat) (g : Port → Port) (d : Dev) : (updPort p g d).fns = d.fns := rfl
@[simp] theorem updPort_mrg (p : Nat) (g : Port → Port) (d : Dev) : (updPort p g d).mrg = d.mrg := rfl
@[simp] theorem updPort_descs (p : Nat) (g : Port → Port) (d : Dev) : (updPort p g d).descs = d.descs := rfl
@[simp] theorem updPort_ept (p : Nat) (g : Port → Port) (d : Dev) : (updPort p g d).ept = d.ept := rfl
@[simp] theorem updPort_cip (p : Nat) (g : Port → Port) (d : Dev) : (updPort p g d).cip = d.cip := rfl
@[simp] theorem updPort_idx (p : Nat) (g : Port → Port) (d : Dev) : (updPort p g d).idx = d.idx := rfl
@[simp] theorem updPort_drc (p : Nat) (g : Port → Port) (d : Dev) : (updPort p g d).drc = d.drc := rfl
@[simp] theorem updPort_enc (p : Nat) (g : Port → Port) (d : Dev) : (updPort p g d).enc = d.enc := rfl
@[simp] theorem updPort_reh (p : Nat) (g : Port → Port) (d : Dev) : (updPort p g d).reh = d.reh := rfl
@[simp] theorem updPort_svc (p : Nat) (g : Port → Port) (d : Dev) : (updPort p g d).svc = d.svc := rfl
@[simp] theorem updPort_rom (p : Nat) (g : Port → Port) (d : Dev) : (updPort p g d).rom = d.rom := rfl
@[simp] theorem updPort_est (p : Nat) (g : Port → Port) (d : Dev) : (updPort p g d).est = d.est := rfl
@[simp] theorem updPort_pkb (p : Nat) (g : Port → Port) (d : Dev) : (updPort p g d).pkb = d.pkb := rfl
@[simp] theorem updPort_halfLatch (p : Nat) (g : Port → Port) (d : Dev) : (updPort p g d).halfLatch = d.halfLatch := rfl
@[simp] theorem updPort_readLatch (p : Nat) (g : Port → Port) (d : Dev) : (updPort p g d).readLatch = d.readLatch := rfl
@[simp] theorem updPort_freeCtr (p : Nat) (g : Port → Port) (d : Dev) : (updPort p g d).freeCtr = d.freeCtr := rfl
@[simp] theorem updPort_nextHandle (p : Nat) (g : Port → Port) (d : Dev) : (updPort p g d).nextHandle = d.nextHandle := rfl
@[simp] theorem updPort_nextEid (p : Nat) (g : Port → Port) (d : Dev) : (updPort p g d).nextEid = d.nextEid := rfl
@[simp] theorem updPort_wrrFn (p : Nat) (g : Port → Port) (d : Dev) : (updPort p g d).wrrFn = d.wrrFn := rfl
@[simp] theorem updPort_outbox (p : Nat) (g : Port → Port) (d : Dev) : (updPort p g d).outbox = d.outbox := rfl
@[simp] theorem getBlk_updPort (p : Nat) (g : Port → Port) (d : Dev) (j : Nat) : getBlk (updPort p g d) j = getBlk d j := rfl
@[simp] theorem getCell_updPort (p : Nat) (g : Port → Port) (d : Dev) (j : Nat) : getCell (updPort p g d) j = getCell d j := rfl
@[simp] theorem getFn_updPort (p : Nat) (g : Port → Port) (d : Dev) (j : Nat) : getFn (updPort p g d) j = getFn d j := rfl
@[simp] theorem getPage_updPort (p : Nat) (g : Port → Port) (d : Dev) (j : Nat) : getPage (updPort p g d) j = getPage d j := rfl
@[simp] theorem getSlot_updPort (p : Nat) (g : Port → Port) (d : Dev) (j : Nat) : getSlot (updPort p g d) j = getSlot d j := rfl
@[simp] theorem findDesc_updPort (p : Nat) (g : Port → Port) (d : Dev) (j : Nat) : findDesc (updPort p g d) j = findDesc d j := rfl
@[simp] theorem findRec_updPort (p : Nat) (g : Port → Port) (d : Dev) (j : Nat) : findRec (updPort p g d) j = findRec d j := rfl
@[simp] theorem getPort_updPort (p : Nat) (g : Port → Port) (d : Dev) (j : Nat) :
    getPort (updPort p g d) j = if p = j then g (getPort d p) else getPort d j := by
  simp [getPort, updPort]

/-! ### updDesc -/

@[simp] theorem updDesc_board (h : Nat) (g : Desc → Desc) (d : Dev) : (updDesc h g d).board = d.board := rfl
@[simp] theorem updDesc_pins (h : Nat) (g : Desc → Desc) (d : Dev) : (updDesc h g d).pins = d.pins := rfl
@[simp] theorem updDesc_chp (h : Nat) (g : Desc → Desc) (d : Dev) : (updDesc h g d).chp = d.chp := rfl
@[simp] theorem updDesc_tmb (h : Nat) (g : Desc → Desc) (d : Dev) : (updDesc h g d).tmb = d.tmb := rfl
@[simp] theorem updDesc_spw (h : Nat) (g : Desc → Desc) (d : Dev) : (updDesc h g d).spw = d.spw := rfl
@[simp] theorem updDesc_cur (h : Nat) (g : Desc → Desc) (d : Dev) : (updDesc h g d).cur = d.cur := rfl
@[simp] theorem updDesc_int (h : Nat) (g : Desc → Desc) (d : Dev) : (updDesc h g d).int = d.int := rfl
@[simp] theorem updDesc_adm (h : Nat) (g : Desc → Desc) (d : Dev) : (updDesc h g d).adm = d.adm := rfl
@[simp] theorem updDesc_pages (h : Nat) (g : Desc → Desc) (d : Dev) : (updDesc h g d).pages = d.pages := rfl
@[simp] theorem updDesc_exts (h : Nat) (g : Desc → Desc) (d : Dev) : (updDesc h g d).exts = d.exts := rfl
@[simp] theorem updDesc_blk (h : Nat) (g : Desc → Desc) (d : Dev) : (updDesc h g d).blk = d.blk := rfl
@[simp] theorem updDesc_cells (h : Nat) (g : Desc → Desc) (d : Dev) : (updDesc h g d).cells = d.cells := rfl
@[simp] theorem updDesc_flash (h : Nat) (g : Desc → Desc) (d : Dev) : (updDesc h g d).flash = d.flash := rfl
@[simp] theorem updDesc_stgCtl (h : Nat) (g : Desc → Desc) (d : Dev) : (updDesc h g d).stgCtl = d.stgCtl := rfl
@[simp] theorem updDesc_stgWear (h : Nat) (g : Desc → Desc) (d : Dev) : (updDesc h g d).stgWear = d.stgWear := rfl
@[simp] theorem updDesc_stgScrub (h : Nat) (g : Desc → Desc) (d : Dev) : (updDesc h g d).stgScrub = d.stgScrub := rfl
@[simp] theorem updDesc_stgCompact (h : Nat) (g : Desc → Desc) (d : Dev) : (updDesc h g d).stgCompact = d.stgCompact := rfl
@[simp] theorem updDesc_stgReserve (h : Nat) (g : Desc → Desc) (d : Dev) : (updDesc h g d).stgReserve = d.stgReserve := rfl
@[simp] theorem updDesc_err (h : Nat) (g : Desc → Desc) (d : Dev) : (updDesc h g d).err = d.err := rfl
@[simp] theorem updDesc_obs (h : Nat) (g : Desc → Desc) (d : Dev) : (updDesc h g d).obs = d.obs := rfl
@[simp] theorem updDesc_fns (h : Nat) (g : Desc → Desc) (d : Dev) : (updDesc h g d).fns = d.fns := rfl
@[simp] theorem updDesc_mrg (h : Nat) (g : Desc → Desc) (d : Dev) : (updDesc h g d).mrg = d.mrg := rfl
@[simp] theorem updDesc_ept (h : Nat) (g : Desc → Desc) (d : Dev) : (updDesc h g d).ept = d.ept := rfl
@[simp] theorem updDesc_cip (h : Nat) (g : Desc → Desc) (d : Dev) : (updDesc h g d).cip = d.cip := rfl
@[simp] theorem updDesc_idx (h : Nat) (g : Desc → Desc) (d : Dev) : (updDesc h g d).idx = d.idx := rfl
@[simp] theorem updDesc_drc (h : Nat) (g : Desc → Desc) (d : Dev) : (updDesc h g d).drc = d.drc := rfl
@[simp] theorem updDesc_enc (h : Nat) (g : Desc → Desc) (d : Dev) : (updDesc h g d).enc = d.enc := rfl
@[simp] theorem updDesc_reh (h : Nat) (g : Desc → Desc) (d : Dev) : (updDesc h g d).reh = d.reh := rfl
@[simp] theorem updDesc_svc (h : Nat) (g : Desc → Desc) (d : Dev) : (updDesc h g d).svc = d.svc := rfl
@[simp] theorem updDesc_rom (h : Nat) (g : Desc → Desc) (d : Dev) : (updDesc h g d).rom = d.rom := rfl
@[simp] theorem updDesc_hrk (h : Nat) (g : Desc → Desc) (d : Dev) : (updDesc h g d).hrk = d.hrk := rfl
@[simp] theorem updDesc_est (h : Nat) (g : Desc → Desc) (d : Dev) : (updDesc h g d).est = d.est := rfl
@[simp] theorem updDesc_pkb (h : Nat) (g : Desc → Desc) (d : Dev) : (updDesc h g d).pkb = d.pkb := rfl
@[simp] theorem updDesc_halfLatch (h : Nat) (g : Desc → Desc) (d : Dev) : (updDesc h g d).halfLatch = d.halfLatch := rfl
@[simp] theorem updDesc_readLatch (h : Nat) (g : Desc → Desc) (d : Dev) : (updDesc h g d).readLatch = d.readLatch := rfl
@[simp] theorem updDesc_freeCtr (h : Nat) (g : Desc → Desc) (d : Dev) : (updDesc h g d).freeCtr = d.freeCtr := rfl
@[simp] theorem updDesc_nextHandle (h : Nat) (g : Desc → Desc) (d : Dev) : (updDesc h g d).nextHandle = d.nextHandle := rfl
@[simp] theorem updDesc_nextEid (h : Nat) (g : Desc → Desc) (d : Dev) : (updDesc h g d).nextEid = d.nextEid := rfl
@[simp] theorem updDesc_wrrFn (h : Nat) (g : Desc → Desc) (d : Dev) : (updDesc h g d).wrrFn = d.wrrFn := rfl
@[simp] theorem updDesc_outbox (h : Nat) (g : Desc → Desc) (d : Dev) : (updDesc h g d).outbox = d.outbox := rfl
@[simp] theorem getBlk_updDesc (h : Nat) (g : Desc → Desc) (d : Dev) (j : Nat) : getBlk (updDesc h g d) j = getBlk d j := rfl
@[simp] theorem getCell_updDesc (h : Nat) (g : Desc → Desc) (d : Dev) (j : Nat) : getCell (updDesc h g d) j = getCell d j := rfl
@[simp] theorem getFn_updDesc (h : Nat) (g : Desc → Desc) (d : Dev) (j : Nat) : getFn (updDesc h g d) j = getFn d j := rfl
@[simp] theorem getPage_updDesc (h : Nat) (g : Desc → Desc) (d : Dev) (j : Nat) : getPage (updDesc h g d) j = getPage d j := rfl
@[simp] theorem getSlot_updDesc (h : Nat) (g : Desc → Desc) (d : Dev) (j : Nat) : getSlot (updDesc h g d) j = getSlot d j := rfl
@[simp] theorem getPort_updDesc (h : Nat) (g : Desc → Desc) (d : Dev) (j : Nat) : getPort (updDesc h g d) j = getPort d j := rfl
@[simp] theorem findRec_updDesc (h : Nat) (g : Desc → Desc) (d : Dev) (j : Nat) : findRec (updDesc h g d) j = findRec d j := rfl

/-! ### dropDesc -/

@[simp] theorem dropDesc_board (h : Nat) (d : Dev) : (dropDesc h d).board = d.board := rfl
@[simp] theorem dropDesc_pins (h : Nat) (d : Dev) : (dropDesc h d).pins = d.pins := rfl
@[simp] theorem dropDesc_chp (h : Nat) (d : Dev) : (dropDesc h d).chp = d.chp := rfl
@[simp] theorem dropDesc_tmb (h : Nat) (d : Dev) : (dropDesc h d).tmb = d.tmb := rfl
@[simp] theorem dropDesc_spw (h : Nat) (d : Dev) : (dropDesc h d).spw = d.spw := rfl
@[simp] theorem dropDesc_cur (h : Nat) (d : Dev) : (dropDesc h d).cur = d.cur := rfl
@[simp] theorem dropDesc_int (h : Nat) (d : Dev) : (dropDesc h d).int = d.int := rfl
@[simp] theorem dropDesc_adm (h : Nat) (d : Dev) : (dropDesc h d).adm = d.adm := rfl
@[simp] theorem dropDesc_pages (h : Nat) (d : Dev) : (dropDesc h d).pages = d.pages := rfl
@[simp] theorem dropDesc_exts (h : Nat) (d : Dev) : (dropDesc h d).exts = d.exts := rfl
@[simp] theorem dropDesc_blk (h : Nat) (d : Dev) : (dropDesc h d).blk = d.blk := rfl
@[simp] theorem dropDesc_cells (h : Nat) (d : Dev) : (dropDesc h d).cells = d.cells := rfl
@[simp] theorem dropDesc_flash (h : Nat) (d : Dev) : (dropDesc h d).flash = d.flash := rfl
@[simp] theorem dropDesc_stgCtl (h : Nat) (d : Dev) : (dropDesc h d).stgCtl = d.stgCtl := rfl
@[simp] theorem dropDesc_stgWear (h : Nat) (d : Dev) : (dropDesc h d).stgWear = d.stgWear := rfl
@[simp] theorem dropDesc_stgScrub (h : Nat) (d : Dev) : (dropDesc h d).stgScrub = d.stgScrub := rfl
@[simp] theorem dropDesc_stgCompact (h : Nat) (d : Dev) : (dropDesc h d).stgCompact = d.stgCompact := rfl
@[simp] theorem dropDesc_stgReserve (h : Nat) (d : Dev) : (dropDesc h d).stgReserve = d.stgReserve := rfl
@[simp] theorem dropDesc_err (h : Nat) (d : Dev) : (dropDesc h d).err = d.err := rfl
@[simp] theorem dropDesc_obs (h : Nat) (d : Dev) : (dropDesc h d).obs = d.obs := rfl
@[simp] theorem dropDesc_fns (h : Nat) (d : Dev) : (dropDesc h d).fns = d.fns := rfl
@[simp] theorem dropDesc_mrg (h : Nat) (d : Dev) : (dropDesc h d).mrg = d.mrg := rfl
@[simp] theorem dropDesc_ept (h : Nat) (d : Dev) : (dropDesc h d).ept = d.ept := rfl
@[simp] theorem dropDesc_cip (h : Nat) (d : Dev) : (dropDesc h d).cip = d.cip := rfl
@[simp] theorem dropDesc_idx (h : Nat) (d : Dev) : (dropDesc h d).idx = d.idx := rfl
@[simp] theorem dropDesc_drc (h : Nat) (d : Dev) : (dropDesc h d).drc = d.drc := rfl
@[simp] theorem dropDesc_enc (h : Nat) (d : Dev) : (dropDesc h d).enc = d.enc := rfl
@[simp] theorem dropDesc_reh (h : Nat) (d : Dev) : (dropDesc h d).reh = d.reh := rfl
@[simp] theorem dropDesc_svc (h : Nat) (d : Dev) : (dropDesc h d).svc = d.svc := rfl
@[simp] theorem dropDesc_rom (h : Nat) (d : Dev) : (dropDesc h d).rom = d.rom := rfl
@[simp] theorem dropDesc_hrk (h : Nat) (d : Dev) : (dropDesc h d).hrk = d.hrk := rfl
@[simp] theorem dropDesc_est (h : Nat) (d : Dev) : (dropDesc h d).est = d.est := rfl
@[simp] theorem dropDesc_pkb (h : Nat) (d : Dev) : (dropDesc h d).pkb = d.pkb := rfl
@[simp] theorem dropDesc_halfLatch (h : Nat) (d : Dev) : (dropDesc h d).halfLatch = d.halfLatch := rfl
@[simp] theorem dropDesc_readLatch (h : Nat) (d : Dev) : (dropDesc h d).readLatch = d.readLatch := rfl
@[simp] theorem dropDesc_freeCtr (h : Nat) (d : Dev) : (dropDesc h d).freeCtr = d.freeCtr := rfl
@[simp] theorem dropDesc_nextHandle (h : Nat) (d : Dev) : (dropDesc h d).nextHandle = d.nextHandle := rfl
@[simp] theorem dropDesc_nextEid (h : Nat) (d : Dev) : (dropDesc h d).nextEid = d.nextEid := rfl
@[simp] theorem dropDesc_wrrFn (h : Nat) (d : Dev) : (dropDesc h d).wrrFn = d.wrrFn := rfl
@[simp] theorem dropDesc_outbox (h : Nat) (d : Dev) : (dropDesc h d).outbox = d.outbox := rfl
@[simp] theorem getBlk_dropDesc (h : Nat) (d : Dev) (j : Nat) : getBlk (dropDesc h d) j = getBlk d j := rfl
@[simp] theorem getCell_dropDesc (h : Nat) (d : Dev) (j : Nat) : getCell (dropDesc h d) j = getCell d j := rfl
@[simp] theorem getFn_dropDesc (h : Nat) (d : Dev) (j : Nat) : getFn (dropDesc h d) j = getFn d j := rfl
@[simp] theorem getPage_dropDesc (h : Nat) (d : Dev) (j : Nat) : getPage (dropDesc h d) j = getPage d j := rfl
@[simp] theorem getSlot_dropDesc (h : Nat) (d : Dev) (j : Nat) : getSlot (dropDesc h d) j = getSlot d j := rfl
@[simp] theorem getPort_dropDesc (h : Nat) (d : Dev) (j : Nat) : getPort (dropDesc h d) j = getPort d j := rfl
@[simp] theorem findRec_dropDesc (h : Nat) (d : Dev) (j : Nat) : findRec (dropDesc h d) j = findRec d j := rfl

/-! ### updRec -/

@[simp] theorem updRec_board (id : Nat) (g : Rec → Rec) (d : Dev) : (updRec id g d).board = d.board := rfl
@[simp] theorem updRec_pins (id : Nat) (g : Rec → Rec) (d : Dev) : (updRec id g d).pins = d.pins := rfl
@[simp] theorem updRec_chp (id : Nat) (g : Rec → Rec) (d : Dev) : (updRec id g d).chp = d.chp := rfl
@[simp] theorem updRec_tmb (id : Nat) (g : Rec → Rec) (d : Dev) : (updRec id g d).tmb = d.tmb := rfl
@[simp] theorem updRec_spw (id : Nat) (g : Rec → Rec) (d : Dev) : (updRec id g d).spw = d.spw := rfl
@[simp] theorem updRec_cur (id : Nat) (g : Rec → Rec) (d : Dev) : (updRec id g d).cur = d.cur := rfl
@[simp] theorem updRec_int (id : Nat) (g : Rec → Rec) (d : Dev) : (updRec id g d).int = d.int := rfl
@[simp] theorem updRec_adm (id : Nat) (g : Rec → Rec) (d : Dev) : (updRec id g d).adm = d.adm := rfl
@[simp] theorem updRec_pages (id : Nat) (g : Rec → Rec) (d : Dev) : (updRec id g d).pages = d.pages := rfl
@[simp] theorem updRec_exts (id : Nat) (g : Rec → Rec) (d : Dev) : (updRec id g d).exts = d.exts := rfl
@[simp] theorem updRec_blk (id : Nat) (g : Rec → Rec) (d : Dev) : (updRec id g d).blk = d.blk := rfl
@[simp] theorem updRec_cells (id : Nat) (g : Rec → Rec) (d : Dev) : (updRec id g d).cells = d.cells := rfl
@[simp] theorem updRec_stgCtl (id : Nat) (g : Rec → Rec) (d : Dev) : (updRec id g d).stgCtl = d.stgCtl := rfl
@[simp] theorem updRec_stgWear (id : Nat) (g : Rec → Rec) (d : Dev) : (updRec id g d).stgWear = d.stgWear := rfl
@[simp] theorem updRec_stgScrub (id : Nat) (g : Rec → Rec) (d : Dev) : (updRec id g d).stgScrub = d.stgScrub := rfl
@[simp] theorem updRec_stgCompact (id : Nat) (g : Rec → Rec) (d : Dev) : (updRec id g d).stgCompact = d.stgCompact := rfl
@[simp] theorem updRec_stgReserve (id : Nat) (g : Rec → Rec) (d : Dev) : (updRec id g d).stgReserve = d.stgReserve := rfl
@[simp] theorem updRec_err (id : Nat) (g : Rec → Rec) (d : Dev) : (updRec id g d).err = d.err := rfl
@[simp] theorem updRec_obs (id : Nat) (g : Rec → Rec) (d : Dev) : (updRec id g d).obs = d.obs := rfl
@[simp] theorem updRec_fns (id : Nat) (g : Rec → Rec) (d : Dev) : (updRec id g d).fns = d.fns := rfl
@[simp] theorem updRec_mrg (id : Nat) (g : Rec → Rec) (d : Dev) : (updRec id g d).mrg = d.mrg := rfl
@[simp] theorem updRec_descs (id : Nat) (g : Rec → Rec) (d : Dev) : (updRec id g d).descs = d.descs := rfl
@[simp] theorem updRec_ept (id : Nat) (g : Rec → Rec) (d : Dev) : (updRec id g d).ept = d.ept := rfl
@[simp] theorem updRec_cip (id : Nat) (g : Rec → Rec) (d : Dev) : (updRec id g d).cip = d.cip := rfl
@[simp] theorem updRec_idx (id : Nat) (g : Rec → Rec) (d : Dev) : (updRec id g d).idx = d.idx := rfl
@[simp] theorem updRec_drc (id : Nat) (g : Rec → Rec) (d : Dev) : (updRec id g d).drc = d.drc := rfl
@[simp] theorem updRec_enc (id : Nat) (g : Rec → Rec) (d : Dev) : (updRec id g d).enc = d.enc := rfl
@[simp] theorem updRec_reh (id : Nat) (g : Rec → Rec) (d : Dev) : (updRec id g d).reh = d.reh := rfl
@[simp] theorem updRec_svc (id : Nat) (g : Rec → Rec) (d : Dev) : (updRec id g d).svc = d.svc := rfl
@[simp] theorem updRec_rom (id : Nat) (g : Rec → Rec) (d : Dev) : (updRec id g d).rom = d.rom := rfl
@[simp] theorem updRec_hrk (id : Nat) (g : Rec → Rec) (d : Dev) : (updRec id g d).hrk = d.hrk := rfl
@[simp] theorem updRec_est (id : Nat) (g : Rec → Rec) (d : Dev) : (updRec id g d).est = d.est := rfl
@[simp] theorem updRec_pkb (id : Nat) (g : Rec → Rec) (d : Dev) : (updRec id g d).pkb = d.pkb := rfl
@[simp] theorem updRec_halfLatch (id : Nat) (g : Rec → Rec) (d : Dev) : (updRec id g d).halfLatch = d.halfLatch := rfl
@[simp] theorem updRec_readLatch (id : Nat) (g : Rec → Rec) (d : Dev) : (updRec id g d).readLatch = d.readLatch := rfl
@[simp] theorem updRec_freeCtr (id : Nat) (g : Rec → Rec) (d : Dev) : (updRec id g d).freeCtr = d.freeCtr := rfl
@[simp] theorem updRec_nextHandle (id : Nat) (g : Rec → Rec) (d : Dev) : (updRec id g d).nextHandle = d.nextHandle := rfl
@[simp] theorem updRec_nextEid (id : Nat) (g : Rec → Rec) (d : Dev) : (updRec id g d).nextEid = d.nextEid := rfl
@[simp] theorem updRec_wrrFn (id : Nat) (g : Rec → Rec) (d : Dev) : (updRec id g d).wrrFn = d.wrrFn := rfl
@[simp] theorem updRec_outbox (id : Nat) (g : Rec → Rec) (d : Dev) : (updRec id g d).outbox = d.outbox := rfl
@[simp] theorem getBlk_updRec (id : Nat) (g : Rec → Rec) (d : Dev) (j : Nat) : getBlk (updRec id g d) j = getBlk d j := rfl
@[simp] theorem getCell_updRec (id : Nat) (g : Rec → Rec) (d : Dev) (j : Nat) : getCell (updRec id g d) j = getCell d j := rfl
@[simp] theorem getFn_updRec (id : Nat) (g : Rec → Rec) (d : Dev) (j : Nat) : getFn (updRec id g d) j = getFn d j := rfl
@[simp] theorem getPage_updRec (id : Nat) (g : Rec → Rec) (d : Dev) (j : Nat) : getPage (updRec id g d) j = getPage d j := rfl
@[simp] theorem getSlot_updRec (id : Nat) (g : Rec → Rec) (d : Dev) (j : Nat) : getSlot (updRec id g d) j = getSlot d j := rfl
@[simp] theorem getPort_updRec (id : Nat) (g : Rec → Rec) (d : Dev) (j : Nat) : getPort (updRec id g d) j = getPort d j := rfl
@[simp] theorem findDesc_updRec (id : Nat) (g : Rec → Rec) (d : Dev) (j : Nat) : findDesc (updRec id g d) j = findDesc d j := rfl

/-! ### count -/

@[simp] theorem count_board (n k : Nat) (d : Dev) : (count n k d).board = d.board := rfl
@[simp] theorem count_pins (n k : Nat) (d : Dev) : (count n k d).pins = d.pins := rfl
@[simp] theorem count_chp (n k : Nat) (d : Dev) : (count n k d).chp = d.chp := rfl
@[simp] theorem count_tmb (n k : Nat) (d : Dev) : (count n k d).tmb = d.tmb := rfl
@[simp] theorem count_spw (n k : Nat) (d : Dev) : (count n k d).spw = d.spw := rfl
@[simp] theorem count_cur (n k : Nat) (d : Dev) : (count n k d).cur = d.cur := rfl
@[simp] theorem count_int (n k : Nat) (d : Dev) : (count n k d).int = d.int := rfl
@[simp] theorem count_adm (n k : Nat) (d : Dev) : (count n k d).adm = d.adm := rfl
@[simp] theorem count_pages (n k : Nat) (d : Dev) : (count n k d).pages = d.pages := rfl
@[simp] theorem count_exts (n k : Nat) (d : Dev) : (count n k d).exts = d.exts := rfl
@[simp] theorem count_blk (n k : Nat) (d : Dev) : (count n k d).blk = d.blk := rfl
@[simp] theorem count_cells (n k : Nat) (d : Dev) : (count n k d).cells = d.cells := rfl
@[simp] theorem count_flash (n k : Nat) (d : Dev) : (count n k d).flash = d.flash := rfl
@[simp] theorem count_stgCtl (n k : Nat) (d : Dev) : (count n k d).stgCtl = d.stgCtl := rfl
@[simp] theorem count_stgWear (n k : Nat) (d : Dev) : (count n k d).stgWear = d.stgWear := rfl
@[simp] theorem count_stgScrub (n k : Nat) (d : Dev) : (count n k d).stgScrub = d.stgScrub := rfl
@[simp] theorem count_stgCompact (n k : Nat) (d : Dev) : (count n k d).stgCompact = d.stgCompact := rfl
@[simp] theorem count_stgReserve (n k : Nat) (d : Dev) : (count n k d).stgReserve = d.stgReserve := rfl
@[simp] theorem count_err (n k : Nat) (d : Dev) : (count n k d).err = d.err := rfl
@[simp] theorem count_fns (n k : Nat) (d : Dev) : (count n k d).fns = d.fns := rfl
@[simp] theorem count_mrg (n k : Nat) (d : Dev) : (count n k d).mrg = d.mrg := rfl
@[simp] theorem count_descs (n k : Nat) (d : Dev) : (count n k d).descs = d.descs := rfl
@[simp] theorem count_ept (n k : Nat) (d : Dev) : (count n k d).ept = d.ept := rfl
@[simp] theorem count_cip (n k : Nat) (d : Dev) : (count n k d).cip = d.cip := rfl
@[simp] theorem count_idx (n k : Nat) (d : Dev) : (count n k d).idx = d.idx := rfl
@[simp] theorem count_drc (n k : Nat) (d : Dev) : (count n k d).drc = d.drc := rfl
@[simp] theorem count_enc (n k : Nat) (d : Dev) : (count n k d).enc = d.enc := rfl
@[simp] theorem count_reh (n k : Nat) (d : Dev) : (count n k d).reh = d.reh := rfl
@[simp] theorem count_svc (n k : Nat) (d : Dev) : (count n k d).svc = d.svc := rfl
@[simp] theorem count_rom (n k : Nat) (d : Dev) : (count n k d).rom = d.rom := rfl
@[simp] theorem count_hrk (n k : Nat) (d : Dev) : (count n k d).hrk = d.hrk := rfl
@[simp] theorem count_est (n k : Nat) (d : Dev) : (count n k d).est = d.est := rfl
@[simp] theorem count_pkb (n k : Nat) (d : Dev) : (count n k d).pkb = d.pkb := rfl
@[simp] theorem count_halfLatch (n k : Nat) (d : Dev) : (count n k d).halfLatch = d.halfLatch := rfl
@[simp] theorem count_readLatch (n k : Nat) (d : Dev) : (count n k d).readLatch = d.readLatch := rfl
@[simp] theorem count_freeCtr (n k : Nat) (d : Dev) : (count n k d).freeCtr = d.freeCtr := rfl
@[simp] theorem count_nextHandle (n k : Nat) (d : Dev) : (count n k d).nextHandle = d.nextHandle := rfl
@[simp] theorem count_nextEid (n k : Nat) (d : Dev) : (count n k d).nextEid = d.nextEid := rfl
@[simp] theorem count_wrrFn (n k : Nat) (d : Dev) : (count n k d).wrrFn = d.wrrFn := rfl
@[simp] theorem count_outbox (n k : Nat) (d : Dev) : (count n k d).outbox = d.outbox := rfl
@[simp] theorem getBlk_count (n k : Nat) (d : Dev) (j : Nat) : getBlk (count n k d) j = getBlk d j := rfl
@[simp] theorem getCell_count (n k : Nat) (d : Dev) (j : Nat) : getCell (count n k d) j = getCell d j := rfl
@[simp] theorem getFn_count (n k : Nat) (d : Dev) (j : Nat) : getFn (count n k d) j = getFn d j := rfl
@[simp] theorem getPage_count (n k : Nat) (d : Dev) (j : Nat) : getPage (count n k d) j = getPage d j := rfl
@[simp] theorem getSlot_count (n k : Nat) (d : Dev) (j : Nat) : getSlot (count n k d) j = getSlot d j := rfl
@[simp] theorem getPort_count (n k : Nat) (d : Dev) (j : Nat) : getPort (count n k d) j = getPort d j := rfl
@[simp] theorem findDesc_count (n k : Nat) (d : Dev) (j : Nat) : findDesc (count n k d) j = findDesc d j := rfl
@[simp] theorem findRec_count (n k : Nat) (d : Dev) (j : Nat) : findRec (count n k d) j = findRec d j := rfl

/-! ### emit -/

@[simp] theorem emit_board (o : Out) (d : Dev) : (emit o d).board = d.board := rfl
@[simp] theorem emit_pins (o : Out) (d : Dev) : (emit o d).pins = d.pins := rfl
@[simp] theorem emit_chp (o : Out) (d : Dev) : (emit o d).chp = d.chp := rfl
@[simp] theorem emit_tmb (o : Out) (d : Dev) : (emit o d).tmb = d.tmb := rfl
@[simp] theorem emit_spw (o : Out) (d : Dev) : (emit o d).spw = d.spw := rfl
@[simp] theorem emit_cur (o : Out) (d : Dev) : (emit o d).cur = d.cur := rfl
@[simp] theorem emit_int (o : Out) (d : Dev) : (emit o d).int = d.int := rfl
@[simp] theorem emit_adm (o : Out) (d : Dev) : (emit o d).adm = d.adm := rfl
@[simp] theorem emit_pages (o : Out) (d : Dev) : (emit o d).pages = d.pages := rfl
@[simp] theorem emit_exts (o : Out) (d : Dev) : (emit o d).exts = d.exts := rfl
@[simp] theorem emit_blk (o : Out) (d : Dev) : (emit o d).blk = d.blk := rfl
@[simp] theorem emit_cells (o : Out) (d : Dev) : (emit o d).cells = d.cells := rfl
@[simp] theorem emit_flash (o : Out) (d : Dev) : (emit o d).flash = d.flash := rfl
@[simp] theorem emit_stgCtl (o : Out) (d : Dev) : (emit o d).stgCtl = d.stgCtl := rfl
@[simp] theorem emit_stgWear (o : Out) (d : Dev) : (emit o d).stgWear = d.stgWear := rfl
@[simp] theorem emit_stgScrub (o : Out) (d : Dev) : (emit o d).stgScrub = d.stgScrub := rfl
@[simp] theorem emit_stgCompact (o : Out) (d : Dev) : (emit o d).stgCompact = d.stgCompact := rfl
@[simp] theorem emit_stgReserve (o : Out) (d : Dev) : (emit o d).stgReserve = d.stgReserve := rfl
@[simp] theorem emit_err (o : Out) (d : Dev) : (emit o d).err = d.err := rfl
@[simp] theorem emit_fns (o : Out) (d : Dev) : (emit o d).fns = d.fns := rfl
@[simp] theorem emit_mrg (o : Out) (d : Dev) : (emit o d).mrg = d.mrg := rfl
@[simp] theorem emit_descs (o : Out) (d : Dev) : (emit o d).descs = d.descs := rfl
@[simp] theorem emit_ept (o : Out) (d : Dev) : (emit o d).ept = d.ept := rfl
@[simp] theorem emit_cip (o : Out) (d : Dev) : (emit o d).cip = d.cip := rfl
@[simp] theorem emit_idx (o : Out) (d : Dev) : (emit o d).idx = d.idx := rfl
@[simp] theorem emit_drc (o : Out) (d : Dev) : (emit o d).drc = d.drc := rfl
@[simp] theorem emit_enc (o : Out) (d : Dev) : (emit o d).enc = d.enc := rfl
@[simp] theorem emit_reh (o : Out) (d : Dev) : (emit o d).reh = d.reh := rfl
@[simp] theorem emit_svc (o : Out) (d : Dev) : (emit o d).svc = d.svc := rfl
@[simp] theorem emit_rom (o : Out) (d : Dev) : (emit o d).rom = d.rom := rfl
@[simp] theorem emit_hrk (o : Out) (d : Dev) : (emit o d).hrk = d.hrk := rfl
@[simp] theorem emit_est (o : Out) (d : Dev) : (emit o d).est = d.est := rfl
@[simp] theorem emit_pkb (o : Out) (d : Dev) : (emit o d).pkb = d.pkb := rfl
@[simp] theorem emit_halfLatch (o : Out) (d : Dev) : (emit o d).halfLatch = d.halfLatch := rfl
@[simp] theorem emit_readLatch (o : Out) (d : Dev) : (emit o d).readLatch = d.readLatch := rfl
@[simp] theorem emit_freeCtr (o : Out) (d : Dev) : (emit o d).freeCtr = d.freeCtr := rfl
@[simp] theorem emit_nextHandle (o : Out) (d : Dev) : (emit o d).nextHandle = d.nextHandle := rfl
@[simp] theorem emit_nextEid (o : Out) (d : Dev) : (emit o d).nextEid = d.nextEid := rfl
@[simp] theorem emit_wrrFn (o : Out) (d : Dev) : (emit o d).wrrFn = d.wrrFn := rfl
@[simp] theorem getBlk_emit (o : Out) (d : Dev) (j : Nat) : getBlk (emit o d) j = getBlk d j := rfl
@[simp] theorem getCell_emit (o : Out) (d : Dev) (j : Nat) : getCell (emit o d) j = getCell d j := rfl
@[simp] theorem getFn_emit (o : Out) (d : Dev) (j : Nat) : getFn (emit o d) j = getFn d j := rfl
@[simp] theorem getPage_emit (o : Out) (d : Dev) (j : Nat) : getPage (emit o d) j = getPage d j := rfl
@[simp] theorem getSlot_emit (o : Out) (d : Dev) (j : Nat) : getSlot (emit o d) j = getSlot d j := rfl
@[simp] theorem getPort_emit (o : Out) (d : Dev) (j : Nat) : getPort (emit o d) j = getPort d j := rfl
@[simp] theorem findDesc_emit (o : Out) (d : Dev) (j : Nat) : findDesc (emit o d) j = findDesc d j := rfl
@[simp] theorem findRec_emit (o : Out) (d : Dev) (j : Nat) : findRec (emit o d) j = findRec d j := rfl

/-! ### Reports and answers -/

theorem Dev.Reports.board_eq {a b : Dev} (h : a.Reports b) : b.board = a.board := h.keep Dev.board (fun _ => rfl)
theorem Dev.Reports.pins_eq {a b : Dev} (h : a.Reports b) : b.pins = a.pins := h.keep Dev.pins (fun _ => rfl)
theorem Dev.Reports.chp_eq {a b : Dev} (h : a.Reports b) : b.chp = a.chp := h.keep Dev.chp (fun _ => rfl)
theorem Dev.Reports.tmb_eq {a b : Dev} (h : a.Reports b) : b.tmb = a.tmb := h.keep Dev.tmb (fun _ => rfl)
theorem Dev.Reports.spw_eq {a b : Dev} (h : a.Reports b) : b.spw = a.spw := h.keep Dev.spw (fun _ => rfl)
theorem Dev.Reports.cur_eq {a b : Dev} (h : a.Reports b) : b.cur = a.cur := h.keep Dev.cur (fun _ => rfl)
theorem Dev.Reports.int_eq {a b : Dev} (h : a.Reports b) : b.int = a.int := h.keep Dev.int (fun _ => rfl)
theorem Dev.Reports.adm_eq {a b : Dev} (h : a.Reports b) : b.adm = a.adm := h.keep Dev.adm (fun _ => rfl)
theorem Dev.Reports.pages_eq {a b : Dev} (h : a.Reports b) : b.pages = a.pages := h.keep Dev.pages (fun _ => rfl)
theorem Dev.Reports.exts_eq {a b : Dev} (h : a.Reports b) : b.exts = a.exts := h.keep Dev.exts (fun _ => rfl)
theorem Dev.Reports.blk_eq {a b : Dev} (h : a.Reports b) : b.blk = a.blk := h.keep Dev.blk (fun _ => rfl)
theorem Dev.Reports.cells_eq {a b : Dev} (h : a.Reports b) : b.cells = a.cells := h.keep Dev.cells (fun _ => rfl)
theorem Dev.Reports.flash_eq {a b : Dev} (h : a.Reports b) : b.flash = a.flash := h.keep Dev.flash (fun _ => rfl)
theorem Dev.Reports.stgCtl_eq {a b : Dev} (h : a.Reports b) : b.stgCtl = a.stgCtl := h.keep Dev.stgCtl (fun _ => rfl)
theorem Dev.Reports.stgWear_eq {a b : Dev} (h : a.Reports b) : b.stgWear = a.stgWear := h.keep Dev.stgWear (fun _ => rfl)
theorem Dev.Reports.stgScrub_eq {a b : Dev} (h : a.Reports b) : b.stgScrub = a.stgScrub := h.keep Dev.stgScrub (fun _ => rfl)
theorem Dev.Reports.stgCompact_eq {a b : Dev} (h : a.Reports b) : b.stgCompact = a.stgCompact := h.keep Dev.stgCompact (fun _ => rfl)
theorem Dev.Reports.stgReserve_eq {a b : Dev} (h : a.Reports b) : b.stgReserve = a.stgReserve := h.keep Dev.stgReserve (fun _ => rfl)
theorem Dev.Reports.descs_eq {a b : Dev} (h : a.Reports b) : b.descs = a.descs := h.keep Dev.descs (fun _ => rfl)
theorem Dev.Reports.ept_eq {a b : Dev} (h : a.Reports b) : b.ept = a.ept := h.keep Dev.ept (fun _ => rfl)
theorem Dev.Reports.cip_eq {a b : Dev} (h : a.Reports b) : b.cip = a.cip := h.keep Dev.cip (fun _ => rfl)
theorem Dev.Reports.idx_eq {a b : Dev} (h : a.Reports b) : b.idx = a.idx := h.keep Dev.idx (fun _ => rfl)
theorem Dev.Reports.drc_eq {a b : Dev} (h : a.Reports b) : b.drc = a.drc := h.keep Dev.drc (fun _ => rfl)
theorem Dev.Reports.enc_eq {a b : Dev} (h : a.Reports b) : b.enc = a.enc := h.keep Dev.enc (fun _ => rfl)
theorem Dev.Reports.reh_eq {a b : Dev} (h : a.Reports b) : b.reh = a.reh := h.keep Dev.reh (fun _ => rfl)
theorem Dev.Reports.svc_eq {a b : Dev} (h : a.Reports b) : b.svc = a.svc := h.keep Dev.svc (fun _ => rfl)
theorem Dev.Reports.rom_eq {a b : Dev} (h : a.Reports b) : b.rom = a.rom := h.keep Dev.rom (fun _ => rfl)
theorem Dev.Reports.hrk_eq {a b : Dev} (h : a.Reports b) : b.hrk = a.hrk := h.keep Dev.hrk (fun _ => rfl)
theorem Dev.Reports.est_eq {a b : Dev} (h : a.Reports b) : b.est = a.est := h.keep Dev.est (fun _ => rfl)
theorem Dev.Reports.pkb_eq {a b : Dev} (h : a.Reports b) : b.pkb = a.pkb := h.keep Dev.pkb (fun _ => rfl)
theorem Dev.Reports.halfLatch_eq {a b : Dev} (h : a.Reports b) : b.halfLatch = a.halfLatch := h.keep Dev.halfLatch (fun _ => rfl)
theorem Dev.Reports.readLatch_eq {a b : Dev} (h : a.Reports b) : b.readLatch = a.readLatch := h.keep Dev.readLatch (fun _ => rfl)
theorem Dev.Reports.freeCtr_eq {a b : Dev} (h : a.Reports b) : b.freeCtr = a.freeCtr := h.keep Dev.freeCtr (fun _ => rfl)
theorem Dev.Reports.nextHandle_eq {a b : Dev} (h : a.Reports b) : b.nextHandle = a.nextHandle := h.keep Dev.nextHandle (fun _ => rfl)
theorem Dev.Reports.nextEid_eq {a b : Dev} (h : a.Reports b) : b.nextEid = a.nextEid := h.keep Dev.nextEid (fun _ => rfl)
theorem Dev.Reports.wrrFn_eq {a b : Dev} (h : a.Reports b) : b.wrrFn = a.wrrFn := h.keep Dev.wrrFn (fun _ => rfl)
theorem Dev.Answers.board_eq {a b : Dev} (h : a.Answers b) : b.board = a.board := h.keep Dev.board (fun _ => rfl)
theorem Dev.Answers.pins_eq {a b : Dev} (h : a.Answers b) : b.pins = a.pins := h.keep Dev.pins (fun _ => rfl)
theorem Dev.Answers.chp_eq {a b : Dev} (h : a.Answers b) : b.chp = a.chp := h.keep Dev.chp (fun _ => rfl)
theorem Dev.Answers.tmb_eq {a b : Dev} (h : a.Answers b) : b.tmb = a.tmb := h.keep Dev.tmb (fun _ => rfl)
theorem Dev.Answers.spw_eq {a b : Dev} (h : a.Answers b) : b.spw = a.spw := h.keep Dev.spw (fun _ => rfl)
theorem Dev.Answers.cur_eq {a b : Dev} (h : a.Answers b) : b.cur = a.cur := h.keep Dev.cur (fun _ => rfl)
theorem Dev.Answers.int_eq {a b : Dev} (h : a.Answers b) : b.int = a.int := h.keep Dev.int (fun _ => rfl)
theorem Dev.Answers.adm_eq {a b : Dev} (h : a.Answers b) : b.adm = a.adm := h.keep Dev.adm (fun _ => rfl)
theorem Dev.Answers.pages_eq {a b : Dev} (h : a.Answers b) : b.pages = a.pages := h.keep Dev.pages (fun _ => rfl)
theorem Dev.Answers.exts_eq {a b : Dev} (h : a.Answers b) : b.exts = a.exts := h.keep Dev.exts (fun _ => rfl)
theorem Dev.Answers.blk_eq {a b : Dev} (h : a.Answers b) : b.blk = a.blk := h.keep Dev.blk (fun _ => rfl)
theorem Dev.Answers.cells_eq {a b : Dev} (h : a.Answers b) : b.cells = a.cells := h.keep Dev.cells (fun _ => rfl)
theorem Dev.Answers.flash_eq {a b : Dev} (h : a.Answers b) : b.flash = a.flash := h.keep Dev.flash (fun _ => rfl)
theorem Dev.Answers.stgCtl_eq {a b : Dev} (h : a.Answers b) : b.stgCtl = a.stgCtl := h.keep Dev.stgCtl (fun _ => rfl)
theorem Dev.Answers.stgWear_eq {a b : Dev} (h : a.Answers b) : b.stgWear = a.stgWear := h.keep Dev.stgWear (fun _ => rfl)
theorem Dev.Answers.stgScrub_eq {a b : Dev} (h : a.Answers b) : b.stgScrub = a.stgScrub := h.keep Dev.stgScrub (fun _ => rfl)
theorem Dev.Answers.stgCompact_eq {a b : Dev} (h : a.Answers b) : b.stgCompact = a.stgCompact := h.keep Dev.stgCompact (fun _ => rfl)
theorem Dev.Answers.stgReserve_eq {a b : Dev} (h : a.Answers b) : b.stgReserve = a.stgReserve := h.keep Dev.stgReserve (fun _ => rfl)
theorem Dev.Answers.cip_eq {a b : Dev} (h : a.Answers b) : b.cip = a.cip := h.keep Dev.cip (fun _ => rfl)
theorem Dev.Answers.idx_eq {a b : Dev} (h : a.Answers b) : b.idx = a.idx := h.keep Dev.idx (fun _ => rfl)
theorem Dev.Answers.drc_eq {a b : Dev} (h : a.Answers b) : b.drc = a.drc := h.keep Dev.drc (fun _ => rfl)
theorem Dev.Answers.enc_eq {a b : Dev} (h : a.Answers b) : b.enc = a.enc := h.keep Dev.enc (fun _ => rfl)
theorem Dev.Answers.reh_eq {a b : Dev} (h : a.Answers b) : b.reh = a.reh := h.keep Dev.reh (fun _ => rfl)
theorem Dev.Answers.svc_eq {a b : Dev} (h : a.Answers b) : b.svc = a.svc := h.keep Dev.svc (fun _ => rfl)
theorem Dev.Answers.rom_eq {a b : Dev} (h : a.Answers b) : b.rom = a.rom := h.keep Dev.rom (fun _ => rfl)
theorem Dev.Answers.hrk_eq {a b : Dev} (h : a.Answers b) : b.hrk = a.hrk := h.keep Dev.hrk (fun _ => rfl)
theorem Dev.Answers.est_eq {a b : Dev} (h : a.Answers b) : b.est = a.est := h.keep Dev.est (fun _ => rfl)
theorem Dev.Answers.pkb_eq {a b : Dev} (h : a.Answers b) : b.pkb = a.pkb := h.keep Dev.pkb (fun _ => rfl)
theorem Dev.Answers.halfLatch_eq {a b : Dev} (h : a.Answers b) : b.halfLatch = a.halfLatch := h.keep Dev.halfLatch (fun _ => rfl)
theorem Dev.Answers.readLatch_eq {a b : Dev} (h : a.Answers b) : b.readLatch = a.readLatch := h.keep Dev.readLatch (fun _ => rfl)
theorem Dev.Answers.freeCtr_eq {a b : Dev} (h : a.Answers b) : b.freeCtr = a.freeCtr := h.keep Dev.freeCtr (fun _ => rfl)
theorem Dev.Answers.nextHandle_eq {a b : Dev} (h : a.Answers b) : b.nextHandle = a.nextHandle := h.keep Dev.nextHandle (fun _ => rfl)
theorem Dev.Answers.nextEid_eq {a b : Dev} (h : a.Answers b) : b.nextEid = a.nextEid := h.keep Dev.nextEid (fun _ => rfl)
theorem Dev.Answers.wrrFn_eq {a b : Dev} (h : a.Answers b) : b.wrrFn = a.wrrFn := h.keep Dev.wrrFn (fun _ => rfl)

/-! ### Commands by what they touch -/

/-- A command that changes the device only answers a next state, with DRAM and queue as they were. -/
theorem onDev_next (f : Dev → Dev) (s : State) :
    ∃ t, onDev f s = .next t ∧ s.devOnly t ∧ t.dev = f s.dev := ⟨_, rfl, ⟨rfl, rfl⟩, rfl⟩

theorem onDevReading_next (f : List Host.Cell → Dev → Dev) (s : State) :
    ∃ t, onDevReading f s = .next t ∧ s.devOnly t ∧ t.dev = f s.dram s.dev := ⟨_, rfl, ⟨rfl, rfl⟩, rfl⟩

theorem onBoth_next (f : Dev × List Host.Cell → Dev × List Host.Cell) (s : State) :
    ∃ t, onBoth f s = .next t ∧ t.pending = s.pending ∧ t.dev = (f (s.dev, s.dram)).1
      ∧ t.dram = (f (s.dev, s.dram)).2 := ⟨_, rfl, rfl, rfl, rfl⟩

/-- A command that changes the device only, read backwards. -/
theorem onDev_inv {f : Dev → Dev} {s t : State} (h : onDev f s = .next t) :
    t = { s with dev := f s.dev } := by
  simp only [onDev, Host.Outcome.next.injEq] at h
  exact h.symm

theorem onBoth_inv {f : Dev × List Host.Cell → Dev × List Host.Cell} {s t : State} (h : onBoth f s = .next t) :
    t = { s with dev := (f (s.dev, s.dram)).1, dram := (f (s.dev, s.dram)).2 } := by
  simp only [onBoth, Host.Outcome.next.injEq] at h
  exact h.symm

theorem onDev_keeps_inv {f : Dev → Dev} {s t : State} (h : onDev f s = .next t) (hi : s.Inv) : t.Inv := by
  rw [onDev_inv h]; exact hi

end Sys2Proof.Machine
end

