-- ==== Sys2Proof/Tests/Slice0.lean ====
section
/-!
SUPPORT. The model's own tests: ill-formed commands that `Instr.wf` refuses, states that meet the
hypotheses of each statement, and single steps whose expected values stand in the spec.
-/

namespace Sys2Proof.Tests

open Sys2Proof Sys2Proof.Machine

/-! ### Helpers -/

/-- A device in one mode, with the changes that a test names; every other field is at its reset value. -/
def S (m : Mode) (f : Dev → Dev := fun d => d) : State := { dev := f { chp := { mode := m } } }

/-- A descriptor that has begun, with handle 1. -/
def D (op fn : Nat) (f : Desc → Desc := fun x => x) : Desc :=
  f { handle := 1, fn, ring := 0, sqHead := 0, seq := 0, entry := { opcode := op }, phase := .running }

/-- A record of one page of function 1. -/
def rec7 : Rec := { id := 7, block := 0, home := 0, kind := .stage, fn := 1, bytes := 4096, runs := [{ ht := 5, tag := 0, caddr := 0, extPages := 1, runStart := 0, runPages := 1, seq := 0, cls := 0, unack := false, descId := 0 }] }

def ext1 : Extent := { eid := 1, fn := 1, tag := 0, caddr := 0, pages := 1, ht := 5, cls := 0, seq := 0, hidx := 0, epochId := 0 }

/-- Page 0 unstaged, staged in record 7, and waiting for its restoration. -/
def pageU : Page := { kind := .held, eid := 1, fn := 1, unstaged := true }
def pageS : Page := { kind := .held, eid := 1, fn := 1, record := some 7 }
def pageW : Page := { kind := .held, eid := 1, fn := 1, record := some 7, restorePend := true }

def book7 : Book := { block := 0, seqNo := 1, recordId := 7, prevBook := 0, sealHt := 1, status := 0, reason := 0, hidx := 0, epochId := 0, epochNs := 0, msHt := [], credit := 0, debt := 0, window := {}, populated := 1, serial := 1, lists := [], nonces := [], unknown := [], indexSealed := true, index := [], faults := [], trace := [], failHt := 0, bytes := 0, saved := 0, lost := 0, energyMj := 0, unackDropped := 0, unackSaved := 0, durUs := 0, readable := true }

/-- The first bytes of a pack descriptor: one cell of chemistry 2, 500 mAh. -/
def packDesc : List Byte := [0, 0, 0, 0, 0, 0, 2, 1, 0, 0, 0, 0, 0, 0, 0, 0, 0xF4, 1, 0, 0]

/-- A parameter set whose open-circuit voltages rise at half charge. -/
def paramSet : List Byte := (List.range 2048).map fun i => if i = 44 then 1 else if 64 ≤ i ∧ 10 ≤ (i - 64) / 2 % 21 then 100 else 0

/-- A parameter set for `packDesc`, without its check code. -/
def paramBody : List Byte := [0x53, 0x50, 0x50, 0x54, 1, 0, 2, 1, 0, 0, 0, 0, 0, 0, 0, 0, 0xF4, 1, 0, 0] ++ List.replicate 16 0 ++ [0xDC,
      5] ++ List.replicate 2006 0

/-- The locator of the first segment of the log. -/
def locator0 : List Byte := leBytes 28 0 ++ leBytes 4 (crc32c (leBytes 28 0)).toNat

/-- One unstaged page of a function whose slot holds a key. -/
def stagingState : State := S .armed fun d => { d with
  pages := [(0, pageU)], exts := [ext1], cip.slots := [(0, { bound := true, loaded := true, fn := 1 })] }

/-- A written record of a page still held, queued for compaction. -/
def copyState : State := S .armed fun d => { d with
  pages := [(0, pageS)], flash.records := [{ rec7 with written := true }], blk := [(0, { compactQ := [7] })] }

theorem param_good :
    setGood (S .armed fun d => { d with descs := [D 69 0], pkb.desc := packDesc }).dev
      ((withCrc paramBody).take 2048) = true := by
  have hl : paramBody.length = 2044 := by
    simp only [paramBody, List.length_append, List.length_replicate, List.length_cons, List.length_nil]
  rw [List.take_of_length_le (by rw [withCrc_length, hl])]
  unfold setGood
  simp only [Bool.and_eq_true, decide_eq_true_eq]
  refine ⟨⟨⟨⟨⟨⟨⟨⟨?_, ?_⟩, by decide⟩, by decide⟩, by decide⟩, by decide⟩, by decide⟩, by decide⟩, by decide⟩
  · rw [withCrc_length, hl]
  · have h := ofBytes_withCrc paramBody
    rwa [hl] at h

theorem some_pair {α β : Type} {o : Option (α × β)} (h : o.isSome = true) : ∃ a b, o = some (a, b) := by
  obtain ⟨⟨a, b⟩, rfl⟩ := Option.isSome_iff_exists.1 h
  exact ⟨a, b, rfl⟩

/-! ### States that meet the hypotheses -/

/-- States that meet the hypotheses of `IdleStepIsCycle`. -/
theorem witness_IdleStepIsCycle :
    ∃ s : State, s.pending = [] :=
  ⟨(S .armed), by decide⟩

/-- States that meet the hypotheses of `StepKeepsDramForm`. -/
theorem witness_StepKeepsDramForm :
    ∃ s t : State, s.Inv ∧ Sys2Proof.Machine.step s = .next t :=
  ⟨(S .armed), { (S .armed) with dev := tick (S .armed).dev }, ⟨List.Pairwise.nil, by simp [S]⟩, rfl⟩

/-- States that meet the hypotheses of `DramReads`, clause by clause. -/
theorem witness_DramReads :
    (∃ (m : List Host.Cell) (_a _b : Nat) (_bs : List Byte), Memory.wf m)
    ∧ (∃ (m : List Host.Cell) (_a _b _n : Nat), Memory.wf m) :=
  ⟨⟨[(3, 1)], 3, 4, [2, 3], by decide⟩,
   ⟨[(3, 1), (4, 2)], 3, 4, 1, by decide⟩⟩

/-- States that meet the hypotheses of `SupplyLevels`, clause by clause. -/
theorem witness_SupplyLevels :
    (∃ (mv : Nat) (s : State), s.dev.spw.goodMv ≤ mv ∧ mv ≤ 16000 ∧ s.dev.chp.mode ≠ .dark)
    ∧ (∃ (mv : Nat) (s : State), mv < s.dev.spw.goodMv ∧ s.dev.chp.mode = .sealed
      ∧ (packUsable s.dev = false ∨ s.dev.pkb.cutoff = true))
    ∧ (∃ (mv : Nat) (s : State), mv < s.dev.spw.goodMv ∧ s.dev.chp.mode ≠ .dark
      ∧ (s.dev.chp.mode = .sealed → packUsable s.dev = true ∧ s.dev.pkb.cutoff = false))
    ∧ (∃ (mv : Nat) (s : State), mv < s.dev.spw.warnMv ∧ s.dev.spw.warn = false ∧ s.dev.chp.mode ≠ .dark)
    ∧ (∃ (mv : Nat) (s : State), s.dev.spw.warnMv + 100 ≤ mv ∧ mv ≤ 16000 ∧ s.dev.spw.warn = true
      ∧ s.dev.chp.mode ≠ .dark) :=
  ⟨⟨16000, (S .armed fun d => { d with spw.fail := true }), by decide⟩,
   ⟨0, (S .sealed), by decide⟩,
   ⟨0, (S .armed fun d => { d with spw.good := true }), by decide⟩,
   ⟨0, (S .armed fun d => { d with est.pending := 1 }), by decide⟩,
   ⟨16000, (S .armed fun d => { d with spw.warn := true }), by decide⟩⟩

/-- States that meet the hypotheses of `FailTakesItsRow`, clause by clause. -/
theorem witness_FailTakesItsRow :
    (∃ (mv : Nat) (s : State), mv < s.dev.spw.failMv ∧ s.dev.chp.mode ≠ .dark)
    ∧ (∃ (mv : Nat) (s : State), mv < s.dev.spw.failMv ∧ s.dev.spw.fail = false
      ∧ (s.dev.chp.mode = .boot ∨ s.dev.chp.mode = .encore ∨ s.dev.chp.mode = .reconcile
        ∨ s.dev.chp.mode = .service ∨ (s.dev.chp.mode = .writeThrough
          ∧ (packUsable s.dev = false ∨ eAvailNow s.dev < s.dev.adm.eFixed.toNat + sealReserve s.dev))))
    ∧ (∃ (mv : Nat) (s : State), mv < s.dev.spw.failMv ∧ s.dev.spw.fail = false ∧ s.dev.chp.mode = .writeThrough
      ∧ packUsable s.dev = true ∧ s.dev.adm.eFixed.toNat + sealReserve s.dev ≤ eAvailNow s.dev)
    ∧ (∃ (mv : Nat) (s : State), mv < s.dev.spw.failMv ∧ s.dev.spw.fail = false
      ∧ (s.dev.chp.mode = .armed ∨ s.dev.chp.mode = .derated ∨ s.dev.chp.mode = .rehearsal)) :=
  ⟨⟨0, (S .armed), by decide⟩,
   ⟨0, (S .writeThrough), by decide⟩,
   ⟨0, (S .writeThrough fun d => { d with est.valid := true, est.eCons := 100000000, pins.packPresN := false, pkb.switchClosed := true }),
      by decide⟩,
   ⟨0, (S .armed fun d => { d with est.valid := true, est.eCons := 100000000, pins.packPresN := false, pkb.switchClosed := true }),
      by decide⟩⟩

/-- States that meet the hypotheses of `ChipFatalRows`, clause by clause. -/
theorem witness_ChipFatalRows :
    (∃ (i : Nat) (s : State), chipIslandOn s.dev i = true)
    ∧ (∃ (i : Nat) (s : State), chipIslandOn s.dev i = false)
    ∧ (∃ (i : Nat) (s : State), (s.dev.chp.mode = .dark ∨ i < 76 ∨ 83 < i
        ∨ s.dev.chp.mode = .sealed ∧ i ≠ 80 ∧ i ≠ 83))
    ∧ (∃ s : State, s.dev.chp.mode ≠ .dark ∧ s.dev.chp.mode ≠ .boot ∧ s.dev.chp.mode ≠ .sealed
      ∧ s.dev.chp.mode ≠ .intermission) :=
  ⟨⟨83, (S .armed), by decide⟩,
   ⟨83, (S .dark), by decide⟩,
   ⟨80, (S .dark), by decide⟩,
   ⟨(S .rehearsal), by decide⟩⟩

/-- States that meet the hypotheses of `Intermission`, clause by clause. -/
theorem witness_Intermission :
    (∃ s : State, s.dev.chp.mode = .intermission ∧ s.dev.int.step = 4)
    ∧ (∃ s : State, s.dev.chp.mode = .intermission ∧ s.dev.int.step = 5)
    ∧ (∃ s : State, s.dev.chp.mode = .intermission ∧ s.dev.int.step = 6)
    ∧ (∃ s : State, s.dev.chp.mode = .intermission ∧ s.dev.int.step = 7)
    ∧ (∃ s : State, s.dev.chp.mode = .intermission ∧ s.dev.int.step = 8
      ∧ (s.dev.spw.good = false ∨ s.dev.spw.qualified = false))
    ∧ (∃ s : State, s.dev.chp.mode = .intermission ∧ s.dev.int.step = 8 ∧ s.dev.spw.good = true
      ∧ s.dev.spw.qualified = true ∧ s.dev.chp.fatalIslands = [])
    ∧ (∃ s : State, s.dev.chp.mode = .intermission ∧ s.dev.spw.intTimerRunning = true ∧ s.dev.spw.good = false)
    ∧ (∃ s : State, s.dev.spw.good = true ∧ s.dev.spw.qualRunning = true ∧ s.dev.chp.mode = .intermission
      ∧ s.dev.int.step = 9 ∧ s.dev.chp.fatalIslands = [])
    ∧ (∃ s : State, s.dev.spw.good = true ∧ s.dev.spw.qualRunning = true ∧ s.dev.chp.mode = .sealed)
    ∧ (∃ s : State, s.dev.spw.good = true ∧ s.dev.spw.qualRunning = true ∧ s.dev.chp.mode ≠ .sealed
      ∧ s.dev.chp.mode ≠ .intermission)
    ∧ (∃ s : State, s.dev.spw.good = true ∧ s.dev.spw.qualRunning = true ∧ s.dev.chp.mode = .intermission
      ∧ s.dev.int.step ≠ 9)
    ∧ (∃ s : State, (s.dev.spw.good = false ∨ s.dev.spw.qualRunning = false))
    ∧ (∃ s : State, s.dev.spw.good = true ∧ s.dev.spw.qualRunning = true ∧ s.dev.chp.mode = .intermission
      ∧ s.dev.int.step = 9 ∧ s.dev.chp.fatalIslands ≠ [])
    ∧ (∃ s : State, (s.dev.chp.mode ≠ .intermission ∨ s.dev.spw.intTimerRunning = false ∨ s.dev.spw.good = true)) :=
  ⟨⟨(S .intermission fun d => { d with int.step := 4 }), by decide⟩,
   ⟨(S .intermission fun d => { d with int.step := 5 }), by decide⟩,
   ⟨(S .intermission fun d => { d with int.step := 6 }), by decide⟩,
   ⟨(S .intermission fun d => { d with int.step := 7 }), by decide⟩,
   ⟨(S .intermission fun d => { d with int.step := 8 }), by decide⟩,
   ⟨(S .intermission fun d => { d with int.step := 8, spw.good := true, spw.qualified := true }), by decide⟩,
   ⟨(S .intermission fun d => { d with int.step := 9, spw.intTimerRunning := true }), by decide⟩,
   ⟨(S .intermission fun d => { d with int.step := 9, spw.good := true, spw.qualRunning := true }), by decide⟩,
   ⟨(S .sealed fun d => { d with spw.good := true, spw.qualRunning := true }), by decide⟩,
   ⟨(S .curtain fun d => { d with spw.good := true, spw.qualRunning := true }), by decide⟩,
   ⟨(S .intermission fun d => { d with int.step := 8, spw.good := true, spw.qualRunning := true }), by decide⟩,
   ⟨(S .armed), by decide⟩,
   ⟨(S .intermission fun d => { d with int.step := 9, spw.good := true, spw.qualRunning := true, chp.fatalIslands := [79] }),
      by decide⟩,
   ⟨(S .armed), by decide⟩⟩

/-- States that meet the hypotheses of `SealAndCollapse`, clause by clause. -/
theorem witness_SealAndCollapse :
    (∃ s : State, s.dev.chp.mode = .sealed ∧ s.dev.spw.good = false ∧ s.dev.spw.holdRunning = true)
    ∧ (∃ s : State, s.dev.chp.mode = .dark ∧ 8000 ≤ s.dev.pins.vinMv)
    ∧ (∃ s : State, s.dev.chp.mode = .dark ∧ s.dev.pins.vinMv < 8000)
    ∧ (∃ (_r : Bool) (s : State), s.dev.chp.mode = .curtain ∧ s.dev.spw.onPack = false)
    ∧ (∃ (_r : Bool) (s : State), (s.dev.chp.mode = .curtain ∧ s.dev.spw.onPack = true
        ∨ s.dev.chp.mode = .sealed ∧ s.dev.spw.good = false))
    ∧ (∃ (mv : Nat) (s : State), mv < s.dev.spw.failMv ∧ s.dev.spw.fail = false ∧ s.dev.chp.mode = .curtain
      ∧ packUsable s.dev = false)
    ∧ (∃ s : State, s.dev.chp.mode = .sealed ∧ s.dev.spw.good = true)
    ∧ (∃ (_r : Bool) (s : State), s.dev.chp.mode.admits = true)
    ∧ (∃ (g : Nat) (s : State), nextGranule s.dev = some g ∧ reloadRuns s.dev = true)
    ∧ (∃ (g : Nat) (s : State), (nextGranule s.dev ≠ some g ∨ reloadRuns s.dev = false))
    ∧ (∃ s : State, (s.dev.chp.mode = .intermission ∨ s.dev.chp.mode = .service)) :=
  ⟨⟨(S .sealed fun d => { d with spw.holdRunning := true }), by decide⟩,
   ⟨(S .dark fun d => { d with pins.vinMv := 8000 }), by decide⟩,
   ⟨(S .dark fun d => { d with pins.vinMv := 7999 }), by decide⟩,
   ⟨true, (S .curtain fun d => { d with spw.good := true }), by decide⟩,
   ⟨true, (S .sealed), by decide⟩,
   ⟨9000, (S .curtain fun d => { d with spw.good := true, pins.packPresN := true }), by decide⟩,
   ⟨(S .sealed fun d => { d with spw.good := true }), by decide⟩,
   ⟨true, (S .armed fun d => { d with spw.good := true }), by decide⟩,
   ⟨3, (S .armed fun d => { d with int.pendingGranules := [3] }), by decide⟩,
   ⟨3, (S .armed), by decide⟩,
   ⟨(S .service), by decide⟩⟩

/-- States that meet the hypotheses of `Curtain`, clause by clause. -/
theorem witness_Curtain :
    (∃ s : State, s.dev.chp.mode = .curtain ∧ s.dev.cur.milestone < 5)
    ∧ (∃ s : State, s.dev.chp.mode = .curtain ∧ s.dev.cur.milestone = 5 ∧ s.dev.cur.listed6 = false)
    ∧ (∃ s : State, streams s.dev = true)
    ∧ (∃ s : State, s.dev.chp.mode = .curtain ∧ s.dev.cur.milestone = 7)
    ∧ (∃ s : State, s.dev.chp.mode = .curtain ∧ s.dev.cur.milestone = 8)
    ∧ (∃ (_used : Nat) (s : State), (streams s.dev = true ∨ (s.dev.chp.mode = .curtain
      ∧ s.dev.cur.milestone = 7)) ∧ s.dev.spw.onPack = true)
    ∧ (∃ (_used : Nat) (s : State), (s.dev.spw.onPack = false ∨ s.dev.chp.mode ≠ .curtain)) :=
  ⟨⟨(S .curtain), by decide⟩,
   ⟨(S .curtain fun d => { d with cur.milestone := 5 }), by decide⟩,
   ⟨(S .curtain fun d => { d with cur.milestone := 5, cur.listed6 := true }), by decide⟩,
   ⟨(S .curtain fun d => { d with cur.milestone := 7 }), by decide⟩,
   ⟨(S .curtain fun d => { d with cur.milestone := 8 }), by decide⟩,
   ⟨0, (S .curtain fun d => { d with cur.milestone := 7, spw.onPack := true }), by decide⟩,
   ⟨0, (S .armed), by decide⟩⟩

/-- States that meet the hypotheses of `HaltHolds`, clause by clause. -/
theorem witness_HaltHolds :
    (∃ s : State, s.dev.chp.mode = .sealed ∧ s.dev.chp.halt = true)
    ∧ (∃ s : State, s.dev.chp.mode = .curtain ∧ s.dev.cur.milestone = 8 ∧ s.dev.chp.halt = true
      ∧ (s.dev.spw.good = true ∨ (packUsable s.dev = true ∧ s.dev.pkb.cutoff = false)))
    ∧ (∃ (lo hi : Nat) (s : State), s.dev.chp.mode ≠ .dark ∧ s.dev.chp.halt = true ∧ s.dev.spw.fail = false
      ∧ lo < s.dev.spw.failMv ∧ s.dev.spw.goodMv ≤ hi ∧ hi ≤ 16000) :=
  ⟨⟨(S .sealed fun d => { d with chp.halt := true }), by decide⟩,
   ⟨(S .curtain fun d => { d with chp.halt := true, cur.milestone := 8, spw.good := true }), by decide⟩,
   ⟨0, 16000, (S .sealed fun d => { d with chp.halt := true }), by decide⟩⟩

/-- States that meet the hypotheses of `SupplyThresholds`, clause by clause. -/
theorem witness_SupplyThresholds :
    (∃ (w : W32) (_s : State), 9800 ≤ 20 * field w 0 10 ∧ 20 * field w 0 10 ≤ 11000
      ∧ 20 * field w 0 10 + 300 ≤ 20 * field w 10 10 ∧ 20 * field w 10 10 + 200 ≤ 20 * field w 20 10
      ∧ 20 * field w 20 10 ≤ 12400)
    ∧ (∃ (w : W32) (_s : State),
      (20 * field w 0 10 < 9800 ∨ 11000 < 20 * field w 0 10 ∨ 20 * field w 10 10 < 20 * field w 0 10 + 300
        ∨ 20 * field w 20 10 < 20 * field w 10 10 + 200 ∨ 12400 < 20 * field w 20 10)) :=
  ⟨⟨0x23A899FE, (S .armed), by decide⟩,
   ⟨0, (S .armed), by decide⟩⟩

/-- States that meet the hypotheses of `EnergyReserveWrites`, clause by clause. -/
theorem witness_EnergyReserveWrites :
    (∃ (w : RegWrite) (s : State), linkUp s.dev = true ∧ w.size = .whole ∧ w.reg = .admEFixed)
    ∧ (∃ (w : RegWrite) (b : Nat) (s : State), linkUp s.dev = true ∧ w.size = .whole ∧ w.reg = .admSealReserve b
      ∧ populated s.dev b = true) :=
  ⟨⟨{ reg := .admEFixed, size := .whole, value := 0 }, (S .armed fun d => { d with ept.link := .l0 }),
      by decide⟩,
   ⟨{ reg := .admSealReserve 0, size := .whole, value := 0xFFFFFFFF }, 0,
      (S .armed fun d => { d with ept.link := .l0 }), by decide⟩⟩

/-- States that meet the hypotheses of `FaultRepeats`, clause by clause. -/
theorem witness_FaultRepeats :
    (∃ (i : FaultInfo) (d : Dev) (r : FaultRec), i.severity = 0 ∧ r ∈ d.err.records ∧ r.code = i.code
      ∧ r.island = i.island ∧ d.tmb.ht < r.ht + 4000000000)
    ∧ (∃ (i : FaultInfo) (d : Dev), (i.severity ≠ 0 ∨ ∀ r ∈ d.err.records,
        r.code = i.code → r.island = i.island → r.ht + 4000000000 ≤ d.tmb.ht)) :=
  ⟨⟨{ code := 0x0102, level := 1, island := 3, severity := 0 },
      ((S .armed fun d => { d with tmb.ht := 4000000000, err.records := [{ ht := 1, seq := 0, cause := 0, code := 0x0102, level := 1, island := 3, severity := 0, mode := 4 }] })).dev,
      { ht := 1, seq := 0, cause := 0, code := 0x0102, level := 1, island := 3, severity := 0, mode := 4 },
      by decide⟩,
   ⟨{ code := 0x0102, level := 1, island := 3, severity := 0 },
      ((S .armed fun d => { d with tmb.ht := 4000000001, err.records := [{ ht := 1, seq := 0, cause := 0, code := 0x0102, level := 1, island := 3, severity := 0, mode := 4 }] })).dev,
      by decide⟩⟩

/-- States that meet the hypotheses of `TimeSettings`, clause by clause. -/
theorem witness_TimeSettings :
    (∃ (_w : W64) (s : State), s.dev.tmb.follower = true)
    ∧ (∃ (w : W64) (s : State), s.dev.tmb.follower = false
      ∧ (0xF000000000000000 ≤ w.toNat ∨ (s.dev.tmb.epochCommitted = true ∧ w.toNat ≤ s.dev.tmb.ht)
        ∨ (s.dev.tmb.epochCommitted = false ∧ epochNewest s.dev ≠ 0 ∧ w.toNat ≤ epochNewest s.dev)))
    ∧ (∃ (w : W64) (s : State), s.dev.tmb.follower = false ∧ w.toNat < 0xF000000000000000
      ∧ s.dev.tmb.ht < w.toNat
      ∧ (s.dev.tmb.epochCommitted = true ∨ epochNewest s.dev = 0 ∨ epochNewest s.dev < w.toNat))
    ∧ (∃ (w : W64) (s : State), s.dev.tmb.follower = false ∧ w.toNat < 0xF000000000000000
      ∧ w.toNat ≤ s.dev.tmb.ht ∧ s.dev.tmb.epochCommitted = false
      ∧ (epochNewest s.dev = 0 ∨ epochNewest s.dev < w.toNat))
    ∧ (∃ (_w : W64) (s : State), s.dev.tmb.epochCommitted = true)
    ∧ (∃ (_w : W64) (s : State), s.dev.tmb.epochCommitted = false)
    ∧ (∃ s : State, s.dev.tmb.ppsOutEn = true ∧ s.dev.tmb.powered = true ∧ s.dev.pins.vaux3 = true
      ∧ s.dev.pins.ppsOut = false)
    ∧ (∃ s : State, s.dev.tmb.ppsOutEn = true ∧ s.dev.tmb.powered = true ∧ s.dev.pins.vaux3 = true
      ∧ s.dev.pins.ppsOut = true)
    ∧ (∃ s : State, (s.dev.tmb.ppsOutEn = false ∨ s.dev.tmb.powered = false ∨ s.dev.pins.vaux3 = false))
    ∧ (∃ t : Tmb, t.slot ≤ t.ht) :=
  ⟨⟨1, (S .armed fun d => { d with tmb.follower := true }), by decide⟩,
   ⟨0xF000000000000000, (S .armed), by decide⟩,
   ⟨1, (S .armed), by decide⟩,
   ⟨0, (S .armed), by decide⟩,
   ⟨1, (S .armed fun d => { d with tmb.epochCommitted := true }), by decide⟩,
   ⟨1, (S .armed), by decide⟩,
   ⟨(S .armed fun d => { d with tmb.ppsPhase := 0, tmb.ctl := 0x000A320A, tmb.ht := 4000000003, tmb.slot := 3 }),
      by decide⟩,
   ⟨(S .armed fun d => { d with tmb.ctl := 0x000A320A, tmb.ht := 4000000003, tmb.slot := 3, pins.ppsOut := true }),
      by decide⟩,
   ⟨(S .armed fun d => { d with pins.vaux3 := false }), by decide⟩,
   ⟨{ slot := 3, ht := 5 }, by decide⟩⟩

/-- States that meet the hypotheses of `TimeReferences`, clause by clause. -/
theorem witness_TimeReferences :
    (∃ s : State, s.dev.tmb.powered = true ∧ s.dev.pins.vaux3 = true)
    ∧ (∃ (f : Bool) (s : State),
      (f ≠ s.dev.tmb.ppsFalling ∨ s.dev.tmb.powered = false ∨ s.dev.pins.vaux3 = false))
    ∧ (∃ (_r : Option Nat) (s : State), s.dev.tmb.powered = true ∧ linkUp s.dev = true ∧ s.dev.ept.ptmEn = true
      ∧ (s.dev.tmb.src = 2 ∨ s.dev.tmb.src = 3))
    ∧ (∃ (_r : Option Nat) (s : State), (s.dev.tmb.powered = false ∨ linkUp s.dev = false
        ∨ s.dev.ept.ptmEn = false ∨ (s.dev.tmb.src ≠ 2 ∧ s.dev.tmb.src ≠ 3)))
    ∧ (∃ s : State, s.dev.tmb.follower = true ∧ s.dev.tmb.powered = true ∧ s.dev.tmb.state ≠ 3)
    ∧ (∃ s : State, (s.dev.tmb.follower = false ∨ s.dev.tmb.powered = false ∨ s.dev.tmb.state = 3)) :=
  ⟨⟨(S .armed), by decide⟩,
   ⟨true, (S .armed), by decide⟩,
   ⟨none, (S .armed fun d => { d with ept.link := .l0, ept.ptmEn := true, tmb.ctl := 0x000A3020 }), by decide⟩,
   ⟨none, (S .armed), by decide⟩,
   ⟨(S .armed fun d => { d with tmb.follower := true }), by decide⟩,
   ⟨(S .armed), by decide⟩⟩

/-- States that meet the hypotheses of `BudgetAndAdmission`, clause by clause. -/
theorem witness_BudgetAndAdmission :
    (∃ (_c : Bool) (s : State), orderingPowered s.dev = true ∧ s.dev.est.learning = false
      ∧ s.dev.svc.entering = 0 ∧ s.dev.ept.hostLossState ≠ 2)
    ∧ (∃ (_c : Bool) (s : State), orderingPowered s.dev = false ∧ s.dev.svc.entering = 0
      ∧ s.dev.ept.hostLossState ≠ 2) :=
  ⟨⟨true, (S .writeThrough fun d => { d with est.valid := true, est.eCons := 100000000, pins.packPresN := false, pkb.switchClosed := true }),
      by decide⟩,
   ⟨true, (S .dark), by decide⟩⟩

/-- States that meet the hypotheses of `WearAndWindow`, clause by clause. -/
theorem witness_WearAndWindow :
    (∃ s : State, stagingRuns s.dev = true)
    ∧ (∃ (b : Nat) (s : State), (64 ≤ (getBlk s.dev b).sinceShift ∨ (getBlk s.dev b).shiftDeferred = true)
      ∧ b < s.dev.board.blocks ∧ s.dev.chp.mode ≠ .curtain ∧ s.dev.chp.mode ≠ .intermission
      ∧ s.dev.chp.mode ≠ .encore ∧ positionLive s.dev b (getBlk s.dev b).wb = false
      ∧ (getBlk s.dev b).wp ≠ (getBlk s.dev b).wb
      ∧ stripeErased s.dev b (((getBlk s.dev b).wb + 192) % 200) = true)
    ∧ (∃ (b : Nat) (s : State), (64 ≤ (getBlk s.dev b).sinceShift ∨ (getBlk s.dev b).shiftDeferred = true)
      ∧ b < s.dev.board.blocks ∧ s.dev.chp.mode ≠ .curtain ∧ s.dev.chp.mode ≠ .intermission
      ∧ s.dev.chp.mode ≠ .encore
      ∧ (positionLive s.dev b (getBlk s.dev b).wb = true ∨ (getBlk s.dev b).wp = (getBlk s.dev b).wb
        ∨ stripeErased s.dev b (((getBlk s.dev b).wb + 192) % 200) = false))
    ∧ (∃ (b : Nat) (s : State), ((getBlk s.dev b).sinceShift < 64 ∧ (getBlk s.dev b).shiftDeferred = false
        ∨ s.dev.board.blocks ≤ b ∨ s.dev.chp.mode = .curtain ∨ s.dev.chp.mode = .intermission
        ∨ s.dev.chp.mode = .encore)) :=
  ⟨⟨(S .armed), by decide⟩,
   ⟨0, (S .armed fun d => { d with blk := [(0, { sinceShift := 64, wp := 1 })] }), by decide⟩,
   ⟨0, (S .armed fun d => { d with blk := [(0, { sinceShift := 64 })] }), by decide⟩,
   ⟨0, (S .armed fun d => { d with blk := [(0, { sinceShift := 63 })] }), by decide⟩⟩

/-- States that meet the hypotheses of `StagingRecords`, clause by clause. -/
theorem witness_StagingRecords :
    (∃ (b : Nat) (s : State) (x : Extent) (rest : List Extent) (id : Nat) (e : Dev),
      (s.dev.chp.mode.admits = true ∨ s.dev.chp.mode = .service) ∧ canStage s.dev b = true
      ∧ (stagingOrder (updateShortfall s.dev) b).filter (fun y => !inFlight (updateShortfall s.dev) y
        && (encryptSlot (updateShortfall s.dev) y.fn).isSome) = x :: rest ∧ startRecord s.dram b .stage x.fn
        ((sortBy Extent.ht (packPrefix (updateShortfall s.dev) x.fn (x.hidx, x.epochId) (4 * mib)
          (x :: rest))).flatMap
          (fun y => runsOf y (ownUnstaged (updateShortfall s.dev) y) false 0)) false 0
        (x.hidx, x.epochId) (updateShortfall s.dev) = some (id, e))
    ∧ (∃ (b : Nat) (s : State), s.dev.chp.mode ≠ .curtain ∧ canStage s.dev b = false)
    ∧ (∃ (id : Nat) (s : State) (r : Rec), findRec s.dev id = some r ∧ r.written = false
      ∧ (placeWorks s.dev r.cell r.target = true ∨ r.bytes = 0) ∧ s.dev.svc.entering = 0)
    ∧ (∃ (id : Nat) (s : State) (r : Rec) (p : Nat × Nat × Nat × Nat), findRec s.dev id = some r
      ∧ r.written = true ∧ r.moving = some p ∧ p.2.2.1 < 200 ∧ placeWorks s.dev p.1 p.2.1 = true
      ∧ s.dev.svc.entering = 0)
    ∧ (∃ (id : Nat) (s : State) (r : Rec), findRec s.dev id = some r ∧ r.written = true ∧ r.moving = none
      ∧ s.dev.svc.entering = 0)
    ∧ (∃ (id : Nat) (s : State) (r : Rec), findRec s.dev id = some r ∧ r.written = false ∧ r.bytes ≠ 0
      ∧ placeWorks s.dev r.cell r.target = false ∧ s.dev.svc.entering = 0)
    ∧ (∃ (id : Nat) (s : State), findRec s.dev id = none ∧ s.dev.svc.entering = 0)
    ∧ (∃ (id c k p : Nat) (s : State) (r : Rec), findRec s.dev id = some r ∧ failingUnit r = some (c, k, p)
      ∧ r.bytes ≠ 0)
    ∧ (∃ (id c k p : Nat) (s : State) (r : Rec), findRec s.dev id = some r ∧ failingUnit r = some (c, k, p)
      ∧ r.bytes = 0)
    ∧ (∃ (id : Nat) (s : State) (r : Rec), findRec s.dev id = some r ∧ failingUnit r = none) :=
  ⟨by
    obtain ⟨id, e, h⟩ := some_pair (o := startRecord stagingState.dram 0 .stage ext1.fn
      ((sortBy Extent.ht (packPrefix (updateShortfall stagingState.dev) ext1.fn (ext1.hidx,
      ext1.epochId) (4 * mib)
        [ext1])).flatMap (fun y => runsOf y (ownUnstaged (updateShortfall stagingState.dev) y) false 0)) false 0
      (ext1.hidx, ext1.epochId) (updateShortfall stagingState.dev)) (by decide)
    exact ⟨0, stagingState, ext1, [], id, e, by decide, by decide, by decide, h⟩,
   ⟨0, (S .armed fun d => { d with blk := [(0, { fenced := true })] }), by decide⟩,
   ⟨7, (S .armed fun d => { d with flash.records := [rec7] }), rec7, by decide⟩,
   ⟨7, (S .armed fun d => { d with flash.records := [{ rec7 with written := true, moving := some (1, 2, 199, 4) }] }),
      { rec7 with written := true, moving := some (1, 2, 199, 4) }, (1, 2, 199, 4), by decide⟩,
   ⟨7, (S .armed fun d => { d with flash.records := [{ rec7 with written := true }] }),
      { rec7 with written := true }, by decide⟩,
   ⟨7, (S .armed fun d => { d with flash.records := [rec7], cells := [(0, { failed := true })] }), rec7,
      by decide⟩,
   ⟨7, (S .armed), by decide⟩,
   ⟨7, 0, 0, 0, (S .armed fun d => { d with flash.records := [rec7] }), rec7, by decide⟩,
   ⟨7, 0, 0, 0, (S .armed fun d => { d with flash.records := [{ rec7 with bytes := 0 }] }),
      { rec7 with bytes := 0 }, by decide⟩,
   ⟨7, (S .armed fun d => { d with flash.records := [{ rec7 with written := true }] }),
      { rec7 with written := true }, by decide⟩⟩

/-- States that meet the hypotheses of `LogKeeping`, clause by clause. -/
theorem witness_LogKeeping :
    (∃ (b id : Nat) (rest : List Nat) (s : State) (r : Rec) (q : Nat × Nat × Nat × Nat) (e : Dev),
      cleaningRuns s.dev = true ∧ canStage s.dev b = true ∧ 4 ≤ tlcErasedCount s.dev b
      ∧ (getBlk s.dev b).compactQ = id :: rest ∧ findRec s.dev id = some r ∧ recLive s.dev id = true
      ∧ r.tlc = none ∧ r.moving = none ∧ tlcRoom b r s.dev = some (q, e))
    ∧ (∃ (id : Nat) (s : State) (r : Rec), findRec s.dev id = some r ∧ r.moving = none ∧ r.tlc.isSome = true
      ∧ r.tlcVerified = false ∧ placeWorks s.dev r.tlcCell r.tlcTarget = true)
    ∧ (∃ (b p : Nat) (s : State), cleaningRuns s.dev = true ∧ canStage s.dev b = true ∧ s.dev.spw.warn = false
      ∧ waitingIntents s.dev b = [] ∧ foreignUnits s.dev b = [] ∧ poolDirty (getBlk s.dev b) = none
      ∧ oldestStripe (getBlk s.dev b) = some p ∧ positionLive s.dev b p = false ∧ bodiesAt s.dev b p = [])
    ∧ (∃ (b : Nat) (s : State), (cleaningRuns s.dev = false ∨ canStage s.dev b = false))
    ∧ (∃ (id load : Nat) (s : State) (r : Rec), findRec s.dev id = some r ∧ cleaningRuns s.dev = true
      ∧ recLive s.dev id = true ∧ blkOut s.dev r.block = false ∧ blkOut s.dev r.home = false
      ∧ load ≤ s.dev.scrubThresh)
    ∧ (∃ (id _load : Nat) (rd au : Bool) (s : State) (r : Rec), findRec s.dev id = some r
      ∧ cleaningRuns s.dev = true ∧ recLive s.dev id = true ∧ blkOut s.dev r.block = false
      ∧ blkOut s.dev r.home = false ∧ (rd = false ∨ (au = false ∧ slotKeyPending s.dev r.slot = false)))
    ∧ (∃ (id _load : Nat) (_rd _au : Bool) (s : State) (r : Rec), findRec s.dev id = some r
      ∧ (blkOut s.dev r.block = true ∨ blkOut s.dev r.home = true ∨ cleaningRuns s.dev = false
        ∨ recLive s.dev id = false)) :=
  ⟨by
    obtain ⟨q, e, h⟩ := some_pair (o := tlcRoom 0 { rec7 with written := true } copyState.dev) (by decide)
    exact ⟨0, 7, [], copyState, { rec7 with written := true }, q, e, by decide, by decide, by decide +kernel,
      by decide,
      by decide, by decide, by decide, by decide, h⟩,
   ⟨7, (S .armed fun d => { d with flash.records := [{ rec7 with written := true, tlc := some 0 }] }),
      { rec7 with written := true, tlc := some 0 }, by decide⟩,
   ⟨0, 1, (S .armed fun d => { d with blk := [(0, { stripes := [(1, .written)] })] }), by decide⟩,
   ⟨0, (S .curtain), by decide⟩,
   ⟨7, 25, (S .armed fun d => { d with pages := [(0, pageS)], flash.records := [{ rec7 with written := true }] }),
      { rec7 with written := true }, by decide⟩,
   ⟨7, 25, false, true,
      (S .armed fun d => { d with pages := [(0, pageS)], flash.records := [{ rec7 with written := true }] }),
      { rec7 with written := true }, by decide⟩,
   ⟨7, 25, false, true,
      (S .armed fun d => { d with flash.records := [{ rec7 with written := true }], blk := [(0, { fenced := true })] }),
      { rec7 with written := true }, by decide⟩⟩

/-- States that meet the hypotheses of `Erases`, clause by clause. -/
theorem witness_Erases :
    (∃ (c k : Nat) (s : State) (e : Nat × Erase), portPresent s.dev c = true
      ∧ (getCell s.dev c).erases.find? (fun e => e.1 = k) = some e ∧ e.2.suspended = false)
    ∧ (∃ (c k : Nat) (s : State),
      (portPresent s.dev c = false ∨ (getCell s.dev c).erases.find? (fun e => e.1 = k) = none
        ∧ ((getCell s.dev c).port ≠ .queued ∨ (getCell s.dev c).op ≠ 0x20)))
    ∧ (∃ (c k : Nat) (s : State) (e : Nat × Erase), (getCell s.dev c).erases.find? (fun e => e.1 = k) = some e
      ∧ e.2.suspended = true ∧ ((getCell s.dev c).port ≠ .queued ∨ (getCell s.dev c).op ≠ 0x20))
    ∧ (∃ (c k : Nat) (s : State), portPresent s.dev c = true
      ∧ (getCell s.dev c).erases.find? (fun e => e.1 = k) = none ∧ (getCell s.dev c).port = .queued
      ∧ (getCell s.dev c).op = 0x20 ∧ portWaits s.dev c 0x20 (getCell s.dev c).addr = false
      ∧ startResult s.dev c 0x20 (getCell s.dev c).addr = 0)
    ∧ (∃ (c k us : Nat) (w : Bool) (s : State) (e : Erase), eraseOf s.dev c k = some e ∧ e.suspended = false
      ∧ portPresent s.dev c = true ∧ readWaits s.dev c k w = true ∧ 500 ≤ us ∧ e.suspends < 5
      ∧ e.progressUs + us < 3000)
    ∧ (∃ (c k us : Nat) (w : Bool) (s : State) (e : Erase), eraseOf s.dev c k = some e
      ∧ (portPresent s.dev c = false ∨ e.suspended = true ∨ readWaits s.dev c k w = false ∨ us < 500 ∨ 5 ≤ e.suspends ∨ 3000 ≤ e.progressUs + us))
    ∧ (∃ (c k us : Nat) (w : Bool) (s : State) (e : Erase), eraseOf s.dev c k = some e ∧ e.suspended = true
      ∧ portPresent s.dev c = true ∧ e.frozen = false ∧ s.dev.chp.mode ≠ .curtain
      ∧ (readWaits s.dev c k w = false ∨ 2000 ≤ us ∨ 64 ≤ e.suspendReads))
    ∧ (∃ (c k us : Nat) (w : Bool) (s : State) (e : Erase), eraseOf s.dev c k = some e
      ∧ (portPresent s.dev c = false ∨ e.suspended = false ∨ e.frozen = true ∨ s.dev.chp.mode = .curtain
        ∨ (readWaits s.dev c k w = true ∧ us < 2000 ∧ e.suspendReads < 64)))
    ∧ (∃ (c k _us : Nat) (_w : Bool) (s : State), eraseOf s.dev c k = none) :=
  ⟨⟨0, 7, (S .armed fun d => { d with cells := [(0, { erases := [(7, { unit := 0 })] })] }), (7, { unit := 0 }),
      by decide⟩,
   ⟨0, 7, (S .armed), by decide⟩,
   ⟨0, 7, (S .armed fun d => { d with cells := [(0, { erases := [(7, { unit := 0, suspended := true })] })] }),
      (7, { unit := 0, suspended := true }), by decide⟩,
   ⟨0, 7, (S .service fun d => { d with cells := [(0, { port := .queued, op := 0x20 })] }), by decide⟩,
   ⟨0, 7, 500, true, (S .armed fun d => { d with cells := [(0, { erases := [(7, { unit := 0, suspends := 4, progressUs := 2499 })] })] }),
      { unit := 0, suspends := 4, progressUs := 2499 }, by decide⟩,
   ⟨0, 7, 499, true, (S .armed fun d => { d with cells := [(0, { erases := [(7, { unit := 0, suspends := 4 })] })] }),
      { unit := 0, suspends := 4 }, by decide⟩,
   ⟨0, 7, 2000, true,
      (S .armed fun d => { d with cells := [(0, { erases := [(7, { unit := 0, suspended := true })] })] }),
      { unit := 0, suspended := true }, by decide⟩,
   ⟨0, 7, 0, false, (S .armed fun d => { d with cells := [(0, { erases := [(7, { unit := 0, suspended := true, frozen := true })] })] }),
      { unit := 0, suspended := true, frozen := true }, by decide⟩,
   ⟨0, 7, 500, true, (S .armed), by decide⟩⟩

/-- States that meet the hypotheses of `ReadyHolds`, clause by clause. -/
theorem witness_ReadyHolds :
    (∃ (h : Nat) (s : State) (x : Desc), findDesc s.dev h = some x ∧ x.isHold = true ∧ x.entry.opcode = 1
      ∧ x.phase = .reading ∧ x.needReads = []
      ∧ s.dev.ept.tags.any (fun e => e.2.handle = h && !e.2.quarantined) = false ∧ x.readError = 0)
    ∧ (∃ (h : Nat) (s : State) (x : Desc) (d : Dev), begin h false 2 s.dev = (some x, d)
      ∧ writesHeld d x.entry.caddr x.bytesLen = false)
    ∧ (∃ (h : Nat) (s : State) (x : Desc) (d : Dev), begin h false 2 s.dev = (some x, d)
      ∧ writesHeld d x.entry.caddr x.bytesLen = true)
    ∧ (∃ (h : Nat) (s : State) (x : Desc), findDesc s.dev h = some x ∧ x.phase = .waiting) :=
  ⟨⟨1, (S .armed fun d => { d with descs := [D 1 1 fun x => { x with phase := .reading }] }),
      (D 1 1 fun x => { x with phase := .reading }), by decide⟩,
   ⟨1, (S .armed fun d => { d with descs := [D 2 1] }), (D 2 1),
      (S .armed fun d => { d with descs := [D 2 1] }).dev, by decide⟩,
   ⟨1, (S .armed fun d => { d with descs := [D 2 1 fun x => { x with entry.pages := 1 }], ept.tlpHeld := [{ fn := 1, caddr := 0, data := [1], isRead := false, len := 1 }] }),
      (D 2 1 fun x => { x with entry.pages := 1 }),
      (S .armed fun d => { d with descs := [D 2 1 fun x => { x with entry.pages := 1 }], ept.tlpHeld := [{ fn := 1, caddr := 0, data := [1], isRead := false, len := 1 }] }).dev,
      by decide⟩,
   ⟨1, (S .armed fun d => { d with descs := [D 1 1 fun x => { x with phase := .waiting }] }),
      (D 1 1 fun x => { x with phase := .waiting }), by decide⟩⟩

/-- States that meet the hypotheses of `CacheCommands`, clause by clause. -/
theorem witness_CacheCommands :
    (∃ (h : Nat) (s : State) (x : Desc) (d : Dev), begin h false 1 s.dev = (some x, d)
      ∧ reloadPending d x.entry.caddr x.bytesLen = false)
    ∧ (∃ (h : Nat) (s : State) (x : Desc) (d : Dev), begin h false 4 s.dev = (some x, d)
      ∧ reloadPending d x.entry.caddr x.bytesLen = false)
    ∧ (∃ (h : Nat) (s : State) (x : Desc) (d : Dev), begin h false 6 s.dev = (some x, d)
      ∧ (d.descs ++ waitingDescs d).any (fun y => y.handle < x.handle && inScope x y) = false)
    ∧ (∃ (h : Nat) (s : State) (x y : Desc) (d : Dev), findDesc s.dev h = some y
      ∧ begin h (y.fn = 0) 16 s.dev = (some x, d))
    ∧ (∃ (h : Nat) (s : State) (x : Desc) (d : Dev), begin h false 3 s.dev = (some x, d)
      ∧ modeRefuses d x = none ∧ reloadPending d x.entry.caddr x.bytesLen = false
      ∧ bit x.entry.flags 4 = false) :=
  ⟨⟨1, (S .armed fun d => { d with descs := [D 1 1] }), (D 1 1),
      (S .armed fun d => { d with descs := [D 1 1] }).dev, by decide⟩,
   ⟨1, (S .armed fun d => { d with descs := [D 4 1] }), (D 4 1),
      (S .armed fun d => { d with descs := [D 4 1] }).dev, by decide⟩,
   ⟨1, (S .armed fun d => { d with descs := [D 6 1] }), (D 6 1),
      (S .armed fun d => { d with descs := [D 6 1] }).dev, by decide⟩,
   ⟨1, (S .armed fun d => { d with descs := [D 16 1] }), (D 16 1), (D 16 1),
      (S .armed fun d => { d with descs := [D 16 1] }).dev, by decide⟩,
   ⟨1, (S .armed fun d => { d with descs := [D 3 1] }), (D 3 1),
      (S .armed fun d => { d with descs := [D 3 1] }).dev, by decide⟩⟩

/-- States that meet the hypotheses of `HostReadsAndWindows`, clause by clause. -/
theorem witness_HostReadsAndWindows :
    (∃ (n : Nat) (_bs : List Byte) (s : State) (g : Tag), s.dev.ept.tags.find? (fun e => e.1 = n) = some (n, g)
      ∧ g.quarantined = false ∧ g.discard = false ∧ s.dev.ept.tlpsCut = false ∧ s.dev.chp.mode ≠ .service)
    ∧ (∃ (n : Nat) (st : CplStatus) (_bs : List Byte) (s : State),
      (st ≠ .success ∨ s.dev.ept.tlpsCut = true ∨ s.dev.chp.mode = .service
        ∨ s.dev.ept.tags.any (fun e => e.1 = n && !e.2.quarantined && !e.2.discard) = false))
    ∧ (∃ (n : Nat) (s : State) (g : Tag), s.dev.ept.tags.find? (fun e => e.1 = n) = some (n, g)
      ∧ g.quarantined = false)
    ∧ (∃ (n : Nat) (s : State) (g : Tag), s.dev.ept.tags.find? (fun e => e.1 = n) = some (n, g)
      ∧ g.quarantined = true ∧ s.dev.descs.all (fun x => x.needReads = []) = true)
    ∧ (∃ (f off a : Nat) (bs : List Byte) (s : State), s.dev.ept.tlpsCut = false ∧ linkUp s.dev = true
      ∧ hitsWindow s.dev f off = true ∧ windowTarget s.dev f off false = .inr a
      ∧ reloadPending s.dev a bs.length = false)
    ∧ (∃ (f off c : Nat) (_bs : List Byte) (_p : Bool) (s : State), s.dev.ept.tlpsCut = false
      ∧ linkUp s.dev = true ∧ hitsWindow s.dev f off = true ∧ windowTarget s.dev f off false = .inl c)
    ∧ (∃ (f off a n : Nat) (s : State), s.dev.ept.tlpsCut = false ∧ linkUp s.dev = true
      ∧ hitsWindow s.dev f off = true ∧ windowTarget s.dev f off true = .inr a
      ∧ reloadPending s.dev a n = false)
    ∧ (∃ (f off _n c : Nat) (s : State), s.dev.ept.tlpsCut = false ∧ linkUp s.dev = true
      ∧ hitsWindow s.dev f off = true ∧ windowTarget s.dev f off true = .inl c)
    ∧ (∃ (_f _off _n : Nat) (_bs : List Byte) (_p : Bool) (s : State), s.dev.ept.tlpsCut = true)
    ∧ (∃ s : State, s.dev.ept.winBusy = true ∧ flipCheck s.dev = none)
    ∧ (∃ (s : State) (r i : Nat), s.dev.ept.winBusy = true ∧ flipCheck s.dev = some (r, i)) :=
  ⟨⟨767, [], (S .armed fun d => { d with ept.link := .l0, ept.tags := [(767, { handle := 1, fn := 1, caddr := 0, len := 4 })], descs := [D 1 1 fun x => { x with phase := .reading }] }),
      { handle := 1, fn := 1, caddr := 0, len := 4 }, by decide⟩,
   ⟨767, .success, [], (S .armed), by decide⟩,
   ⟨767, (S .armed fun d => { d with ept.link := .l0, ept.tags := [(767, { handle := 1, fn := 1, caddr := 0, len := 4 })], descs := [D 1 1 fun x => { x with phase := .reading }] }),
      { handle := 1, fn := 1, caddr := 0, len := 4 }, by decide⟩,
   ⟨767, (S .armed fun d => { d with ept.tags := [(767, { handle := 1, fn := 1, caddr := 0, len := 4, quarantined := true })] }),
      { handle := 1, fn := 1, caddr := 0, len := 4, quarantined := true }, by decide⟩,
   ⟨1, 0, 0, [1], (S .armed fun d => { d with ept.link := .l0, ept.fnCountNow := 63, fns := [(1, { busMaster := true, restored := true })], ept.winFnActive := [(1, 0x100000000)], ept.winSizeNow := [(1, 1)], ept.winActive := [(0, 1)] }),
      by decide⟩,
   ⟨1, 0, 0, [1], false, (S .armed fun d => { d with ept.link := .l0 }), by decide⟩,
   ⟨1, 0, 0, 4, (S .armed fun d => { d with ept.link := .l0, ept.fnCountNow := 63, fns := [(1, { busMaster := true, restored := true })], ept.winFnActive := [(1, 0x100000000)], ept.winSizeNow := [(1, 1)], ept.winActive := [(0, 1)] }),
      by decide⟩,
   ⟨1, 0, 4, 0, (S .armed fun d => { d with ept.link := .l0 }), by decide⟩,
   ⟨1, 0, 4, [1], false, (S .armed fun d => { d with ept.tlpsCut := true }), by decide⟩,
   ⟨(S .armed fun d => { d with ept.winBusy := true }), by decide⟩,
   ⟨(S .armed fun d => { d with ept.winBusy := true, ept.winFn := [(1, 0x20000FFFF)] }), 2, 1, by decide⟩⟩

/-- States that meet the hypotheses of `EndpointAndLink`, clause by clause. -/
theorem witness_EndpointAndLink :
    (∃ (_c : ResetCause) (s : State), endpointOn s.dev = true)
    ∧ (∃ (_c : ResetCause) (s : State), endpointOn s.dev = false)
    ∧ (∃ s : State, endpointOn s.dev = true ∧ s.dev.pins.vaux3 = true ∧ s.dev.ept.link = .down)
    ∧ (∃ s : State, (endpointOn s.dev = false ∨ s.dev.pins.vaux3 = false ∨ s.dev.ept.link ≠ .down))
    ∧ (∃ (_r w : Nat) (s : State), endpointOn s.dev = true ∧ s.dev.pins.perstN = true ∧ s.dev.pins.vaux3 = true
      ∧ s.dev.chp.mode ≠ .intermission ∧ trainsAt w = true)
    ∧ (∃ (_r w : Nat) (s : State), (endpointOn s.dev = false ∨ s.dev.pins.perstN = false
        ∨ s.dev.pins.vaux3 = false ∨ s.dev.chp.mode = .intermission ∨ trainsAt w = false))
    ∧ (∃ s : State, linkUp s.dev = false ∧ s.dev.spw.good = true ∧ s.dev.ept.hostLossState = 1)
    ∧ (∃ s : State, (linkUp s.dev = true ∨ s.dev.spw.good = false ∨ s.dev.ept.hostLossState ≠ 1))
    ∧ (∃ s : State, bit s.dev.ept.linkCtl 1 = true ∧ linkIdle s.dev = true ∧ linkAwake s.dev = true)
    ∧ (∃ (_n : Nat) (s : State), bit s.dev.ept.ctl 4 = true ∧ s.dev.ept.rate = 6 ∧ linkAwake s.dev = true)
    ∧ (∃ s : State, (bit s.dev.ept.linkCtl 1 = false ∨ linkIdle s.dev = false ∨ linkAwake s.dev = false))
    ∧ (∃ (_n : Nat) (s : State),
      (bit s.dev.ept.ctl 4 = false ∨ s.dev.ept.rate ≠ 6 ∨ linkAwake s.dev = false)) :=
  ⟨⟨.perst, (S .armed fun d => { d with ept.link := .l0, descs := [D 1 1] }), by decide⟩,
   ⟨.perst, (S .dark fun d => { d with pins.perstN := true }), by decide⟩,
   ⟨(S .armed fun d => { d with pins.perstN := false }), by decide⟩,
   ⟨(S .dark), by decide⟩,
   ⟨6, 16, (S .armed fun d => { d with pins.perstN := true, ept.link := .training }), by decide⟩,
   ⟨6, 2, (S .armed fun d => { d with pins.perstN := true, ept.link := .training }), by decide⟩,
   ⟨(S .armed fun d => { d with spw.good := true, ept.hostLossState := 1 }), by decide⟩,
   ⟨(S .armed fun d => { d with ept.link := .l0 }), by decide⟩,
   ⟨(S .armed fun d => { d with ept.link := .l0, ept.linkCtl := 2 }), by decide⟩,
   ⟨400, (S .armed fun d => { d with ept.link := .l0, ept.rate := 6, ept.ctl := 0x00C81410 }), by decide⟩,
   ⟨(S .armed fun d => { d with ept.link := .l0 }), by decide⟩,
   ⟨0, (S .armed fun d => { d with ept.link := .l0 }), by decide⟩⟩

/-- States that meet the hypotheses of `Rings`, clause by clause. -/
theorem witness_Rings :
    (∃ (f n : Nat) (w : W32) (s : State), f ≠ 0 ∧ ringBlocked s.dev f (sqRing s.dev f n).en = false
      ∧ tailOk (sqRing s.dev f n) (field w 0 16) = true)
    ∧ (∃ (_n : Nat) (w : W32) (s : State), (mrgRing s.dev 0).en = true
      ∧ tailOk (mrgRing s.dev 0) (field w 0 16) = true)
    ∧ (∃ (f n : Nat) (w : W32) (s : State), f ≠ 0
      ∧ (ringBlocked s.dev f (sqRing s.dev f n).en = true ∨ tailOk (sqRing s.dev f n) (field w 0 16) = false))
    ∧ (∃ (f n : Nat) (w : W32) (s : State), f ≠ 0 ∧ ringBlocked s.dev f (cqRing s.dev f n).en = false
      ∧ headOk (cqRing s.dev f n) (headValue s.dev f n w) = true)
    ∧ (∃ (n : Nat) (w : W32) (s : State), 1 ≤ n ∧ (mrgRing s.dev n).en = true
      ∧ headOk (mrgRing s.dev n) (headValue s.dev 0 n w) = true)
    ∧ (∃ (f n : Nat) (w : W32) (s : State), f ≠ 0 ∧ (ringBlocked s.dev f (cqRing s.dev f n).en = true
        ∨ headOk (cqRing s.dev f n) (headValue s.dev f n w) = false))
    ∧ (∃ (f n : Nat) (w : W32) (s : State), 1 ≤ f ∧ f ≤ 63 ∧ n ≤ 15 ∧ (cqRing s.dev f n).en = false
      ∧ bit w 31 = true ∧ log2Ok f .completion n (field w 0 5) = true)
    ∧ (∃ (f n : Nat) (w : W32) (s : State), 1 ≤ f ∧ f ≤ 63 ∧ n ≤ 15 ∧ (sqRing s.dev f n).en = false
      ∧ bit w 31 = true ∧ (cqRing s.dev f (field w 20 4)).en = true
      ∧ log2Ok f .submission n (field w 0 5) = true)
    ∧ (∃ (f n : Nat) (w : W32) (s : State), 1 ≤ f ∧ f ≤ 63 ∧ n ≤ 15 ∧ (sqRing s.dev f n).en = false
      ∧ bit w 31 = true ∧ (cqRing s.dev f (field w 20 4)).en = false)
    ∧ (∃ (f n : Nat) (w : W32) (s : State), 1 ≤ f ∧ f ≤ 63 ∧ n ≤ 15 ∧ (cqRing s.dev f n).en = true
      ∧ bit w 31 = false ∧ (getFn s.dev f).sq.any (fun e => e.2.en && field e.2.cfg 20 4 = n) = false)
    ∧ (∃ (f n : Nat) (s : State), f ≠ 0 ∧ (cqRing s.dev f n).unsent ≠ 0 ∧ field (cqRing s.dev f n).cfg 16 8 ≠ 0
      ∧ (cqRing s.dev f n).en = true) :=
  ⟨⟨1, 0, 15, (S .armed fun d => { d with fns := [(1, { busMaster := true, sq := [(0, { en := true })] })] }),
      by decide⟩,
   ⟨0, 15, (S .armed fun d => { d with mrg.rings := [(0, { en := true })] }), by decide⟩,
   ⟨1, 0, 16, (S .armed fun d => { d with fns := [(1, { busMaster := true, sq := [(0, { en := true })] })] }),
      by decide⟩,
   ⟨1, 0, 0, (S .armed fun d => { d with fns := [(1, { busMaster := true, cq := [(0, { en := true })] })] }),
      by decide⟩,
   ⟨4, 0, (S .armed fun d => { d with mrg.rings := [(4, { en := true, cfg := 20 })] }), by decide⟩,
   ⟨1, 0, 16, (S .armed fun d => { d with fns := [(1, { busMaster := true, cq := [(0, { en := true })] })] }),
      by decide⟩,
   ⟨63, 15, 0x80000004, (S .armed), by decide⟩,
   ⟨1, 0, 0x80F00010,
      (S .armed fun d => { d with fns := [(1, { busMaster := true, cq := [(15, { en := true })] })] }),
      by decide⟩,
   ⟨1, 0, 0x80F00010, (S .armed), by decide⟩,
   ⟨1, 15, 0, (S .armed fun d => { d with fns := [(1, { busMaster := true, cq := [(15, { en := true })] })] }),
      by decide⟩,
   ⟨1, 15, (S .armed fun d => { d with fns := [(1, { busMaster := true, cq := [(15, { en := true, cfg := 0x000A0004, unsent := 1 })] })] }),
      by decide⟩⟩

/-- States that meet the hypotheses of `FetchesAndFunctions`, clause by clause. -/
theorem witness_FetchesAndFunctions :
    (∃ (_e : SqEntry) (_g : SglRead) (s : State), fetches s.dev true = true ∧ (mrgRing s.dev 0).en = true
      ∧ (mrgRing s.dev 0).dev ≠ (mrgRing s.dev 0).host ∧ inFlightCount s.dev true < 16
      ∧ (getFn s.dev 0).busMaster = true)
    ∧ (∃ (e : SqEntry) (_g : SglRead) (s : State) (f k : Nat),
      (fetches s.dev true = false ∨ (mrgRing s.dev 0).en = false ∨ (mrgRing s.dev 0).dev = (mrgRing s.dev 0).host
        ∨ 16 ≤ inFlightCount s.dev true ∨ (getFn s.dev 0).busMaster = false) ∧ fetches s.dev false = true
      ∧ inFlightCount s.dev false < 2032 ∧ pickFn s.dev = some f ∧ pickRing s.dev f = some k
      ∧ (listed e = false ∨ freeTag s.dev ≠ none))
    ∧ (∃ (_e : SqEntry) (_g : SglRead) (s : State),
      (fetches s.dev true = false ∨ (mrgRing s.dev 0).en = false ∨ (mrgRing s.dev 0).dev = (mrgRing s.dev 0).host
        ∨ 16 ≤ inFlightCount s.dev true ∨ (getFn s.dev 0).busMaster = false)
      ∧ (fetches s.dev false = false ∨ 2032 ≤ inFlightCount s.dev false ∨ pickFn s.dev = none))
    ∧ (∃ (f : Nat) (s : State), fnPresent s.dev f = true)
    ∧ (∃ (f : Nat) (s : State), fnPresent s.dev f = false)
    ∧ (∃ (f : Nat) (c : DisableCause) (_s : State), f ≤ 63 ∧ (f ≠ 0 ∨ c ≠ .eptFnDisable))
    ∧ (∃ (f : Nat) (_c : DisableCause) (_s : State), f ≤ 63) :=
  ⟨⟨{ opcode := 16 }, .ok [],
      (S .armed fun d => { d with ept.link := .l0, mrg.rings := [(0, { en := true, host := 1 })], fns := [(0, { busMaster := true })] }),
      by decide⟩,
   ⟨{ opcode := 16 }, .ok [],
      (S .armed fun d => { d with ept.link := .l0, fns := [(1, { busMaster := true, sq := [(0, { en := true, host := 1 })] })] }),
      1, 0, by decide⟩,
   ⟨{ opcode := 16 }, .ok [], (S .armed fun d => { d with ept.link := .l0 }), by decide⟩,
   ⟨63, (S .armed), by decide⟩,
   ⟨64, (S .armed), by decide⟩,
   ⟨63, .d3hot, (S .armed), by decide⟩,
   ⟨63, .d3hot, (S .armed), by decide⟩⟩

/-- States that meet the hypotheses of `PowerOn`, clause by clause. -/
theorem witness_PowerOn :
    (∃ (mv : Nat) (s : State), s.dev.chp.mode = .dark ∧ 10700 ≤ mv ∧ mv ≤ 16000 ∧ s.dev.pins.vaux3 = true)
    ∧ (∃ (mv : Nat) (s : State), mv ≤ 16000 ∧ (s.dev.chp.mode ≠ .dark ∨ mv < 10700 ∨ s.dev.pins.vaux3 = false))
    ∧ (∃ (mv : Nat) (_s : State), 16000 < mv)
    ∧ (∃ s : State, s.dev.pins.vaux3 = true) :=
  ⟨⟨10700, (S .dark), by decide⟩,
   ⟨10699, (S .dark), by decide⟩,
   ⟨16001, (S .dark), by decide⟩,
   ⟨(S .armed), by decide⟩⟩

/-- States that meet the hypotheses of `BootMilestones`, clause by clause. -/
theorem witness_BootMilestones :
    (∃ (s : State) (n : Nat), s.dev.chp.mode = .boot ∧ s.dev.rom.booted = false ∧ s.dev.chp.fatalBoot = false
      ∧ bootTwin s.dev = some n)
    ∧ (∃ s : State, s.dev.chp.mode = .boot ∧ s.dev.rom.booted = false ∧ s.dev.chp.fatalBoot = false
      ∧ bootTwin s.dev = none)
    ∧ (∃ (_ms : List ModuleFound) (s : State), s.dev.chp.mode = .boot ∧ s.dev.rom.booted = true
      ∧ s.dev.rom.modulesOk = false)
    ∧ (∃ s : State, s.dev.chp.mode = .boot ∧ s.dev.rom.modulesOk = true ∧ s.dev.rom.flashReady = false
      ∧ s.dev.chp.fatalBoot = false ∧ pinDriving s.dev.obs.tapIr = false)
    ∧ (∃ s : State, s.dev.chp.mode = .boot ∧ s.dev.rom.flashReady = true ∧ s.dev.rom.playbill = false
      ∧ s.dev.chp.fatalBoot = false ∧ s.dev.chp.tapDrove = false) :=
  ⟨⟨(S .boot), 0, by decide⟩,
   ⟨(S .boot fun d => { d with rom.selectors := [] }), by decide⟩,
   ⟨[], (S .boot fun d => { d with rom.booted := true }), by decide⟩,
   ⟨(S .boot fun d => { d with rom.modulesOk := true }), by decide⟩,
   ⟨(S .boot fun d => { d with rom.flashReady := true }), by decide⟩⟩

/-- States that meet the hypotheses of `KeyCommands`, clause by clause. -/
theorem witness_KeyCommands :
    (∃ (h : Nat) (data : HostData) (s : State) (x : Desc) (d : Dev), begin h true 0x40 s.dev = (some x, d)
      ∧ (data = .timeout ∨ data = .error) ∧ freeTag d ≠ none)
    ∧ (∃ (h : Nat) (_data : HostData) (s : State) (x : Desc) (d : Dev), begin h true 0x40 s.dev = (some x, d)
      ∧ freeTag d = none)
    ∧ (∃ (h : Nat) (_bs : List Byte) (s : State) (x : Desc) (d : Dev), begin h true 0x40 s.dev = (some x, d)
      ∧ freeTag d ≠ none)
    ∧ (∃ (h : Nat) (s : State) (x : Desc) (d : Dev), begin h true 0x41 s.dev = (some x, d)
      ∧ ((getSlot d (field x.entry.p0 0 6)).pending.isSome = true
        ∨ ((getSlot d (field x.entry.p0 0 6)).bound = true ∧ (getSlot d (field x.entry.p0 0 6)).fn ≠ 0
            ∧ holdsData d (getSlot d (field x.entry.p0 0 6)).fn (field x.entry.p0 0 6) = true
            ∧ bit x.entry.flags 4 = false)))
    ∧ (∃ (h : Nat) (s : State) (x : Desc) (d : Dev), begin h true 0x41 s.dev = (some x, d)
      ∧ (getSlot d (field x.entry.p0 0 6)).pending = none
      ∧ holdsData d (getSlot d (field x.entry.p0 0 6)).fn (field x.entry.p0 0 6) = false)
    ∧ (∃ (h : Nat) (s : State) (x : Desc) (d : Dev), begin h true 0x41 s.dev = (some x, d)
      ∧ (getSlot d (field x.entry.p0 0 6)).pending = none ∧ (getSlot d (field x.entry.p0 0 6)).bound = true
      ∧ (getSlot d (field x.entry.p0 0 6)).fn ≠ 0
      ∧ holdsData d (getSlot d (field x.entry.p0 0 6)).fn (field x.entry.p0 0 6) = true
      ∧ bit x.entry.flags 4 = true
      ∧ 32 * (heldExtents d (getSlot d (field x.entry.p0 0 6)).fn).length ≤ x.entry.hlen) :=
  ⟨⟨1, .timeout, (S .armed fun d => { d with descs := [D 64 0] }), (D 64 0),
      (S .armed fun d => { d with descs := [D 64 0] }).dev, by decide⟩,
   ⟨1, .timeout, (S .armed fun d => { d with descs := [D 64 0], ept.tags := (List.range 32).map fun t => (t, { handle := 1, fn := 1, caddr := 0, len := 4 }) }),
      (D 64 0), (S .armed fun d => { d with descs := [D 64 0], ept.tags := (List.range 32).map fun t => (t, { handle := 1, fn := 1, caddr := 0, len := 4 }) }).dev,
      by decide⟩,
   ⟨1, List.replicate 40 0, (S .armed fun d => { d with descs := [D 64 0] }), (D 64 0),
      (S .armed fun d => { d with descs := [D 64 0] }).dev, by decide⟩,
   ⟨1, (S .armed fun d => { d with descs := [D 65 0 fun x => { x with entry.p0 := 63 }], cip.slots := [(63, { pending := some (9, 9) })] }),
      (D 65 0 fun x => { x with entry.p0 := 63 }),
      (S .armed fun d => { d with descs := [D 65 0 fun x => { x with entry.p0 := 63 }], cip.slots := [(63, { pending := some (9, 9) })] }).dev,
      by decide⟩,
   ⟨1, (S .armed fun d => { d with descs := [D 65 0 fun x => { x with entry.p0 := 63 }], cip.slots := [(63, { bound := true, loaded := true, key := 5, fn := 1 })] }),
      (D 65 0 fun x => { x with entry.p0 := 63 }),
      (S .armed fun d => { d with descs := [D 65 0 fun x => { x with entry.p0 := 63 }], cip.slots := [(63, { bound := true, loaded := true, key := 5, fn := 1 })] }).dev,
      by decide⟩,
   ⟨1, (S .armed fun d => { d with descs := [D 65 0 fun x => { x with entry.p0 := 63, entry.flags := 16, entry.hlen := 32 }], cip.slots := [(63, { bound := true, loaded := true, key := 5, fn := 1 })], pages := [(0, pageU)], exts := [ext1] }),
      (D 65 0 fun x => { x with entry.p0 := 63, entry.flags := 16, entry.hlen := 32 }),
      (S .armed fun d => { d with descs := [D 65 0 fun x => { x with entry.p0 := 63, entry.flags := 16, entry.hlen := 32 }], cip.slots := [(63, { bound := true, loaded := true, key := 5, fn := 1 })], pages := [(0, pageU)], exts := [ext1] }).dev,
      by decide⟩⟩

/-- States that meet the hypotheses of `VaultAndWrap`, clause by clause. -/
theorem witness_VaultAndWrap :
    (∃ (k : Nat) (s : State) (h key : Nat) (v : Vault) (x : Desc), (getSlot s.dev k).pending = some (h, key)
      ∧ s.dev.cip.vault.find? (fun v => v.slot = k && !v.written) = some v ∧ findDesc s.dev h = some x
      ∧ (getSlot s.dev k).erasing = false)
    ∧ (∃ (b : Nat) (s : State) (a : Nat × Nat × Nat) (rest : List (Nat × Nat × Nat)),
      (getBlk s.dev b).cipherActive = a :: rest)
    ∧ (∃ s : State, s.dev.cip.wrapLocked = true)
    ∧ (∃ s : State, s.dev.cip.wrapLocked = false) :=
  ⟨⟨63, (S .armed fun d => { d with descs := [D 0x40 0], cip.slots := [(63, { bound := true, pending := some (1, 9) })], cip.vault := [{ slot := 63, gen := 2, fn := 1, hostHeld := true, pfx := 0, loadHt := 1, kcv := 0, wrapped := 0, eraseHt := 0 }] }),
      1, 9, { slot := 63, gen := 2, fn := 1, hostHeld := true, pfx := 0, loadHt := 1, kcv := 0, wrapped := 0, eraseHt := 0 },
      D 0x40 0, by decide⟩,
   ⟨0, (S .armed fun d => { d with blk := [(0, { cipherActive := [(7, 63, 0), (8, 63, 0)] })] }), (7, 63, 0),
      [(8, 63, 0)], by decide⟩,
   ⟨(S .armed fun d => { d with cip.wrapLocked := true }), by decide⟩,
   ⟨(S .armed), by decide⟩⟩

/-- States that meet the hypotheses of `EncoreAndReconcile`, clause by clause. -/
theorem witness_EncoreAndReconcile :
    (∃ s : State, s.dev.chp.mode = .encore ∧ s.dev.enc.located = false)
    ∧ (∃ s : State, s.dev.chp.mode = .encore ∧ s.dev.enc.located = true ∧ s.dev.enc.scanned = false)
    ∧ (∃ s : State, s.dev.chp.mode = .encore ∧ s.dev.enc.scanned = true ∧ s.dev.enc.chosen = false)
    ∧ (∃ (f : Nat) (s : State), s.dev.enc.chosen = true ∧ nextRestore s.dev = some f
      ∧ (s.dev.chp.mode = .encore ∨ s.dev.chp.mode = .reconcile ∨ s.dev.chp.mode.settled = true))
    ∧ (∃ (b : Nat) (s : State), s.dev.chp.mode = .encore ∧ s.dev.enc.chosen = true
      ∧ (readBlocks s.dev).contains b = true ∧ s.dev.enc.blockDone.contains b = false
      ∧ blockReady s.dev b = true)
    ∧ (∃ s : State, s.dev.chp.mode = .encore ∧ s.dev.enc.chosen = true
      ∧ (s.dev.enc.short = true ∨ (readBlocks s.dev).all (fun b => s.dev.enc.blockDone.contains b) = true))
    ∧ (∃ s : State, rcnOpen s.dev = true ∧ Tab.get 0 s.dev.enc.rcnHt 2 ≠ 0 ∧ s.dev.hrk.role = 0)
    ∧ (∃ s : State, rcnOpen s.dev = true)
    ∧ (∃ s : State, s.dev.chp.mode = .reconcile ∧ (s.dev.enc.merged = true ∨ s.dev.enc.unmerged = true)) :=
  ⟨⟨(S .encore fun d => { d with flash.records := [{ rec7 with written := true }] }), by decide⟩,
   ⟨(S .encore fun d => { d with enc.located := true, flash.records := [{ rec7 with written := true }] }),
      by decide⟩,
   ⟨(S .encore fun d => { d with enc.located := true, enc.scanned := true, flash.records := [{ rec7 with written := true }] }),
      by decide⟩,
   ⟨1, (S .encore fun d => { d with enc.located := true, enc.scanned := true, enc.chosen := true, pages := [(0, pageW)], exts := [ext1], flash.records := [{ rec7 with written := true }] }),
      by decide⟩,
   ⟨0, (S .encore fun d => { d with enc.located := true, enc.scanned := true, enc.chosen := true }), by decide⟩,
   ⟨(S .encore fun d => { d with enc.located := true, enc.scanned := true, enc.chosen := true, enc.blockDone := [0] }),
      by decide⟩,
   ⟨(S .reconcile fun d => { d with enc.rcnHt := [(2, 1)] }), by decide⟩,
   ⟨(S .reconcile), by decide⟩,
   ⟨(S .reconcile fun d => { d with enc.merged := true }), by decide⟩⟩

/-- States that meet the hypotheses of `OrderAndIndexReads`, clause by clause. -/
theorem witness_OrderAndIndexReads :
    (∃ (h : Nat) (s : State) (x : Desc) (d : Dev), begin h false 7 s.dev = (some x, d))
    ∧ (∃ (h : Nat) (_c : LookupCheck) (s : State) (x : Desc) (d : Dev), begin h false 5 s.dev = (some x, d))
    ∧ (∃ (f : Nat) (s : State), (getFn s.dev f).rebuilding = true ∧ indexOn s.dev = true)
    ∧ (∃ (f : Nat) (s : State), (getFn s.dev f).rebuilding = true ∧ (getFn s.dev f).rebuilds ≠ 0
      ∧ indexOn s.dev = true)
    ∧ (∃ (f k : Nat) (s : State), indexOn s.dev = true ∧ keepsGaps s.dev f (k / 65536) = true
      ∧ (getFn s.dev f).respreads.contains k = true ∧ (getFn s.dev f).rebuilding = false)
    ∧ (∃ (f k : Nat) (s : State), (indexOn s.dev = false ∨ keepsGaps s.dev f (k / 65536) = false
        ∨ (getFn s.dev f).respreads.contains k = false ∨ (getFn s.dev f).rebuilding = true)) :=
  ⟨⟨1, (S .armed fun d => { d with descs := [D 7 1 fun x => { x with entry.hlen := 64 }] }),
      (D 7 1 fun x => { x with entry.hlen := 64 }),
      (S .armed fun d => { d with descs := [D 7 1 fun x => { x with entry.hlen := 64 }] }).dev, by decide⟩,
   ⟨1, .repeated, (S .armed fun d => { d with descs := [D 5 1] }), (D 5 1),
      (S .armed fun d => { d with descs := [D 5 1] }).dev, by decide⟩,
   ⟨63, (S .armed fun d => { d with fns := [(63, { rebuilding := true })] }), by decide⟩,
   ⟨63, (S .armed fun d => { d with fns := [(63, { rebuilding := true, rebuilds := 1 })] }), by decide⟩,
   ⟨1, 65535, (S .armed fun d => { d with fns := [(1, { idxCfg := 1024, respreads := [65535] })] }), by decide⟩,
   ⟨63, 65535, (S .armed), by decide⟩⟩

/-- States that meet the hypotheses of `CellFaults`, clause by clause. -/
theorem witness_CellFaults :
    (∃ (c : Nat) (_k : CellCause) (s : State), blockOn s.dev (c / 8) = true ∧ (getCell s.dev c).failed = false)
    ∧ (∃ (c n : Nat) (_b : Bool) (s : State), blockOn s.dev (c / 8) = true ∧ (getCell s.dev c).failed = false
      ∧ (getCell s.dev c).deadTargets.contains n = false ∧ n < 8) :=
  ⟨⟨7, .pageBuffer, (S .armed), by decide⟩,
   ⟨7, 7, true, (S .armed fun d => { d with cells := [(7, { erases := [(7, { unit := 3 })] })], flash.intents := [(7, 7, 3)] }),
      by decide⟩⟩

/-- States that meet the hypotheses of `BlockFaults`, clause by clause. -/
theorem witness_BlockFaults :
    (∃ (b p : Nat) (s : State), blockOn s.dev b = true ∧ p < 2 ∧ (getBlk s.dev b).pipe0Ok = true
      ∧ (getBlk s.dev b).pipe1Ok = true)
    ∧ (∃ (b : Nat) (s : State), blockOn s.dev b = true ∧ (getBlk s.dev b).pipe0Ok = true
      ∧ (getBlk s.dev b).pipe1Ok = false)
    ∧ (∃ (b : Nat) (_c : BlockCause) (s : State), blockOn s.dev b = true ∧ blkOut s.dev b = false
      ∧ (getBlk s.dev b).crossSave = false ∧ usablePartner s.dev (partner b) = true
      ∧ (getBlk s.dev b).portOk = true)
    ∧ (∃ (b : Nat) (c : FenceCause) (s : State), blockOn s.dev b = true ∧ blkOut s.dev b = false
      ∧ (c = .dramPort ∨ c = .fabric ∨ c = .powerDomain))
    ∧ (∃ (b : Nat) (_k : BlockCause) (s : State), blockOn s.dev b = true ∧ blkOut s.dev b = false
      ∧ usablePartner s.dev (partner b) = false) :=
  ⟨⟨0, 1, (S .armed), by decide⟩,
   ⟨0, (S .armed fun d => { d with blk := [(0, { pipe1Ok := false })] }), by decide⟩,
   ⟨1, .noCell, (S .armed fun d => { d with board.blocks := 2 }), by decide⟩,
   ⟨0, .fabric, (S .armed), by decide⟩,
   ⟨0, .noCell, (S .armed fun d => { d with board.blocks := 1 }), by decide⟩⟩

/-- States that meet the hypotheses of `DramControllers`, clause by clause. -/
theorem witness_DramControllers :
    (∃ (b : Nat) (s : State), channelOn s.dev b = true)
    ∧ (∃ (b : Nat) (s : State), channelOn s.dev b = true)
    ∧ (∃ (b _r : Nat) (s : State), channelOn s.dev b = true)
    ∧ (∃ (a _p : Nat) (s : State), channelOn s.dev (blockOf (a - a % 64)) = true
      ∧ s.dev.drc.poison.contains (a - a % 64) = false ∧ (a - a % 64) % blockSpan < usable s.dev)
    ∧ (∃ (a _p : Nat) (s : State), s.dev.drc.poison.contains (a - a % 64) = true) :=
  ⟨⟨0, (S .armed fun d => { d with blk := [(0, { dramOn := true, refDebt := 8 })] }), by decide⟩,
   ⟨0, (S .armed fun d => { d with blk := [(0, { dramOn := true, refDebt := 8 })] }), by decide⟩,
   ⟨0, 201, (S .armed fun d => { d with blk := [(0, { dramOn := true, refDebt := 8 })] }), by decide⟩,
   ⟨63, 0, (S .armed fun d => { d with blk := [(0, { dramOn := true })] }), by decide⟩,
   ⟨63, 0, (S .armed fun d => { d with drc.poison := [0] }), by decide⟩⟩

/-- States that meet the hypotheses of `TrainingAndFrequency`, clause by clause. -/
theorem witness_TrainingAndFrequency :
    (∃ (b : Nat) (_p : Bool) (s : State), trains s.dev b = true ∧ (getBlk s.dev b).training = false)
    ∧ (∃ (b : Nat) (s : State), (getBlk s.dev b).training = true ∧ s.dev.drc.fspState ≠ 1)
    ∧ (∃ (b : Nat) (s : State), (getBlk s.dev b).training = true ∧ s.dev.drc.fspState = 1)
    ∧ (∃ (b : Nat) (s : State), channelOn s.dev b = true)
    ∧ (∃ (w : W32) (s : State), s.dev.drc.fspState ≠ 2 ∧ field w 0 1 ≠ s.dev.drc.fspNow
      ∧ orderingPowered s.dev = true ∧ s.dev.chp.mode ≠ .curtain)
    ∧ (∃ s : State, s.dev.drc.fspState = 2) :=
  ⟨⟨0, false, (S .armed fun d => { d with blk := [(0, { dramOn := true })] }), by decide⟩,
   ⟨0, (S .armed fun d => { d with blk := [(0, { dramOn := true, training := true, trainPass := false })] }),
      by decide⟩,
   ⟨0, (S .armed fun d => { d with blk := [(0, { dramOn := true, training := true, trainPass := false })], drc.fspState := 1, drc.fspTarget := 1 }),
      by decide⟩,
   ⟨0, (S .armed fun d => { d with blk := [(0, { dramOn := true })] }), by decide⟩,
   ⟨1, (S .armed), by decide⟩,
   ⟨(S .armed fun d => { d with drc.fspState := 2, drc.fspTarget := 1 }), by decide⟩⟩

/-- States that meet the hypotheses of `Rehearsal`, clause by clause. -/
theorem witness_Rehearsal :
    (∃ (h : Nat) (s : State) (x : Desc) (d : Dev), begin h true 0x42 s.dev = (some x, d)
      ∧ (d.chp.mode = .armed ∨ d.chp.mode = .derated))
    ∧ (∃ (q : FrameIn) (_n : Nat) (s : State), heard s.dev q = true)
    ∧ (∃ s : State, s.dev.chp.rehearsePend = true ∧ rehModes s.dev = true ∧ rehReady s.dev = true
      ∧ rehFits s.dev = true ∧ packHolds s.dev = false ∧ mib ≤ (recompute (abandonCompaction s.dev)).adm.budget)
    ∧ (∃ (_u : Nat) (_p : Bool) (s : State), s.dev.chp.mode = .rehearsal ∧ s.dev.est.restWindow = false)
    ∧ (∃ (_u : Nat) (_p : Bool) (s : State), (s.dev.chp.mode ≠ .rehearsal ∨ s.dev.est.restWindow = true))
    ∧ (∃ s : State, s.dev.chp.mode = .rehearsal ∧ testBlocks s.dev = [] ∧ s.dev.reh.burstBytes ≠ 0) :=
  ⟨⟨1, (S .armed fun d => { d with descs := [D 66 0], pins.packPresN := false, pkb.switchClosed := true, est.valid := true, adm.budget := 100000000000 }),
      (D 66 0), (S .armed fun d => { d with descs := [D 66 0], pins.packPresN := false, pkb.switchClosed := true, est.valid := true, adm.budget := 100000000000 }).dev,
      by decide⟩,
   ⟨{ port := 0, src := 3, dst := 0xFFFF, seq := 1, ackReq := false }, 5,
      (S .armed fun d => { d with hrk.ports := [(0, { trained := true }), (8, { trained := true })] }),
      by decide⟩,
   ⟨(S .derated fun d => { d with chp.rehearsePend := true, est.valid := true, est.eCons := 100000000, pins.packPresN := false, pkb.switchClosed := true, adm.rateRef := 1000000, blk := [(0, { logKnown := true })], adm.budget := 1000000000000000 }),
      by decide +kernel⟩,
   ⟨0, true, (S .rehearsal), by decide⟩,
   ⟨1, false, (S .rehearsal fun d => { d with est.restWindow := true }), by decide⟩,
   ⟨(S .rehearsal fun d => { d with reh.burstBytes := 1, board.blocks := 0 }), by decide⟩⟩

/-- States that meet the hypotheses of `Estimation`, clause by clause. -/
theorem witness_Estimation :
    (∃ s : State, tracking s.dev = true ∧ s.dev.est.pending = 0)
    ∧ (∃ s : State, tracking s.dev = false)
    ∧ (∃ (uv : List Nat) (s : State), resting s.dev = true
      ∧ corrects s.dev (leastOf (uv.map (invertOcv s.dev (evalTemp s.dev)))) = true)
    ∧ (∃ (uv : List Nat) (s : State), resting s.dev = true
      ∧ corrects s.dev (leastOf (uv.map (invertOcv s.dev (evalTemp s.dev)))) = false)
    ∧ (∃ (_uv : List Nat) (s : State), resting s.dev = false)
    ∧ (∃ s : State, tracking s.dev = true)
    ∧ (∃ s : State, tracking s.dev = false)
    ∧ (∃ s : State, s.dev.est.restWindow = true)
    ∧ (∃ s : State, s.dev.est.restWindow = false ∧ tracking s.dev = true ∧ s.dev.est.restDue = true
      ∧ bit s.dev.est.ctl 0 = true ∧ lfpMiddle s.dev = false)
    ∧ (∃ s : State, s.dev.est.restWindow = false ∧ tracking s.dev = true ∧ s.dev.est.restDue = true
      ∧ bit s.dev.est.ctl 0 = true ∧ lfpMiddle s.dev = true)
    ∧ (∃ s : State, s.dev.est.restWindow = false
      ∧ (tracking s.dev = false ∨ s.dev.est.restDue = false ∨ bit s.dev.est.ctl 0 = false))
    ∧ (∃ s : State, mayProbe s.dev = true)
    ∧ (∃ s : State, mayProbe s.dev = false)
    ∧ (∃ (_zs _zp _tau : Nat) (s : State), s.dev.est.probing = true)
    ∧ (∃ (_zs _zp _tau : Nat) (s : State), s.dev.est.probing = false) :=
  ⟨⟨(S .armed fun d => { d with pins.packPresN := false, pkb.switchClosed := true, est.valid := true }),
      by decide⟩,
   ⟨(S .armed), by decide⟩,
   ⟨[4000000], (S .armed fun d => { d with pins.packPresN := false, pkb.switchClosed := true, est.valid := true, est.restOk := true, pkb.desc := packDesc }),
      by decide⟩,
   ⟨[1000000], (S .armed fun d => { d with pins.packPresN := false, pkb.switchClosed := true, est.valid := true, est.restOk := true, pkb.desc := [0, 0, 0, 0, 0, 0, 1, 1], est.params := some paramSet }),
      by decide +kernel⟩,
   ⟨[], (S .armed), by decide⟩,
   ⟨(S .armed fun d => { d with pins.packPresN := false, pkb.switchClosed := true, est.valid := true }),
      by decide⟩,
   ⟨(S .armed), by decide⟩,
   ⟨(S .armed fun d => { d with est.restWindow := true }), by decide⟩,
   ⟨(S .armed fun d => { d with pins.packPresN := false, pkb.switchClosed := true, est.valid := true, est.restDue := true, pkb.desc := packDesc }),
      by decide⟩,
   ⟨(S .armed fun d => { d with pins.packPresN := false, pkb.switchClosed := true, est.valid := true, est.restDue := true, est.soc := [500000000000000], pkb.desc := [0, 0, 0, 0, 0, 0, 1, 1] }),
      by decide⟩,
   ⟨(S .armed), by decide⟩,
   ⟨(S .armed fun d => { d with pins.packPresN := false, pkb.switchClosed := true, est.valid := true, est.ctl := 0x100, spw.good := true, pkb.desc := packDesc }),
      by decide⟩,
   ⟨(S .armed), by decide⟩,
   ⟨1, 1, 1, (S .armed fun d => { d with est.probing := true }), by decide⟩,
   ⟨1, 1, 1, (S .armed), by decide⟩⟩

/-- States that meet the hypotheses of `LearningCycle`, clause by clause. -/
theorem witness_LearningCycle :
    (∃ (h : Nat) (s : State) (x : Desc) (d : Dev), begin h true 0x48 s.dev = (some x, d)
      ∧ (d.chp.mode = .armed ∨ d.chp.mode = .derated) ∧ d.est.learning = false ∧ tracking d = true
      ∧ learnFits d = true)
    ∧ (∃ (h : Nat) (s : State) (x : Desc) (d : Dev), begin h true 0x48 s.dev = (some x, d)
      ∧ (d.est.learning = true ∨ tracking d = false ∨ learnFits d = false
        ∨ (d.chp.mode ≠ .armed ∧ d.chp.mode ≠ .derated)))
    ∧ (∃ s : State, s.dev.est.learning = true ∧ s.dev.est.learnPhase = 1 ∧ s.dev.pkb.chgPhase = .done)
    ∧ (∃ s : State, s.dev.est.learning = true ∧ s.dev.est.learnPhase = 2 ∧ s.dev.est.learnRested = true
      ∧ 90 * socOne ≤ s.dev.est.restSoc * 100)
    ∧ (∃ s : State, s.dev.est.learning = true ∧ s.dev.est.learnPhase = 3
      ∧ weakest s.dev.est * 100 ≤ (learnEnd s.dev : Int) * socOne ∧ rateOk s.dev = true)
    ∧ (∃ (s : State) (q : Nat), s.dev.est.learning = true ∧ s.dev.est.learnPhase = 4
      ∧ s.dev.est.learnRested = true ∧ s.dev.est.restSoc * 100 ≤ 15 * socOne
      ∧ q = learnedNow { s.dev with est := { s.dev.est with learnEndSoc := s.dev.est.restSoc } }
      ∧ designMah s.dev * 50 ≤ q * 100 ∧ q * 100 ≤ designMah s.dev * 110)
    ∧ (∃ s : State, s.dev.est.learning = true ∧ s.dev.est.learnPhase ≠ 5)
    ∧ (∃ s : State, s.dev.est.learning = false) :=
  ⟨⟨1, (S .armed fun d => { d with descs := [D 72 0], pins.packPresN := false, pkb.switchClosed := true, est.valid := true, est.ntc1 := 450, est.ntc2 := 450 }),
      (D 72 0), (S .armed fun d => { d with descs := [D 72 0], pins.packPresN := false, pkb.switchClosed := true, est.valid := true, est.ntc1 := 450, est.ntc2 := 450 }).dev,
      by decide⟩,
   ⟨1, (S .armed fun d => { d with descs := [D 72 0] }), (D 72 0),
      (S .armed fun d => { d with descs := [D 72 0] }).dev, by decide⟩,
   ⟨(S .armed fun d => { d with est.learning := true, est.learnPhase := 1, pkb.chgPhase := .done }), by decide⟩,
   ⟨(S .armed fun d => { d with est.learning := true, est.learnPhase := 2, est.learnRested := true, est.restSoc := 900000000000000 }),
      by decide⟩,
   ⟨(S .armed fun d => { d with est.learning := true, est.learnPhase := 3, est.soc := [120000000000000], pkb.desc := packDesc, est.learnPc := 25000, est.learnUs := 1 }),
      by decide⟩,
   ⟨(S .armed fun d => { d with est.learning := true, est.learnPhase := 4, est.learnRested := true, est.restSoc := 150000000000000, est.learnTopSoc := 1000000000000000, est.learnPc := 1530000000000000, pkb.desc := packDesc }),
      500, by decide⟩,
   ⟨(S .armed fun d => { d with est.learning := true, est.learnPhase := 4 }), by decide⟩,
   ⟨(S .armed), by decide⟩⟩

/-- States that meet the hypotheses of `PackInsertion`, clause by clause. -/
theorem witness_PackInsertion :
    (∃ s : State, s.dev.pins.packPresN = true ∧ s.dev.chp.mode ≠ .dark)
    ∧ (∃ s : State, s.dev.pins.packPresN = false)
    ∧ (∃ (_desc : List Byte) (_mv : Nat) (s : State), s.dev.pkb.bay = .debouncing ∧ s.dev.pins.packPresN = false
      ∧ s.dev.chp.mode ≠ .dark)
    ∧ (∃ (_desc : List Byte) (_mv : Nat) (s : State),
      (s.dev.pkb.bay ≠ .debouncing ∨ s.dev.pins.packPresN = true ∨ s.dev.chp.mode = .dark))
    ∧ (∃ (_uv : List Nat) (s : State), s.dev.pkb.bay = .settling ∧ s.dev.chp.mode ≠ .dark
      ∧ faultOn s.dev 0 = false ∧ faultOn s.dev 1 = false)
    ∧ (∃ (_uv : List Nat) (s : State), s.dev.pkb.bay = .settling ∧ s.dev.chp.mode ≠ .dark
      ∧ (faultOn s.dev 0 = true ∨ faultOn s.dev 1 = true)) :=
  ⟨⟨(S .armed), by decide⟩,
   ⟨(S .armed fun d => { d with pins.packPresN := false }), by decide⟩,
   ⟨[], 11000, (S .armed fun d => { d with pins.packPresN := false, pkb.bay := .debouncing }), by decide⟩,
   ⟨[], 0, (S .dark fun d => { d with pins.packPresN := false, pkb.bay := .debouncing }), by decide⟩,
   ⟨[], (S .armed fun d => { d with pins.packPresN := false, pkb.bay := .settling }), by decide⟩,
   ⟨[], (S .armed fun d => { d with pins.packPresN := false, pkb.bay := .settling, pkb.faultAct := 2 }),
      by decide⟩⟩

/-- States that meet the hypotheses of `PackRemoval`, clause by clause. -/
theorem witness_PackRemoval :
    (∃ s : State, bayModes s.dev = true ∧ bit s.dev.pkb.ctl 0 = true ∧ s.dev.pkb.bay = .inService)
    ∧ (∃ s : State, bayModes s.dev = true ∧ bit s.dev.pkb.ctl 0 = true ∧ s.dev.pkb.bay = .window)
    ∧ (∃ s : State, s.dev.pkb.bay = .window ∧ bayModes s.dev = true)
    ∧ (∃ s : State, s.dev.pkb.bay = .window ∧ bayModes s.dev = false)
    ∧ (∃ s : State, s.dev.pkb.bay ≠ .window)
    ∧ (∃ s : State, s.dev.chp.mode ≠ .dark ∧ (bayModes s.dev = false ∨ s.dev.pkb.bay = .draining))
    ∧ (∃ s : State, (s.dev.pkb.bay = .inService ∨ s.dev.pkb.bay = .window) ∧ bayModes s.dev = true)
    ∧ (∃ s : State, s.dev.pkb.bay = .draining ∧ bayModes s.dev = true ∧ unstagedAll s.dev = 0)
    ∧ (∃ s : State, (unstagedAll s.dev ≠ 0 ∨ s.dev.pkb.bay ≠ .draining ∨ bayModes s.dev = false))
    ∧ (∃ s : State, s.dev.pkb.bay = .removable ∧ s.dev.pins.packPresN = false ∧ bayModes s.dev = true)
    ∧ (∃ s : State, (s.dev.pkb.bay ≠ .removable ∨ s.dev.pins.packPresN = true ∨ bayModes s.dev = false))
    ∧ (∃ s : State, ((s.dev.pkb.bay ≠ .inService ∧ s.dev.pkb.bay ≠ .window) ∨ bayModes s.dev = false))
    ∧ (∃ s : State, s.dev.pins.packPresN = false ∧ s.dev.pkb.switchClosed = true ∧ s.dev.chp.mode.admits = true)
    ∧ (∃ s : State, s.dev.pins.packPresN = false ∧ s.dev.pkb.switchClosed = true ∧ bayModes s.dev = true)
    ∧ (∃ s : State, (s.dev.pins.packPresN = true ∨ s.dev.pkb.switchClosed = false))
    ∧ (∃ s : State, s.dev.pins.packPresN = false ∧ s.dev.pkb.switchClosed = false ∧ s.dev.chp.mode ≠ .dark) :=
  ⟨⟨(S .armed fun d => { d with pins.packPresN := false, pkb.switchClosed := true, pkb.bay := .inService }),
      by decide⟩,
   ⟨(S .armed fun d => { d with pins.packPresN := false, pkb.switchClosed := true, pkb.bay := .window }),
      by decide⟩,
   ⟨(S .service fun d => { d with pins.packPresN := false, pkb.switchClosed := true, pkb.bay := .window }),
      by decide⟩,
   ⟨(S .curtain fun d => { d with pins.packPresN := false, pkb.switchClosed := true, pkb.bay := .window }),
      by decide⟩,
   ⟨(S .armed), by decide⟩,
   ⟨(S .curtain fun d => { d with pins.packPresN := false, pkb.switchClosed := true, pkb.bay := .inService }),
      by decide⟩,
   ⟨(S .boot fun d => { d with pins.packPresN := false, pkb.switchClosed := true, pkb.bay := .window }),
      by decide⟩,
   ⟨(S .armed fun d => { d with pins.packPresN := false, pkb.switchClosed := true, pkb.bay := .draining }),
      by decide⟩,
   ⟨(S .armed fun d => { d with pages := [(0, pageU)], exts := [ext1] }), by decide⟩,
   ⟨(S .armed fun d => { d with pins.packPresN := false, pkb.bay := .removable }), by decide⟩,
   ⟨(S .armed), by decide⟩,
   ⟨(S .armed), by decide⟩,
   ⟨(S .armed fun d => { d with pins.packPresN := false, pkb.switchClosed := true, pkb.bay := .inService }),
      by decide⟩,
   ⟨(S .derated fun d => { d with pins.packPresN := false, pkb.switchClosed := true, pkb.bay := .inService }),
      by decide⟩,
   ⟨(S .armed), by decide⟩,
   ⟨(S .armed fun d => { d with pins.packPresN := false }), by decide⟩⟩

/-- States that meet the hypotheses of `PackSamples`, clause by clause. -/
theorem witness_PackSamples :
    (∃ (r : PackReading) (s : State), s.dev.pins.packPresN = false ∧ s.dev.chp.mode.settled = true
      ∧ s.dev.pkb.bay = .inService ∧ s.dev.pkb.switchClosed = true ∧ s.dev.est.valid = true
      ∧ s.dev.pkb.descOk = true ∧ r.switchAgrees = true ∧ overLimit r s.dev = false ∧ overRange r s.dev = false)
    ∧ (∃ (_r : PackReading) (s : State), s.dev.pins.packPresN = true)
    ∧ (∃ s : State, (s.dev.pkb.chgPhase = .current ∨ s.dev.pkb.chgPhase = .voltage))
    ∧ (∃ s : State, s.dev.pkb.chgPhase ≠ .current ∧ s.dev.pkb.chgPhase ≠ .voltage) :=
  ⟨⟨{ cellsUv := [3700000], packMv := 3700, currentUa := 0, ntc1 := 250, ntc2 := 250 },
      (S .armed fun d => { d with pins.packPresN := false, pkb.switchClosed := true, est.valid := true, pkb.bay := .inService, pkb.descOk := true, pkb.desc := packDesc }),
      by decide⟩,
   ⟨{ cellsUv := [3700000], packMv := 3700, currentUa := 0, ntc1 := 250, ntc2 := 250 }, (S .armed), by decide⟩,
   ⟨(S .armed fun d => { d with pkb.chgPhase := .voltage }), by decide⟩,
   ⟨(S .armed), by decide⟩⟩

/-- States that meet the hypotheses of `AdminModes`, clause by clause. -/
theorem witness_AdminModes :
    (∃ (h : Nat) (s : State) (x : Desc) (d : Dev), begin h true 0x49 s.dev = (some x, d) ∧ h ≠ 0
      ∧ d.chp.mode.settled = true ∧ d.svc.entering = 0 ∧ unstagedAll d = 0 ∧ anyStaging d = false
      ∧ bit x.entry.flags 4 = false)
    ∧ (∃ (h : Nat) (s : State) (x : Desc) (d : Dev), begin h true 0x49 s.dev = (some x, d) ∧ h ≠ 0
      ∧ d.svc.entering = 0 ∧ (unstagedAll d ≠ 0 ∨ anyStaging d = true) ∧ bit x.entry.flags 4 = false)
    ∧ (∃ (h : Nat) (s : State) (x : Desc) (d : Dev), begin h true 0x49 s.dev = (some x, d) ∧ h ≠ 0
      ∧ d.chp.mode.settled = true ∧ d.svc.entering = 0 ∧ (unstagedAll d ≠ 0 ∨ anyStaging d = true)
      ∧ bit x.entry.flags 4 = true)
    ∧ (∃ (h : Nat) (s : State) (x : Desc) (d : Dev), begin h true 0x4A s.dev = (some x, d)
      ∧ d.chp.mode = .service ∧ bit x.entry.flags 4 = true)
    ∧ (∃ (h : Nat) (s : State) (x : Desc) (d : Dev), begin h true 0x4A s.dev = (some x, d)
      ∧ d.chp.mode = .service ∧ bit x.entry.flags 4 = false ∧ s.dev.drc.mapNext = s.dev.drc.mapNow
      ∧ s.dev.svc.xferDone = false ∧ xferDest s.dev = false)
    ∧ (∃ (h : Nat) (s : State) (x : Desc) (d : Dev), begin h true 0x43 s.dev = (some x, d)
      ∧ (d.chp.mode.settled = true ∨ d.chp.mode = .rehearsal))
    ∧ (∃ (h : Nat) (s : State) (x : Desc) (d : Dev), begin h true 0x44 s.dev = (some x, d)
      ∧ fnPresent d (field x.entry.p0 0 6) = true)
    ∧ (∃ (h : Nat) (s : State) (x : Desc) (d : Dev), begin h true 0x44 s.dev = (some x, d)
      ∧ fnPresent d (field x.entry.p0 0 6) = false) :=
  ⟨⟨1, (S .armed fun d => { d with descs := [D 73 0] }), (D 73 0),
      (S .armed fun d => { d with descs := [D 73 0] }).dev, by decide⟩,
   ⟨1, (S .armed fun d => { d with descs := [D 73 0], pages := [(0, pageU)], exts := [ext1] }), (D 73 0),
      (S .armed fun d => { d with descs := [D 73 0], pages := [(0, pageU)], exts := [ext1] }).dev, by decide⟩,
   ⟨1, (S .armed fun d => { d with descs := [D 73 0 fun x => { x with entry.flags := 16 }], pages := [(0, pageU)], exts := [ext1] }),
      (D 73 0 fun x => { x with entry.flags := 16 }),
      (S .armed fun d => { d with descs := [D 73 0 fun x => { x with entry.flags := 16 }], pages := [(0, pageU)], exts := [ext1] }).dev,
      by decide⟩,
   ⟨1, (S .service fun d => { d with descs := [D 74 0 fun x => { x with entry.flags := 16 }] }),
      (D 74 0 fun x => { x with entry.flags := 16 }),
      (S .service fun d => { d with descs := [D 74 0 fun x => { x with entry.flags := 16 }] }).dev, by decide⟩,
   ⟨1, (S .service fun d => { d with descs := [D 74 0] }), (D 74 0),
      (S .service fun d => { d with descs := [D 74 0] }).dev, by decide⟩,
   ⟨1, (S .armed fun d => { d with descs := [D 67 0] }), (D 67 0),
      (S .armed fun d => { d with descs := [D 67 0] }).dev, by decide⟩,
   ⟨1, (S .armed fun d => { d with descs := [D 68 0 fun x => { x with entry.p0 := 63 }] }),
      (D 68 0 fun x => { x with entry.p0 := 63 }),
      (S .armed fun d => { d with descs := [D 68 0 fun x => { x with entry.p0 := 63 }] }).dev, by decide⟩,
   ⟨1, (S .armed fun d => { d with descs := [D 68 0] }), (D 68 0),
      (S .armed fun d => { d with descs := [D 68 0] }).dev, by decide⟩⟩

/-- States that meet the hypotheses of `ParameterSets`, clause by clause. -/
theorem witness_ParameterSets :
    (∃ (h : Nat) (bs : List Byte) (s : State) (x : Desc) (d : Dev), begin h true 0x45 s.dev = (some x, d)
      ∧ freeTag d ≠ none ∧ d.pkb.desc ≠ [] ∧ setGood d (bs.take 2048) = true
      ∧ bytesAt (bs.take 2048) 0x008 8 = packSerial d)
    ∧ (∃ (h : Nat) (data : HostData) (s : State) (x : Desc) (d : Dev), begin h true 0x45 s.dev = (some x, d)
      ∧ (data = .timeout ∨ data = .error) ∧ freeTag d ≠ none)
    ∧ (∃ (h : Nat) (_data : HostData) (s : State) (x : Desc) (d : Dev), begin h true 0x45 s.dev = (some x, d)
      ∧ freeTag d = none)
    ∧ (∃ (h : Nat) (s : State) (x : Desc) (d : Dev), begin h true 0x46 s.dev = (some x, d) ∧ d.spw.warn = false
      ∧ d.est.shadow.isSome = true ∧ d.est.learning = false ∧ d.est.pending = 0)
    ∧ (∃ (h : Nat) (s : State) (x : Desc) (d : Dev), begin h true 0x46 s.dev = (some x, d)
      ∧ (d.spw.warn = true ∨ d.est.shadow = none))
    ∧ (∃ (s : State) (bs : List Byte), tracking s.dev = true ∧ s.dev.est.pending ≠ 0
      ∧ s.dev.est.shadow = some bs)
    ∧ (∃ (h : Nat) (s : State) (x : Desc) (d : Dev), begin h true 0x47 s.dev = (some x, d) ∧ d.pkb.desc ≠ []) :=
  ⟨⟨1, withCrc paramBody, (S .armed fun d => { d with descs := [D 69 0], pkb.desc := packDesc }), (D 69 0),
      (S .armed fun d => { d with descs := [D 69 0], pkb.desc := packDesc }).dev, by decide, by decide,
      by decide, param_good, by decide⟩,
   ⟨1, .timeout, (S .armed fun d => { d with descs := [D 69 0] }), (D 69 0),
      (S .armed fun d => { d with descs := [D 69 0] }).dev, by decide⟩,
   ⟨1, .timeout, (S .armed fun d => { d with descs := [D 69 0], ept.tags := (List.range 32).map fun t => (t, { handle := 1, fn := 1, caddr := 0, len := 4 }) }),
      (D 69 0), (S .armed fun d => { d with descs := [D 69 0], ept.tags := (List.range 32).map fun t => (t, { handle := 1, fn := 1, caddr := 0, len := 4 }) }).dev,
      by decide⟩,
   ⟨1, (S .armed fun d => { d with descs := [D 70 0], est.shadow := some [] }), (D 70 0),
      (S .armed fun d => { d with descs := [D 70 0], est.shadow := some [] }).dev, by decide⟩,
   ⟨1, (S .armed fun d => { d with descs := [D 70 0] }), (D 70 0),
      (S .armed fun d => { d with descs := [D 70 0] }).dev, by decide⟩,
   ⟨(S .armed fun d => { d with pins.packPresN := false, pkb.switchClosed := true, est.valid := true, est.pending := 1, est.shadow := some [] }),
      [], by decide⟩,
   ⟨1, (S .armed fun d => { d with descs := [D 71 0], pkb.desc := packDesc }), (D 71 0),
      (S .armed fun d => { d with descs := [D 71 0], pkb.desc := packDesc }).dev, by decide⟩⟩

/-- States that meet the hypotheses of `PortArming`, clause by clause. -/
theorem witness_PortArming :
    (∃ (c : Nat) (w : W32) (s : State), portPresent s.dev c = true ∧ field w 0 16 = 0x7E1B)
    ∧ (∃ (c : Nat) (w : W32) (s : State), portPresent s.dev c = true ∧ field w 0 16 = 0x81E4
      ∧ (getCell s.dev c).arm = .half)
    ∧ (∃ (c : Nat) (w : W32) (s : State), portPresent s.dev c = true ∧ field w 0 16 ≠ 0x7E1B
      ∧ (field w 0 16 ≠ 0x81E4 ∨ (getCell s.dev c).arm ≠ .half))
    ∧ (∃ (c : Nat) (_w : W32) (s : State), portPresent s.dev c = false)
    ∧ (∃ (w : RegWrite) (c : Nat) (s : State), linkUp s.dev = true ∧ w.size = .whole ∧ w.reg = .flcCmd c
      ∧ portPresent s.dev c = true ∧ (getCell s.dev c).arm = .armed)
    ∧ (∃ (w : RegWrite) (c : Nat) (s : State), linkUp s.dev = true ∧ portPresent s.dev c = true
      ∧ (getCell s.dev c).arm ≠ .armed ∧ ((w.size = .whole ∧ w.reg = .flcCmd c) ∨ (w.size = .whole
      ∧ w.reg = .flcAddr c)
        ∨ (w.size = .lowerHalf ∧ w.reg = .flcAddr c)))
    ∧ (∃ (c : Nat) (s : State), portPresent s.dev c = true ∧ (getCell s.dev c).arm ≠ .armed)
    ∧ (∃ (c : Nat) (s : State), (getCell s.dev c).arm ≠ .armed) :=
  ⟨⟨7, 0xFFFF7E1B, (S .armed), by decide⟩,
   ⟨7, 0x81E4, (S .armed fun d => { d with cells := [(7, { arm := .half })] }), by decide⟩,
   ⟨7, 0x81E4, (S .armed fun d => { d with cells := [(7, { badKeys := 65535 })] }), by decide⟩,
   ⟨8, 0x7E1B, (S .armed), by decide⟩,
   ⟨{ reg := .flcCmd 7, size := .whole, value := 1 }, 7,
      (S .armed fun d => { d with ept.link := .l0, cells := [(7, { arm := .armed, cmd := 0 })] }), by decide⟩,
   ⟨{ reg := .flcAddr 7, size := .lowerHalf, value := 1 }, 7, (S .armed fun d => { d with ept.link := .l0 }),
      by decide⟩,
   ⟨7, (S .armed), by decide⟩,
   ⟨7, (S .armed), by decide⟩⟩

/-- States that meet the hypotheses of `PortCommands`, clause by clause. -/
theorem witness_PortCommands :
    (∃ (c : Nat) (s : State), portFree s.dev c 0x01 = true)
    ∧ (∃ (c : Nat) (s : State), portFree s.dev c 0x02 = true)
    ∧ (∃ (c : Nat) (s : State), portFree s.dev c 0x03 = true)
    ∧ (∃ (c : Nat) (s : State), portFree s.dev c 0x04 = true)
    ∧ (∃ (c : Nat) (s : State), portFree s.dev c 0x05 = true)
    ∧ (∃ (c : Nat) (s : State), portFree s.dev c 0x10 = true)
    ∧ (∃ (c : Nat) (s : State), portFree s.dev c 0x11 = true)
    ∧ (∃ (c : Nat) (s : State), portFree s.dev c 0x20 = true)
    ∧ (∃ (c : Nat) (s : State), portFree s.dev c 0x30 = true)
    ∧ (∃ (c : Nat) (s : State), portPresent s.dev c = true ∧ (getCell s.dev c).arm = .armed
      ∧ field (getCell s.dev c).cmd 0 8 = 0x06 ∧ (getCell s.dev c).port = .reading
      ∧ portWaits s.dev c 0x06 (getCell s.dev c).addr = false
      ∧ startResult s.dev c 0x06 (getCell s.dev c).addr = 0) :=
  ⟨⟨7, (S .service fun d => { d with cells := [(7, { arm := .armed, cmd := 0x01 })] }), by decide⟩,
   ⟨7, (S .service fun d => { d with cells := [(7, { arm := .armed, cmd := 0x02 })] }), by decide⟩,
   ⟨7, (S .service fun d => { d with cells := [(7, { arm := .armed, cmd := 0x03 })] }), by decide⟩,
   ⟨7, (S .service fun d => { d with cells := [(7, { arm := .armed, cmd := 0x04 })] }), by decide⟩,
   ⟨7, (S .service fun d => { d with cells := [(7, { arm := .armed, cmd := 0x05 })] }), by decide⟩,
   ⟨7, (S .service fun d => { d with cells := [(7, { arm := .armed, cmd := 0x10 })] }), by decide⟩,
   ⟨7, (S .service fun d => { d with cells := [(7, { arm := .armed, cmd := 0x11 })] }), by decide⟩,
   ⟨7, (S .service fun d => { d with cells := [(7, { arm := .armed, cmd := 0x20 })] }), by decide⟩,
   ⟨7, (S .service fun d => { d with cells := [(7, { arm := .armed, cmd := 0x30 })] }), by decide⟩,
   ⟨7, (S .service fun d => { d with cells := [(7, { arm := .armed, cmd := 6, port := .reading })] }),
      by decide⟩⟩

/-- States that meet the hypotheses of `PortOperations`, clause by clause. -/
theorem witness_PortOperations :
    (∃ (c _load : Nat) (_data : List Byte) (s : State), portPresent s.dev c = true
      ∧ (getCell s.dev c).port = .executing
      ∧ ((getCell s.dev c).op = 1 ∨ (getCell s.dev c).op = 2 ∨ (getCell s.dev c).op = 3)
      ∧ eraseOf s.dev c (aTarget (getCell s.dev c).addr) = none)
    ∧ (∃ (c _load : Nat) (_data : List Byte) (s : State), portPresent s.dev c = true
      ∧ (getCell s.dev c).port = .executing ∧ (getCell s.dev c).op = 0x10)
    ∧ (∃ (c : Nat) (s : State), portPresent s.dev c = true ∧ (getCell s.dev c).port = .executing
      ∧ (getCell s.dev c).op = 0x10)
    ∧ (∃ (c : Nat) (s : State), portPresent s.dev c = true ∧ (getCell s.dev c).port = .executing
      ∧ (getCell s.dev c).op = 0x20)
    ∧ (∃ (c _load : Nat) (_data : List Byte) (s : State), portPresent s.dev c = true
      ∧ (getCell s.dev c).port = .executing ∧ (getCell s.dev c).op = 0x30
      ∧ eraseOf s.dev c (aTarget (getCell s.dev c).addr) = none)
    ∧ (∃ (c : Nat) (_o : DieOutcome) (s : State), (portPresent s.dev c = false
        ∨ ((getCell s.dev c).port ≠ .executing ∧ (getCell s.dev c).port ≠ .queued)))
    ∧ (∃ (c _load : Nat) (_data : List Byte) (n : W64) (s : State), portPresent s.dev c = true
      ∧ (getCell s.dev c).port = .executing ∧ ((getCell s.dev c).op = 4 ∨ (getCell s.dev c).op = 5)
      ∧ (getCell s.dev c).index = 0 ∧ (getCell s.dev c).left = 0 ∧ 1 < aLen (getCell s.dev c).addr
      ∧ creadNext (getCell s.dev c).op (getCell s.dev c).addr = some n
      ∧ eraseOf s.dev c (aTarget (getCell s.dev c).addr) = none)
    ∧ (∃ (c : Nat) (s : State), portPresent s.dev c = true ∧ (getCell s.dev c).arm = .armed
      ∧ (getCell s.dev c).port = .reading ∧ (getCell s.dev c).left ≠ 0) :=
  ⟨⟨7, 0, [], (S .service fun d => { d with cells := [(7, { port := .executing, op := 3 })] }), by decide⟩,
   ⟨7, 0, [], (S .service fun d => { d with cells := [(7, { port := .executing, op := 0x10 })] }), by decide⟩,
   ⟨7, (S .service fun d => { d with cells := [(7, { port := .executing, op := 0x10 })] }), by decide⟩,
   ⟨7, (S .service fun d => { d with cells := [(7, { port := .executing, op := 0x20 })] }), by decide⟩,
   ⟨7, 0, [1, 2, 3], (S .service fun d => { d with cells := [(7, { port := .executing, op := 0x30 })] }),
      by decide⟩,
   ⟨7, .programFail, (S .armed), by decide⟩,
   ⟨7, 0, [], 0x0002000000010000,
      (S .service fun d => { d with cells := [(7, { port := .executing, op := 4, addr := 0x0002000000000000 })] }),
      by decide⟩,
   ⟨7, (S .service fun d => { d with cells := [(7, { arm := .armed, port := .reading, left := 1 })] }),
      by decide⟩⟩

/-- States that meet the hypotheses of `RomService`, clause by clause. -/
theorem witness_RomService :
    (∃ (h : Nat) (s : State) (x : Desc) (d : Dev), romBegin h 0x01 s.dev = (some x, d))
    ∧ (∃ (h : Nat) (s : State) (x : Desc) (d : Dev), romBegin h 0x02 s.dev = (some x, d))
    ∧ (∃ (h : Nat) (s : State) (x : Desc) (d : Dev), romBegin h 0x03 s.dev = (some x, d))
    ∧ (∃ (h : Nat) (s : State) (x : Desc) (d : Dev), romBegin h 0x04 s.dev = (some x, d))
    ∧ (∃ (h : Nat) (s : State) (x : Desc) (d : Dev), romBegin h 0x05 s.dev = (some x, d))
    ∧ (∃ (h : Nat) (s : State) (x : Desc) (d : Dev), romBegin h 0x06 s.dev = (some x, d))
    ∧ (∃ (h : Nat) (s : State) (x : Desc) (d : Dev), romBegin h 0x07 s.dev = (some x, d))
    ∧ (∃ (h : Nat) (bs : List Byte) (s : State) (x : Desc) (d : Dev) (r : Rec) (p : Place),
      romBegin h 0x08 s.dev = (some x, d) ∧ freeTag d ≠ none ∧ locate d (x.entry.p1 % 8) (bs.take 32) = some (r,
      p) ∧ (recHead d r).length + r.bytes ≤ x.entry.hlen ∧ x.entry.haddr % 4 = 0 ∧ (recHead d r).length ≤ 4096
      ∧ r.bytes ≤ 16777216)
    ∧ (∃ (h : Nat) (bs : List Byte) (s : State) (x : Desc) (d : Dev), romBegin h 0x08 s.dev = (some x, d)
      ∧ freeTag d ≠ none ∧ locate d (x.entry.p1 % 8) (bs.take 32) = none)
    ∧ (∃ (h : Nat) (data : HostData) (s : State) (x : Desc) (d : Dev), romBegin h 0x08 s.dev = (some x, d)
      ∧ (data = .timeout ∨ data = .error) ∧ freeTag d ≠ none)
    ∧ (∃ (h : Nat) (_data : HostData) (s : State) (x : Desc) (d : Dev), romBegin h 0x08 s.dev = (some x, d)
      ∧ freeTag d = none)
    ∧ (∃ (h : Nat) (_bs : List Byte) (s : State) (x : Desc) (d : Dev), romBegin h 0x10 s.dev = (some x, d)
      ∧ freeTag d ≠ none ∧ x.entry.hlen ≠ 0 ∧ x.entry.hlen % 65536 = 0 ∧ x.entry.hlen ≤ 16777216
      ∧ x.entry.p1 + x.entry.hlen ≤ twinMax ∧ x.entry.haddr % 4 = 0 ∧ x.entry.p1 % 65536 = 0)
    ∧ (∃ (h : Nat) (data : HostData) (s : State) (x : Desc) (d : Dev), romBegin h 0x10 s.dev = (some x, d)
      ∧ (data = .timeout ∨ data = .error) ∧ freeTag d ≠ none ∧ x.entry.hlen ≠ 0 ∧ x.entry.hlen % 65536 = 0
      ∧ x.entry.hlen ≤ 16777216 ∧ x.entry.p1 + x.entry.hlen ≤ twinMax ∧ x.entry.haddr % 4 = 0
      ∧ x.entry.p1 % 65536 = 0)
    ∧ (∃ (h : Nat) (_data : HostData) (s : State) (x : Desc) (d : Dev), romBegin h 0x10 s.dev = (some x, d)
      ∧ freeTag d = none ∧ x.entry.hlen ≠ 0 ∧ x.entry.hlen % 65536 = 0 ∧ x.entry.hlen ≤ 16777216
      ∧ x.entry.p1 + x.entry.hlen ≤ twinMax ∧ x.entry.haddr % 4 = 0 ∧ x.entry.p1 % 65536 = 0)
    ∧ (∃ (h : Nat) (s : State) (x : Desc) (d : Dev), romBegin h 0x11 s.dev = (some x, d)) :=
  ⟨⟨1, (S .service fun d => { d with descs := [D 76 0 fun x => { x with entry.p0 := 1, entry.hlen := 131200 }] }),
      (D 76 0 fun x => { x with entry.p0 := 1, entry.hlen := 131200 }),
      (S .service fun d => { d with descs := [D 76 0 fun x => { x with entry.p0 := 1, entry.hlen := 131200 }] }).dev,
      by decide⟩,
   ⟨1, (S .service fun d => { d with descs := [D 76 0 fun x => { x with entry.p0 := 2, entry.hlen := 131200 }] }),
      (D 76 0 fun x => { x with entry.p0 := 2, entry.hlen := 131200 }),
      (S .service fun d => { d with descs := [D 76 0 fun x => { x with entry.p0 := 2, entry.hlen := 131200 }] }).dev,
      by decide⟩,
   ⟨1, (S .service fun d => { d with descs := [D 76 0 fun x => { x with entry.p0 := 3, entry.hlen := 131200 }], flash.books := [book7], flash.records := [{ rec7 with kind := .book }] }),
      (D 76 0 fun x => { x with entry.p0 := 3, entry.hlen := 131200 }),
      (S .service fun d => { d with descs := [D 76 0 fun x => { x with entry.p0 := 3, entry.hlen := 131200 }], flash.books := [book7], flash.records := [{ rec7 with kind := .book }] }).dev,
      by decide⟩,
   ⟨1, (S .service fun d => { d with descs := [D 76 0 fun x => { x with entry.p0 := 4, entry.hlen := 131200 }] }),
      (D 76 0 fun x => { x with entry.p0 := 4, entry.hlen := 131200 }),
      (S .service fun d => { d with descs := [D 76 0 fun x => { x with entry.p0 := 4, entry.hlen := 131200 }] }).dev,
      by decide⟩,
   ⟨1, (S .service fun d => { d with descs := [D 76 0 fun x => { x with entry.p0 := 5, entry.hlen := 131200 }] }),
      (D 76 0 fun x => { x with entry.p0 := 5, entry.hlen := 131200 }),
      (S .service fun d => { d with descs := [D 76 0 fun x => { x with entry.p0 := 5, entry.hlen := 131200 }] }).dev,
      by decide⟩,
   ⟨1, (S .service fun d => { d with descs := [D 76 0 fun x => { x with entry.p0 := 6, entry.hlen := 131200 }] }),
      (D 76 0 fun x => { x with entry.p0 := 6, entry.hlen := 131200 }),
      (S .service fun d => { d with descs := [D 76 0 fun x => { x with entry.p0 := 6, entry.hlen := 131200 }] }).dev,
      by decide⟩,
   ⟨1, (S .service fun d => { d with descs := [D 76 0 fun x => { x with entry.p0 := 7, entry.hlen := 131200, entry.p1 := 0x155 * 16 + 2 * 2 ^ 26 }] }),
      (D 76 0 fun x => { x with entry.p0 := 7, entry.hlen := 131200, entry.p1 := 0x155 * 16 + 2 * 2 ^ 26 }),
      (S .service fun d => { d with descs := [D 76 0 fun x => { x with entry.p0 := 7, entry.hlen := 131200, entry.p1 := 0x155 * 16 + 2 * 2 ^ 26 }] }).dev,
      by decide⟩,
   ⟨1, locator0, (S .service fun d => { d with descs := [D 76 0 fun x => { x with entry.p0 := 8, entry.hlen := 131072 }], flash.records := [{ rec7 with written := true }], flash.units := [] }),
      (D 76 0 fun x => { x with entry.p0 := 8, entry.hlen := 131072 }),
      (S .service fun d => { d with descs := [D 76 0 fun x => { x with entry.p0 := 8, entry.hlen := 131072 }], flash.records := [{ rec7 with written := true }], flash.units := [] }).dev,
      { rec7 with written := true }, (0, 0, 0, 0), by decide +kernel⟩,
   ⟨1, [], (S .service fun d => { d with descs := [D 76 0 fun x => { x with entry.p0 := 8 }] }),
      (D 76 0 fun x => { x with entry.p0 := 8 }),
      (S .service fun d => { d with descs := [D 76 0 fun x => { x with entry.p0 := 8 }] }).dev, by decide⟩,
   ⟨1, .timeout, (S .service fun d => { d with descs := [D 76 0 fun x => { x with entry.p0 := 8 }] }),
      (D 76 0 fun x => { x with entry.p0 := 8 }),
      (S .service fun d => { d with descs := [D 76 0 fun x => { x with entry.p0 := 8 }] }).dev, by decide⟩,
   ⟨1, .timeout, (S .service fun d => { d with descs := [D 76 0 fun x => { x with entry.p0 := 8 }], ept.tags := (List.range 32).map fun t => (t, { handle := 1, fn := 1, caddr := 0, len := 4 }) }),
      (D 76 0 fun x => { x with entry.p0 := 8 }),
      (S .service fun d => { d with descs := [D 76 0 fun x => { x with entry.p0 := 8 }], ept.tags := (List.range 32).map fun t => (t, { handle := 1, fn := 1, caddr := 0, len := 4 }) }).dev,
      by decide⟩,
   ⟨1, [], (S .service fun d => { d with descs := [D 76 0 fun x => { x with entry.p0 := 16, entry.hlen := 65536, entry.p1 := 134152192 }] }),
      (D 76 0 fun x => { x with entry.p0 := 16, entry.hlen := 65536, entry.p1 := 134152192 }),
      (S .service fun d => { d with descs := [D 76 0 fun x => { x with entry.p0 := 16, entry.hlen := 65536, entry.p1 := 134152192 }] }).dev,
      by decide⟩,
   ⟨1, .timeout, (S .service fun d => { d with descs := [D 76 0 fun x => { x with entry.p0 := 16, entry.hlen := 65536, entry.p1 := 134152192 }] }),
      (D 76 0 fun x => { x with entry.p0 := 16, entry.hlen := 65536, entry.p1 := 134152192 }),
      (S .service fun d => { d with descs := [D 76 0 fun x => { x with entry.p0 := 16, entry.hlen := 65536, entry.p1 := 134152192 }] }).dev,
      by decide⟩,
   ⟨1, .timeout, (S .service fun d => { d with descs := [D 76 0 fun x => { x with entry.p0 := 16, entry.hlen := 65536, entry.p1 := 134152192 }], ept.tags := (List.range 32).map fun t => (t, { handle := 1, fn := 1, caddr := 0, len := 4 }) }),
      (D 76 0 fun x => { x with entry.p0 := 16, entry.hlen := 65536, entry.p1 := 134152192 }),
      (S .service fun d => { d with descs := [D 76 0 fun x => { x with entry.p0 := 16, entry.hlen := 65536, entry.p1 := 134152192 }], ept.tags := (List.range 32).map fun t => (t, { handle := 1, fn := 1, caddr := 0, len := 4 }) }).dev,
      by decide⟩,
   ⟨1, (S .service fun d => { d with descs := [D 76 0 fun x => { x with entry.p0 := 17 }] }),
      (D 76 0 fun x => { x with entry.p0 := 17 }),
      (S .service fun d => { d with descs := [D 76 0 fun x => { x with entry.p0 := 17 }] }).dev, by decide⟩⟩

/-- States that meet the hypotheses of `ImageTransfer`, clause by clause. -/
theorem witness_ImageTransfer :
    (∃ (h : Nat) (s : State) (x : Desc) (d : Dev), begin h true 0x4B s.dev = (some x, d) ∧ xferRuns d = true
      ∧ (xferDest d = false ∨ d.hrk.xferHandle ≠ h))
    ∧ (∃ (h : Nat) (s : State) (x : Desc) (d : Dev), begin h true 0x4B s.dev = (some x, d) ∧ xferRuns d = false
      ∧ d.chp.mode = .service ∧ d.flash.xferIntent ≠ none)
    ∧ (∃ (h : Nat) (s : State) (x : Desc), findDesc s.dev h = some x ∧ x.fn = 0 ∧ x.entry.opcode = 0x4B
      ∧ x.phase = .fetched ∧ heldBack s.dev x = false ∧ checkDesc s.dev x = some stMode
      ∧ xferRuns s.dev = false)
    ∧ (∃ (h : Nat) (s : State) (x : Desc) (d : Dev), begin h true 0x4B s.dev = (some x, d)
      ∧ d.chp.mode = .service ∧ xferRuns d = false ∧ d.flash.xferIntent = none
      ∧ xferKey d (field x.entry.p0 32 6) = false)
    ∧ (∃ (h : Nat) (s : State) (x : Desc) (d : Dev), begin h true 0x4B s.dev = (some x, d)
      ∧ d.chp.mode = .service ∧ xferRuns d = false ∧ d.flash.xferIntent = none
      ∧ xferKey d (field x.entry.p0 32 6) = true ∧ blockBlank d (field x.entry.p0 24 3) = true
      ∧ (getPort d (portTo d (field x.entry.p0 0 9))).trained = true
      ∧ stripeErased d (field x.entry.p0 24 3) (openPlace d (field x.entry.p0 24 3)) = true)
    ∧ (∃ (q : FrameIn) (_f : XferOpenFrame) (s : State), heard s.dev q = true ∧ s.dev.chp.mode ≠ .service)
    ∧ (∃ (q : FrameIn) (f : XferOpenFrame) (s : State), heard s.dev q = true ∧ s.dev.chp.mode = .service
      ∧ xferRuns s.dev = false ∧ xferKey s.dev f.slot = true ∧ (getSlot s.dev f.slot).kcv = f.kcv)
    ∧ (∃ (q : FrameIn) (c : XferChunk) (s : State), heard s.dev q = true ∧ q.src = s.dev.hrk.xferPeer
      ∧ xferDest s.dev = true ∧ c.chunk ≠ s.dev.hrk.xferNext)
    ∧ (∃ (q : FrameIn) (c : XferChunk) (n : XferNonce) (s : State), heard s.dev q = true
      ∧ q.src = s.dev.hrk.xferPeer ∧ xferDest s.dev = true ∧ c.chunk = s.dev.hrk.xferNext ∧ c.verified = true
      ∧ c.content = [.nonce n])
    ∧ (∃ (q : FrameIn) (c : XferChunk) (s : State), heard s.dev q = true ∧ q.src = s.dev.hrk.xferPeer
      ∧ xferDest s.dev = true ∧ c.chunk = s.dev.hrk.xferNext ∧ c.verified = false ∧ 7 ≤ s.dev.hrk.xferFails)
    ∧ (∃ (q : FrameIn) (n : Nat) (s : State), heard s.dev q = true ∧ q.src = s.dev.hrk.xferPeer
      ∧ xferSends s.dev = true ∧ s.dev.hrk.xferState = 2 ∧ s.dev.hrk.xferAcked < n ∧ n ≤ s.dev.hrk.xferNext)
    ∧ (∃ (q : FrameIn) (n : Nat) (w : W32) (s : State), heard s.dev q = true ∧ q.src = s.dev.hrk.xferPeer
      ∧ xferDest s.dev = true ∧ n = s.dev.hrk.xferNext ∧ w = s.dev.hrk.xferCrc ^^^ 0xFFFFFFFF)
    ∧ (∃ (q : FrameIn) (n : Nat) (w : W32) (s : State), heard s.dev q = true ∧ q.src = s.dev.hrk.xferPeer
      ∧ xferDest s.dev = true ∧ (n ≠ s.dev.hrk.xferNext ∨ w ≠ s.dev.hrk.xferCrc ^^^ 0xFFFFFFFF))
    ∧ (∃ (q : FrameIn) (_st : Nat) (s : State), heard s.dev q = true ∧ q.src = s.dev.hrk.xferPeer) :=
  ⟨⟨1, (S .service fun d => { d with descs := [D 75 0], hrk.xferState := 3 }), (D 75 0),
      (S .service fun d => { d with descs := [D 75 0], hrk.xferState := 3 }).dev, by decide⟩,
   ⟨1, (S .service fun d => { d with descs := [D 75 0], flash.xferIntent := some 0 }), (D 75 0),
      (S .service fun d => { d with descs := [D 75 0], flash.xferIntent := some 0 }).dev, by decide⟩,
   ⟨1, (S .armed fun d => { d with descs := [D 0x4B 0 fun x => { x with phase := .fetched }] }),
      D 0x4B 0 fun x => { x with phase := .fetched }, by decide⟩,
   ⟨1, (S .service fun d => { d with descs := [D 75 0] }), (D 75 0),
      (S .service fun d => { d with descs := [D 75 0] }).dev, by decide⟩,
   ⟨1, (S .service fun d => { d with descs := [D 75 0 fun x => { x with entry.p0 := 0x500000001 }], hrk.ports := [(0, { trained := true }), (8, { trained := true })], cip.slots := [(5, { bound := true, loaded := true, kcv := 3 })] }),
      (D 75 0 fun x => { x with entry.p0 := 0x500000001 }),
      (S .service fun d => { d with descs := [D 75 0 fun x => { x with entry.p0 := 0x500000001 }], hrk.ports := [(0, { trained := true }), (8, { trained := true })], cip.slots := [(5, { bound := true, loaded := true, kcv := 3 })] }).dev,
      by decide⟩,
   ⟨{ port := 8, src := 3, dst := 0xFFFF, seq := 1, ackReq := false },
      { srcIdx := 1, srcSerial := 1, dstSerial := 1, srcBlock := 0, dstBlock := 0, slot := 5, kcv := 3, session := 0 },
      (S .armed fun d => { d with hrk.ports := [(0, { trained := true }), (8, { trained := true })] }),
      by decide⟩,
   ⟨{ port := 8, src := 3, dst := 0xFFFF, seq := 1, ackReq := false },
      { srcIdx := 1, srcSerial := 1, dstSerial := 1, srcBlock := 0, dstBlock := 0, slot := 5, kcv := 3, session := 0 },
      (S .service fun d => { d with hrk.ports := [(0, { trained := true }), (8, { trained := true })], cip.slots := [(5, { bound := true, loaded := true, kcv := 3 })] }),
      by decide⟩,
   ⟨{ port := 8, src := 3, dst := 0xFFFF, seq := 1, ackReq := false },
      { chunk := 1, verified := true, content := [] },
      (S .service fun d => { d with hrk.ports := [(0, { trained := true }), (8, { trained := true })], hrk.xferState := 2, hrk.xferPeer := 3 }),
      by decide⟩,
   ⟨{ port := 8, src := 3, dst := 0xFFFF, seq := 1, ackReq := false },
      { chunk := 0, verified := true, content := [.nonce { slot := 63, gen := 1, hwm := 9 }] },
      { slot := 63, gen := 1, hwm := 9 },
      (S .service fun d => { d with hrk.ports := [(0, { trained := true }), (8, { trained := true })], hrk.xferState := 2, hrk.xferPeer := 3 }),
      by decide⟩,
   ⟨{ port := 8, src := 3, dst := 0xFFFF, seq := 1, ackReq := false },
      { chunk := 0, verified := false, content := [] },
      (S .service fun d => { d with hrk.ports := [(0, { trained := true }), (8, { trained := true })], hrk.xferState := 2, hrk.xferPeer := 3, hrk.xferFails := 7 }),
      by decide⟩,
   ⟨{ port := 8, src := 3, dst := 0xFFFF, seq := 1, ackReq := false }, 1,
      (S .service fun d => { d with hrk.ports := [(0, { trained := true }), (8, { trained := true })], hrk.xferState := 2, hrk.xferPeer := 3, hrk.xferSource := true, hrk.xferNext := 1 }),
      by decide⟩,
   ⟨{ port := 8, src := 3, dst := 0xFFFF, seq := 1, ackReq := false }, 0, 0xFFFFFFFF,
      (S .service fun d => { d with hrk.ports := [(0, { trained := true }), (8, { trained := true })], hrk.xferState := 2, hrk.xferPeer := 3 }),
      by decide⟩,
   ⟨{ port := 8, src := 3, dst := 0xFFFF, seq := 1, ackReq := false }, 1, 0,
      (S .service fun d => { d with hrk.ports := [(0, { trained := true }), (8, { trained := true })], hrk.xferState := 2, hrk.xferPeer := 3 }),
      by decide⟩,
   ⟨{ port := 8, src := 3, dst := 0xFFFF, seq := 1, ackReq := false }, 3,
      (S .service fun d => { d with hrk.ports := [(0, { trained := true }), (8, { trained := true })], hrk.xferState := 2, hrk.xferPeer := 3 }),
      by decide⟩⟩

/-- States that meet the hypotheses of `PortsAndCues`, clause by clause. -/
theorem witness_PortsAndCues :
    (∃ (p : Nat) (s : State), harkaOn s.dev = true ∧ bit s.dev.hrk.ctl p = true
      ∧ (p ≠ 0 ∨ s.dev.board.roleMgr = false) ∧ (p = 0 ∨ s.dev.hrk.depth < 3))
    ∧ (∃ (p : Nat) (s : State), (harkaOn s.dev = false ∨ bit s.dev.hrk.ctl p = false
        ∨ (p = 0 ∧ s.dev.board.roleMgr = true) ∨ (p ≠ 0 ∧ 3 ≤ s.dev.hrk.depth)))
    ∧ (∃ (p : Nat) (s : State), (getPort s.dev p).trained = true)
    ∧ (∃ (p : Nat) (s : State), (getPort s.dev p).trained = false)
    ∧ (∃ s : State, harkaOn s.dev = true)
    ∧ (∃ s : State, harkaOn s.dev = false)
    ∧ (∃ (q : FrameIn) (_r : CueRespFrame) (s : State), harkaOn s.dev = true
      ∧ (getPort s.dev q.port).trained = true ∧ q.intact = true)
    ∧ (∃ (q : FrameIn) (c : CueFrame) (x : Nat × Nat × Nat × Nat) (s : State), harkaOn s.dev = true
      ∧ (getPort s.dev q.port).trained = true ∧ q.intact = true ∧ q.port = uplink s.dev
      ∧ s.dev.hrk.inWaiting = false ∧ s.dev.hrk.role = 2 ∧ s.dev.hrk.lead = false ∧ c.depth < 3
      ∧ c.epochId = s.dev.tmb.epochId ∧ exchange s.dev c = some x ∧ s.dev.tmb.delays = [])
    ∧ (∃ (q : FrameIn) (c : CueFrame) (s : State), harkaOn s.dev = true ∧ (getPort s.dev q.port).trained = true
      ∧ q.intact = true ∧ q.port = uplink s.dev ∧ s.dev.hrk.inWaiting = false ∧ s.dev.hrk.role = 2
      ∧ s.dev.hrk.lead = false ∧ c.depth < 3 ∧ c.epochId = s.dev.tmb.epochId ∧ exchange s.dev c = none) :=
  ⟨⟨8, (S .armed), by decide⟩,
   ⟨9, (S .armed), by decide⟩,
   ⟨8, (S .armed fun d => { d with hrk.ports := [(0, { trained := true }), (8, { trained := true })] }),
      by decide⟩,
   ⟨8, (S .armed), by decide⟩,
   ⟨(S .armed fun d => { d with hrk.ports := [(0, { trained := true }), (8, { trained := true })] }),
      by decide⟩,
   ⟨(S .armed fun d => { d with tmb.powered := false }), by decide⟩,
   ⟨{ port := 8, src := 3, dst := 0xFFFF, seq := 1, ackReq := false },
      { seq := 1, followsTakeover := false, gmIdx := 0 },
      (S .armed fun d => { d with hrk.ports := [(0, { trained := true }), (8, { trained := true })] }),
      by decide⟩,
   ⟨{ port := 0, src := 3, dst := 0xFFFF, seq := 1, ackReq := false },
      { t1 := 1, t4 := 4, u := 1, f := 0, seq := 1, depth := 2, takeover := false, deposed := false, gmIdx := 0, epochId := 0 },
      (1, 2, 3, 4), (S .armed fun d => { d with hrk.ports := [(0, { trained := true }), (8, { trained := true })], hrk.role := 2, hrk.lead := false, tmb.prevCue := some (0, 1, 2, 3) }),
      by decide⟩,
   ⟨{ port := 0, src := 3, dst := 0xFFFF, seq := 1, ackReq := false },
      { t1 := 1, t4 := 0, u := 1, f := 0, seq := 1, depth := 2, takeover := false, deposed := false, gmIdx := 0, epochId := 0 },
      (S .armed fun d => { d with hrk.ports := [(0, { trained := true }), (8, { trained := true })], hrk.role := 2, hrk.lead := false }),
      by decide⟩⟩

/-- States that meet the hypotheses of `JoinTakeoverAndStandby`, clause by clause. -/
theorem witness_JoinTakeoverAndStandby :
    (∃ (q : FrameIn) (i res dep : Nat) (f : JoinFrame) (s : State), carried s.dev q = true
      ∧ (getPort s.dev q.port).dir ≠ 2 ∧ actsLead s.dev = true ∧ s.dev.hrk.seenSeqs.contains (q.port,
      0x10000 + f.serial, q.seq) = false ∧ decideJoin s.dev f dep = (res, some i))
    ∧ (∃ (q : FrameIn) (f : AssignFrame) (s : State), heard s.dev q = true ∧ s.dev.hrk.joining = true
      ∧ f.result < 2)
    ∧ (∃ (q : FrameIn) (f : AssignFrame) (s : State), heard s.dev q = true ∧ s.dev.hrk.joining = true
      ∧ 2 ≤ f.result)
    ∧ (∃ s : State, harkaOn s.dev = true ∧ bit s.dev.hrk.ctl 10 = true ∧ s.dev.hrk.role = 2
      ∧ s.dev.hrk.index = 1 ∧ s.dev.hrk.depth = 1 ∧ s.dev.hrk.lead = false ∧ s.dev.flash.epoch.isSome = true
      ∧ takeoverMode s.dev.chp.mode = true ∧ powerEvent s.dev.hrk.upMode = false)
    ∧ (∃ s : State, (harkaOn s.dev = false ∨ bit s.dev.hrk.ctl 10 = false ∨ s.dev.hrk.role ≠ 2
        ∨ s.dev.hrk.index ≠ 1 ∨ s.dev.hrk.depth ≠ 1 ∨ s.dev.hrk.lead = true ∨ s.dev.flash.epoch = none
        ∨ takeoverMode s.dev.chp.mode = false ∨ powerEvent s.dev.hrk.upMode = true))
    ∧ (∃ s : State, harkaOn s.dev = true ∧ s.dev.hrk.role = 1 ∧ actsLead s.dev = true
      ∧ s.dev.hrk.deposed = false ∧ (getNode s.dev 1).present = true ∧ (getNode s.dev 1).takeoverEn = true
      ∧ powerEvent (getNode s.dev 1).status.mode = false)
    ∧ (∃ s : State, (harkaOn s.dev = false ∨ s.dev.hrk.role ≠ 1 ∨ actsLead s.dev = false
        ∨ s.dev.hrk.deposed = true ∨ (getNode s.dev 1).present = false
        ∨ (getNode s.dev 1).takeoverEn = false ∨ powerEvent (getNode s.dev 1).status.mode = true))
    ∧ (∃ s : State, s.dev.hrk.deposed = true)
    ∧ (∃ s : State, s.dev.hrk.deposed = false)
    ∧ (∃ s : State, harkaOn s.dev = true ∧ s.dev.hrk.role = 2 ∧ s.dev.hrk.depth = 1 ∧ s.dev.hrk.index ≠ 1
      ∧ 1 ≤ s.dev.hrk.standbyPort ∧ s.dev.hrk.standbyPort ≤ 8 ∧ s.dev.hrk.onStandby = false
      ∧ s.dev.hrk.sawTakeover = true ∧ (getPort s.dev s.dev.hrk.standbyPort).trained = true
      ∧ s.dev.hrk.inWaiting = false)
    ∧ (∃ s : State, (harkaOn s.dev = false ∨ s.dev.hrk.role ≠ 2 ∨ s.dev.hrk.depth ≠ 1 ∨ s.dev.hrk.index = 1
        ∨ s.dev.hrk.standbyPort = 0 ∨ 8 < s.dev.hrk.standbyPort ∨ s.dev.hrk.onStandby = true
        ∨ s.dev.hrk.sawTakeover = false ∨ (getPort s.dev s.dev.hrk.standbyPort).trained = false)) :=
  ⟨⟨{ port := 8, src := 0xFFFF, dst := 0xFFFF, seq := 1, ackReq := false }, 2, 1, 3,
      { serial := 9, storedIdx := 0, populated := 1, takeoverEn := false, epochId := 0 },
      (S .armed fun d => { d with hrk.ports := [(0, { trained := true }), (8, { trained := true })], hrk.role := 1 }),
      by decide +kernel⟩,
   ⟨{ port := 0, src := 3, dst := 0xFFFE, seq := 1, ackReq := false },
      { index := 2, depth := 1, result := 1, gmIdx := 0 },
      (S .armed fun d => { d with hrk.ports := [(0, { trained := true }), (8, { trained := true })], hrk.joining := true }),
      by decide⟩,
   ⟨{ port := 0, src := 3, dst := 0xFFFE, seq := 1, ackReq := false },
      { index := 2, depth := 1, result := 2, gmIdx := 0 },
      (S .armed fun d => { d with hrk.ports := [(0, { trained := true }), (8, { trained := true })], hrk.joining := true }),
      by decide⟩,
   ⟨(S .armed fun d => { d with hrk.ports := [(0, { trained := true }), (8, { trained := true })], hrk.ctl := 0x400, hrk.role := 2, hrk.index := 1, hrk.depth := 1, hrk.lead := false, flash.epoch := some (0, 0) }),
      by decide⟩,
   ⟨(S .armed), by decide⟩,
   ⟨(S .armed fun d => { d with hrk.ports := [(0, { trained := true }), (8, { trained := true })], hrk.role := 1, hrk.nodes := [(1, { present := true, takeoverEn := true })] }),
      by decide⟩,
   ⟨(S .armed), by decide⟩,
   ⟨(S .armed fun d => { d with hrk.deposed := true }), by decide⟩,
   ⟨(S .armed), by decide⟩,
   ⟨(S .armed fun d => { d with hrk.ports := [(0, { trained := true }), (8, { trained := true })], hrk.role := 2, hrk.depth := 1, hrk.index := 2, hrk.ctl := 0x8100, hrk.sawTakeover := true, hrk.lead := false }),
      by decide⟩,
   ⟨(S .armed), by decide⟩⟩

/-- States that meet the hypotheses of `StatusDirectoryAndAcks`, clause by clause. -/
theorem witness_StatusDirectoryAndAcks :
    (∃ (q : FrameIn) (f : StatusFrame) (s : State), heard s.dev q = true ∧ actsLead s.dev = true
      ∧ f.hidx ≠ s.dev.hrk.index ∧ (f.hidx ≠ 1 ∨ s.dev.hrk.dismissed = false))
    ∧ (∃ (q : FrameIn) (f : StatusFrame) (s : State), heard s.dev q = true ∧ actsLead s.dev = false
      ∧ f.hidx = leadIndex s.dev)
    ∧ (∃ (q : FrameIn) (_f : StatusFrame) (s : State), carried s.dev q = true ∧ (getPort s.dev q.port).dir ≠ 2
      ∧ q.dst ≠ 0xFFFF ∧ q.dst ≠ 0xFFFE ∧ q.dst ≠ ownIndex s.dev)
    ∧ (∃ (q : FrameIn) (_f : StatusFrame) (s : State), carried s.dev q = true ∧ (getPort s.dev q.port).dir = 2)
    ∧ (∃ (q : FrameIn) (_f : StatusFrame) (s : State), harkaOn s.dev = true
      ∧ (getPort s.dev q.port).trained = true ∧ q.intact = false)
    ∧ (∃ s : State, subordinate s.dev = true ∧ harkaOn s.dev = true
      ∧ (getPort s.dev (portTo s.dev (leadIndex s.dev))).trained = true)
    ∧ (∃ (i : Nat) (s : State), actsLead s.dev = true ∧ (getNode s.dev i).present = true ∧ i ≠ s.dev.hrk.index)
    ∧ (∃ (i : Nat) (s : State),
      (actsLead s.dev = false ∨ (getNode s.dev i).present = false ∨ i = s.dev.hrk.index))
    ∧ (∃ s : State, s.dev.hrk.role = 0 ∧ s.dev.hrk.inWaiting = false)
    ∧ (∃ (_i : Nat) (s : State), (actsLead s.dev && s.dev.hrk.rehEn) = false)
    ∧ (∃ (q : FrameIn) (_e : DirEntry) (_more : List DirEntry) (s : State), heard s.dev q = true
      ∧ (actsLead s.dev = true ∨ s.dev.hrk.index = 1))
    ∧ (∃ (q : FrameIn) (_f : SummaryFrame) (_kind : Nat) (s : State), heard s.dev q = true
      ∧ actsLead s.dev = true ∧ s.dev.enc.merged = false ∧ s.dev.chp.mode.settled = false
      ∧ s.dev.chp.mode.admits = false)
    ∧ (∃ (q : FrameIn) (_n : Nat) (_ks : List OrderKey) (s : State), heard s.dev q = true
      ∧ actsLead s.dev = true ∧ s.dev.enc.merged = false)
    ∧ (∃ (q : FrameIn) (_n : Nat) (_ps : List OrderPlace) (s : State), heard s.dev q = true
      ∧ rcnOpen s.dev = true ∧ subordinate s.dev = true)
    ∧ (∃ (q : FrameIn) (_n : Nat) (s : State), heard s.dev q = true ∧ rcnOpen s.dev = true
      ∧ subordinate s.dev = true ∧ (runEntries s.dev).length ≤ s.dev.enc.placed
      ∧ Tab.get 0 s.dev.enc.rcnHt 2 ≠ 0)
    ∧ (∃ (h : FrameIn) (q _v p n : Nat) (f : Frame) (s : State), carried s.dev h = true ∧ forUs s.dev h = true
      ∧ s.dev.hrk.unacked.find? (fun e => e.2.2.seq = q) = some (p, n, f) ∧ f.type ≠ 0x10 ∧ f.type ≠ 0x13)
    ∧ (∃ (h : FrameIn) (q _v : Nat) (s : State), carried s.dev h = true ∧ forUs s.dev h = true
      ∧ s.dev.hrk.unacked.find? (fun e => e.2.2.seq = q) = none)
    ∧ (∃ (p q : Nat) (s : State), s.dev.hrk.unacked.find? (fun e => e.1 = p && e.2.2.seq = q) = none)
    ∧ (∃ (p q n : Nat) (f : Frame) (s : State),
      s.dev.hrk.unacked.find? (fun e => e.1 = p && e.2.2.seq = q) = some (p, n, f) ∧ n < 8)
    ∧ (∃ (p q n : Nat) (f : Frame) (s : State),
      s.dev.hrk.unacked.find? (fun e => e.1 = p && e.2.2.seq = q) = some (p, n, f) ∧ 8 ≤ n ∧ f.type ≠ 0x10
      ∧ f.type ≠ 0x13)
    ∧ (∃ (p q n : Nat) (f : Frame) (s : State),
      s.dev.hrk.unacked.find? (fun e => e.1 = p && e.2.2.seq = q) = some (p, n, f) ∧ 8 ≤ n ∧ f.type = 0x10
      ∧ xferDest s.dev = true) :=
  ⟨⟨{ port := 8, src := 3, dst := 0xFFFF, seq := 1, ackReq := false }, { hidx := 511 },
      (S .armed fun d => { d with hrk.ports := [(0, { trained := true }), (8, { trained := true })], hrk.role := 1 }),
      by decide⟩,
   ⟨{ port := 0, src := 3, dst := 0xFFFF, seq := 1, ackReq := false }, { hidx := 0 },
      (S .armed fun d => { d with hrk.ports := [(0, { trained := true }), (8, { trained := true })], hrk.role := 2, hrk.lead := false, hrk.index := 2 }),
      by decide⟩,
   ⟨{ port := 8, src := 3, dst := 0, seq := 1, ackReq := false }, { hidx := 5 },
      (S .armed fun d => { d with hrk.ports := [(0, { trained := true }), (8, { trained := true })], hrk.role := 2, hrk.lead := false, hrk.index := 2 }),
      by decide⟩,
   ⟨{ port := 0, src := 3, dst := 0xFFFF, seq := 1, ackReq := false }, { hidx := 5 },
      (S .armed fun d => { d with hrk.ports := [(0, { trained := true, dir := 2 })] }), by decide⟩,
   ⟨{ port := 8, src := 3, dst := 0xFFFF, seq := 1, ackReq := false, intact := false }, { hidx := 5 },
      (S .armed fun d => { d with hrk.ports := [(0, { trained := true }), (8, { trained := true })] }),
      by decide⟩,
   ⟨(S .armed fun d => { d with hrk.ports := [(0, { trained := true }), (8, { trained := true })], hrk.role := 2, hrk.lead := false, hrk.index := 2 }),
      by decide⟩,
   ⟨511, (S .armed fun d => { d with hrk.ports := [(0, { trained := true }), (8, { trained := true })], hrk.role := 1, hrk.nodes := [(511, { present := true })] }),
      by decide⟩,
   ⟨511, (S .armed), by decide⟩,
   ⟨(S .armed), by decide⟩,
   ⟨511, (S .armed fun d => { d with hrk.ports := [(0, { trained := true }), (8, { trained := true })], hrk.role := 2, hrk.lead := false, hrk.index := 2 }),
      by decide⟩,
   ⟨{ port := 8, src := 3, dst := 0xFFFF, seq := 1, ackReq := false }, ⟨9, 511, 1, 1, 1, 0, 0⟩, [],
      (S .armed fun d => { d with hrk.ports := [(0, { trained := true }), (8, { trained := true })], hrk.role := 1 }),
      by decide⟩,
   ⟨{ port := 8, src := 3, dst := 0xFFFF, seq := 1, ackReq := false }, { entries := 1 }, 0,
      (S .reconcile fun d => { d with hrk.ports := [(0, { trained := true }), (8, { trained := true })], hrk.role := 1 }),
      by decide⟩,
   ⟨{ port := 8, src := 3, dst := 0xFFFF, seq := 1, ackReq := false }, 0,
      [{ ht := 1, seq := 0, hidx := 3, fn := 1, cls := 0, epochId := 0, localIdx := 0 }],
      (S .reconcile fun d => { d with hrk.ports := [(0, { trained := true }), (8, { trained := true })], hrk.role := 1 }),
      by decide⟩,
   ⟨{ port := 0, src := 3, dst := 0xFFFF, seq := 1, ackReq := false }, 0, [],
      (S .reconcile fun d => { d with hrk.ports := [(0, { trained := true }), (8, { trained := true })], hrk.role := 2, hrk.lead := false, hrk.index := 2 }),
      by decide⟩,
   ⟨{ port := 0, src := 3, dst := 0xFFFF, seq := 1, ackReq := false }, 0,
      (S .reconcile fun d => { d with hrk.ports := [(0, { trained := true }), (8, { trained := true })], hrk.role := 2, hrk.lead := false, hrk.index := 2, enc.rcnHt := [(2, 1)] }),
      by decide⟩,
   ⟨{ port := 8, src := 3, dst := 0xFFFF, seq := 1, ackReq := false }, 9, 0, 8, 0,
      { type := 4, src := 2, dst := 1, seq := 9, ackReq := true, retry := false, payload := [] },
      (S .armed fun d => { d with hrk.ports := [(0, { trained := true }), (8, { trained := true })], hrk.unacked := [(8, 0, { type := 4, src := 2, dst := 1, seq := 9, ackReq := true, retry := false, payload := [] })] }),
      by decide⟩,
   ⟨{ port := 8, src := 3, dst := 0xFFFF, seq := 1, ackReq := false }, 9, 0,
      (S .armed fun d => { d with hrk.ports := [(0, { trained := true }), (8, { trained := true })] }),
      by decide⟩,
   ⟨8, 9, (S .armed), by decide⟩,
   ⟨8, 9, 7, { type := 4, src := 2, dst := 1, seq := 9, ackReq := true, retry := false, payload := [] },
      (S .armed fun d => { d with hrk.ports := [(0, { trained := true }), (8, { trained := true })], hrk.unacked := [(8, 7, { type := 4, src := 2, dst := 1, seq := 9, ackReq := true, retry := false, payload := [] })] }),
      by decide⟩,
   ⟨8, 9, 8, { type := 4, src := 2, dst := 1, seq := 9, ackReq := true, retry := false, payload := [] },
      (S .armed fun d => { d with hrk.ports := [(0, { trained := true }), (8, { trained := true })], hrk.unacked := [(8, 8, { type := 4, src := 2, dst := 1, seq := 9, ackReq := true, retry := false, payload := [] })] }),
      by decide⟩,
   ⟨8, 9, 8, { type := 0x10, src := 2, dst := 1, seq := 9, ackReq := true, retry := false, payload := [] },
      (S .armed fun d => { d with hrk.ports := [(0, { trained := true }), (8, { trained := true })], hrk.xferState := 2, hrk.unacked := [(8, 8, { type := 0x10, src := 2, dst := 1, seq := 9, ackReq := true, retry := false, payload := [] })] }),
      by decide⟩⟩

/-- States that meet the hypotheses of `RegistersAndObservation`, clause by clause. -/
theorem witness_RegistersAndObservation :
    (∃ (_w : RegWrite) (s : State), linkUp s.dev = false ∧ s.dev.ept.tlpsCut = false)
    ∧ (∃ (w : RegWrite) (s : State), linkUp s.dev = true ∧ w.size = .wrong)
    ∧ (∃ (w : RegWrite) (s : State), linkUp s.dev = true ∧ w.size ≠ .wrong ∧ regPresent s.dev w.reg = false)
    ∧ (∃ (w : RegWrite) (s : State), linkUp s.dev = true ∧ w.size = .whole ∧ w.reg = .spwSealHold)
    ∧ (∃ (w : RegWrite) (s : State), linkUp s.dev = true ∧ w.size = .whole ∧ w.reg = .admEFixed)
    ∧ (∃ (w : RegWrite) (s : State), linkUp s.dev = true ∧ w.size = .lowerHalf ∧ w.reg = .chpEncFirst)
    ∧ (∃ (w : RegWrite) (lo : W32) (rest : List (Reg × W32)) (s : State), linkUp s.dev = true
      ∧ w.size = .upperHalf ∧ w.reg = .chpEncFirst ∧ s.dev.halfLatch = (.chpEncFirst, lo) :: rest)
    ∧ (∃ (w : RegWrite) (n : Nat) (s : State), linkUp s.dev = true ∧ w.size = .whole ∧ w.reg = .mrgBase n
      ∧ n ≤ 4 ∧ (mrgRing s.dev n).en = true)
    ∧ (∃ (r : Reg64) (s : State), linkUp s.dev = true ∧ (∀ n, r ≠ .mrgState n))
    ∧ (∃ (r : Reg64) (hi : W32) (s : State), linkUp s.dev = true
      ∧ s.dev.readLatch.find? (fun e => e.1 = r) = some (r, hi))
    ∧ (∃ (f off n : Nat) (s : State), linkUp s.dev = true ∧ (f = 0 ∨ fnPresent s.dev f = true)
      ∧ (n ≠ 4 ∨ halfAt f off = none))
    ∧ (∃ (_r : HostRead) (s : State), linkUp s.dev = false)
    ∧ (∃ s : State, retentionOn s.dev = true)
    ∧ (∃ s : State, retentionOn s.dev = false)
    ∧ (∃ (_n : Nat) (s : State), s.dev.pins.vaux3 = true ∧ retentionOn s.dev = true)
    ∧ (∃ (a _n : Nat) (s : State), (a ≠ 0x5C ∨ s.dev.pins.vaux3 = false))
    ∧ (∃ s : State, s.dev.pins.vaux3 = true)
    ∧ (∃ s : State, s.dev.pins.vaux3 = true)
    ∧ (∃ s : State, s.dev.pins.vaux3 = true)
    ∧ (∃ (_v : Nat) (s : State), s.dev.pins.vaux3 = true)
    ∧ (∃ s : State, s.dev.pins.vaux3 = true)
    ∧ (∃ s : State, s.dev.pins.vaux3 = true)
    ∧ (∃ s : State, s.dev.pins.vaux3 = true)
    ∧ (∃ s : State, s.dev.pins.vaux3 = true)
    ∧ (∃ s : State, s.dev.pins.vaux3 = true)
    ∧ (∃ s : State, s.dev.pins.vaux3 = false) :=
  ⟨⟨{ reg := .errCtl, size := .whole, value := 1 }, (S .armed), by decide⟩,
   ⟨{ reg := .errCtl, size := .wrong, value := 1 }, (S .armed fun d => { d with ept.link := .l0 }), by decide⟩,
   ⟨{ reg := .admSealReserve 1, size := .whole, value := 1 }, (S .armed fun d => { d with ept.link := .l0 }),
      by decide⟩,
   ⟨{ reg := .spwSealHold, size := .whole, value := 0xFFFFFFFF }, (S .armed fun d => { d with ept.link := .l0 }),
      by decide⟩,
   ⟨{ reg := .admEFixed, size := .whole, value := 0 }, (S .armed fun d => { d with ept.link := .l0 }),
      by decide⟩,
   ⟨{ reg := .chpEncFirst, size := .lowerHalf, value := 1 }, (S .armed fun d => { d with ept.link := .l0 }),
      by decide⟩,
   ⟨{ reg := .chpEncFirst, size := .upperHalf, value := 1 }, 7, [],
      (S .armed fun d => { d with ept.link := .l0, halfLatch := [(.chpEncFirst, 7)] }), by decide⟩,
   ⟨{ reg := .mrgBase 4, size := .whole, value := 1 }, 4,
      (S .armed fun d => { d with ept.link := .l0, mrg.rings := [(4, { en := true })] }), by decide⟩,
   ⟨.curtainLost, (S .armed fun d => { d with ept.link := .l0 }), by decide, by simp⟩,
   ⟨.curtainLost, 7, (S .armed fun d => { d with ept.link := .l0, readLatch := [(.curtainLost, 7)] }),
      by decide⟩,
   ⟨0, 0x10, 2, (S .armed fun d => { d with ept.link := .l0 }), by decide⟩,
   ⟨.bytes 0 0 4, (S .armed), by decide⟩,
   ⟨(S .dark), by decide⟩,
   ⟨(S .dark fun d => { d with pins.vinMv := 7999 }), by decide⟩,
   ⟨255, (S .dark), by decide⟩,
   ⟨0x5D, 0, (S .armed), by decide⟩,
   ⟨(S .armed), by decide⟩,
   ⟨(S .armed), by decide⟩,
   ⟨(S .armed), by decide⟩,
   ⟨1, (S .armed), by decide⟩,
   ⟨(S .armed), by decide⟩,
   ⟨(S .armed), by decide⟩,
   ⟨(S .boot), by decide⟩,
   ⟨(S .armed), by decide⟩,
   ⟨(S .boot), by decide⟩,
   ⟨(S .boot fun d => { d with pins.vaux3 := false }), by decide⟩⟩

/-- Commands that leave the frames' units alone, in each frame at once. -/
theorem witness_frames : ∃ (c : Instr) (s t : State), exec c s = .next t ∧ touchesDram c = false
    ∧ writesPins c = false ∧ writesSpw c = false ∧ writesInt c = false ∧ writesEst c = false
    ∧ writesPkb c = false ∧ writesBoard c = false ∧ writesRom c = false ∧ writesEnc c = false
    ∧ writesSvc c = false :=
  ⟨.flip, S .armed, _, rfl, by decide⟩

/-- An endpoint reset answers, so the clause about the cells' ports is not empty. -/
theorem witness_endpointReset : ∃ t, exec (.endpointReset .perst) (S .armed) = .next t := ⟨_, rfl⟩

/-! ### Ill-formed commands -/

/-- One operand out of its range for each check of `Instr.wf`, each refused. -/
theorem wf_refuses : ([
    .failAssert 16001, .failRelease 16001, .warnAssert 16001, .warnRelease 16001, .mainSupplyGood 16001,
    .vin12BelowGood 16001, .chipFatalFault 75, .chipFatalFault 84, .stagingRecordStart 8,
    .targetDead 64 0 true, .targetDead 0 8 true, .windowShift 8, .logCleaning 8, .eraseComplete 64 0,
    .eraseComplete 0 8, .compactionCopy 8, .cellFailure 64 .codec, .cipherPipeFault 8 0, .cipherPipeFault 0 2,
    .crossSave 8 .noCell, .fence 8 .fabric, .dramUncorrectable (2 ^ 40) 0, .dramUncorrectable 0 6,
    .refreshDue 8 true, .mr4Poll 8 0, .retrainTimer 8 true, .zqTimer 8, .trainingStepEnd 8,
    .granuleReloaded 65536, .functionRestored 64, .blockRestored 8] : List Instr).all (fun i => !i.wf) = true := by
  decide

theorem wf_refuses_ports : ([
    .readSeg 64, .readSpare 64, .readRaw 64, .creadUnit 64, .creadTargets 64, .creadStop 64, .programSeg 64,
    .loadTlc 64, .eraseUnit 64, .readId 64, .flcKey 64 0, .next 64, .flashOperationDone 64 .programFail,
    .eraseSuspend ⟨64, 0⟩ 0 true, .eraseSuspend ⟨0, 8⟩ 0 true, .eraseResume ⟨64, 0⟩ ⟨0, true⟩,
    .eraseResume ⟨0, 8⟩ ⟨0, true⟩] : List Instr).all
      (fun i => !i.wf) = true := by decide

theorem wf_refuses_host : ([
    .sqDoorbell 64 0 0, .sqDoorbell 0 16 0, .cqDoorbell 64 0 0, .cqDoorbell 0 16 0,
    .ringEnWrite 64 .submission 0 0, .ringEnWrite 1 .submission 16 0, .fncCtlReset 64,
    .functionDisable 64 .d3hot, .functionEnable 64 .d3hot, .windowWrite 64 0 [] false, .windowRead 64 0 1,
    .windowRead 1 0 0, .windowRead 1 0 4097, .hostReadCompletion 768 .success [], .completionTimeout 768,
    .quarantineEnd 768, .l0pInterval 401, .coalesceTimer 64 0, .coalesceTimer 1 16, .vectorUnmask 64 0,
    .vectorUnmask 1 64, .indexRebuildDone 64 false, .bucketRespread 64 0, .cipherRequestDone 8,
    .keyVaultWritten 64, .smbusBlockRead 128 0, .smbusBlockRead 0 256] : List Instr).all (fun i => !i.wf)
      = true := by decide

/-- A frame's header fields, each out of its range once. -/
def badHeads : List FrameIn := [
  { port := 9, src := 0, dst := 0, seq := 0, ackReq := false },
  { port := 0, src := 65536, dst := 0, seq := 0, ackReq := false },
  { port := 0, src := 0, dst := 65536, seq := 0, ackReq := false },
  { port := 0, src := 0, dst := 0, seq := 2 ^ 32, ackReq := false }]

theorem wf_refuses_harka : badHeads.all (fun h => ([
    .cue ⟨h, 0, 0, 0, 0, 0, 0, false, false, 0, 0⟩, .cueResp h ⟨0, false, 0⟩, .join h ⟨0, 0, 0, false, 0⟩ 0,
    .assign h ⟨0, 0, 0, 0⟩, .status ⟨h, {}⟩, .dirUpdate h ⟨0, 0, 1, 0, 0, 0, 0⟩ [], .rehSlot ⟨h, 0⟩,
    .reconSummary h {} 0, .reconKeys h 0 [],
    .reconResult h 0 [], .reconDone ⟨h, 0⟩, .ack h ⟨0, 0⟩, .xferOpen h ⟨0, 0, 0, 0, 0, 0, 0, 0⟩,
    .xferData ⟨h, 0, false, [], []⟩, .xferAck ⟨h, 0⟩, .xferClose h 0 0, .xferAbort ⟨h, 0⟩] : List Instr).all (fun i => !i.wf))
    = true
    ∧ ([.harkaPortTrained 9, .harkaPortLost 9, .nodeAbsent 512, .rehSlotTimeout 512, .ackTimeout 9 0,
      .ackTimeout 0 (2 ^ 32)] : List Instr).all (fun i => !i.wf) = true := by decide

/-! ### Values of the spec -/

/-- A book and its record, which `BOOK` finds at age 0. -/
theorem witness_bookAt : ∃ k r, bookAt (S .service fun d => { d with
    flash.books := [book7], flash.records := [{ rec7 with kind := .book }] }).dev 0 0 = some (k, r) :=
  ⟨book7, { rec7 with kind := .book }, by decide⟩

/-- A command answers a next state that passes. -/
def answers (o : Host.Outcome State Fault Refusal) (p : State → Bool) : Bool :=
  match o with
  | .next t => p t
  | _ => false

/-- Chapter 1, worked example: four 64 GiB modules give 61.5 GiB each, and block 2 with cell 17 failed saves
at 19.6875 GB/s of 87.1875 GB/s. -/
theorem test_block_rate : let d : Dev := (S .armed fun d => { d with board.blocks := 4, board.moduleGib := 64, cells := [(17, { failed := true })] }).dev
    usable d = 61 * gib + gib / 2 ∧ rateB d 2 = 19687500 ∧ rateSum d = 87187500 := by decide

/-- Chapter 23, worked example: SPW_THRESH at reset decodes to 11.40 V, 11.00 V and 10.20 V. -/
theorem test_thresholds : ({} : Spw).goodMv = 11400 ∧ ({} : Spw).warnMv = 11000 ∧ ({} : Spw).failMv = 10200 := by
  decide

/-- Chapter 4, worked example: the cold LTO pack of an eight-block device, 522.547 GB of energy term. -/
def coldPack : Dev := (S .armed fun d => { d with
  board.blocks := 8, pins.packPresN := false, pkb.switchClosed := true, est.eCons := 1050400
  adm.eByteFj := 1570000, adm.rateRef := 180000, adm.eFixed := 110000
  adm.sealReserve := (List.range 8).map (fun b => (b, 15000)) }).dev

theorem test_budget : pCurtain coldPack = 282600 ∧ eEff coldPack = 1570000
    ∧ energyBytes coldPack (rateSum coldPack) / 10 ^ 6 = 522547 ∧ shareB coldPack 3 / 10 ^ 6 = 65318 := by
  decide

/-- Table 3.4: seven entries of three devices, with their groups and concurrency. -/
def order34 : List (Nat × OrderKey) := [
  (40, ⟨600, 8, 40, 2, 2, 0, 1⟩), (0, ⟨400, 902, 0, 3, 0, 0, 1⟩), (5, ⟨110, 44, 5, 1, 0, 0, 0⟩),
  (0, ⟨100, 901, 0, 3, 0, 0, 0⟩), (5, ⟨400, 45, 5, 1, 0, 0, 1⟩), (40, ⟨160, 7, 40, 2, 2, 0, 0⟩),
  (0, ⟨700, 903, 0, 3, 0, 0, 2⟩)]

theorem test_order : (placeSegment order34).map (fun e => (e.1.1, e.1.2.seq, e.2.group, e.2.conc))
    = [(0, 901, 0, true), (5, 44, 0, true), (40, 7, 0, true), (0, 902, 3, true), (5, 45, 3, true),
       (40, 8, 5, true), (0, 903, 5, true)] := by decide

/-- Table 17.6: at ×2 a debt of 6 falls to the limit of 4, and stays there at a refresh due in panic. -/
theorem test_refresh : answers (exec (.mr4Poll 2 200) (S .curtain fun d => { d with
      board.blocks := 4, blk := [(2, { dramOn := true, refDebt := 6 })] }))
    (fun t => (getBlk t.dev 2).refDebt = 4
      && answers (exec (.refreshDue 2 false) t) (fun u => (getBlk u.dev 2).refDebt = 4)) = true := by decide

/-- Chapter 16, worked example: marks of 4 in the books and the heads resume the counter at 0x10_0004. -/
theorem test_nonce : (getSlot (resumeNonce (S .encore fun d => { d with
      cip.slots := [(5, { bound := true, gen := 4, fn := 2 })]
      flash.records := [{ rec7 with written := true, slot := 5, gen := 4, inv := 4 }]
      flash.journals := [(0, { lines := [⟨1, 0, 1, [⟨7, (0, 0, 0, 4), 0⟩]⟩] }), (1, { lines := [⟨1, 0, 1, [⟨7, (0, 0, 0, 4), 0⟩]⟩] })] }).dev 5) 5).ctr
    = 0x100004 := by decide

/-- Chapter 9, worked example: the initialisation vector of a staged record. -/
theorem test_iv : leBytes 12 (recIv { rec7 with pfx := 0x9C4107E2, inv := 0x31A0F })
    = [0xE2, 0x07, 0x41, 0x9C, 0x0F, 0x1A, 0x03, 0, 0, 0, 0, 0] := by decide

/-- Chapter 15, worked example: of three entries of a tag the largest HT wins, the first of the two in the
table's order. -/
theorem test_lookup_order :
    let e := fun (caddr pages ht : Nat) => ({ ext1 with tag := 0x771400, fn := 2, caddr, pages, ht } : Extent)
    (newestMatch (sortBy Extent.key [e 0x10000000 8 100, e 0x2008000000 16 900, e 0x04000000 16 900])).map
      Extent.caddr = some 0x04000000 := by decide

/-- A block has no instruction words: the table gives no row any bits. -/
theorem test_no_word (nbits w : Nat) (s : State) :
    decodeTableWord nbits w = none ∧ s.withFetchWord nbits w = s := ⟨rfl, rfl⟩

end Sys2Proof.Tests
end

section
/-!
PROOFS. The parts of the device whose changes the rules tie to named commands, and how an update shows in one.
-/

namespace Sys2Proof.Machine

/-- The units of the device whose changes the rules tie to named commands (R12, R133, R330 and the tables
`writesPins` to `writesSvc`): the board, the pins, the supply watch, the intermission, the encore, SERVICE, the
ROM, the estimator, the pack bay, the latch of register reads, the place of the descriptor fetch, and the plain
settings of the staging engine. -/
inductive Part
  | board | pins | spw | int | enc | svc | rom | est | pkb | readLatch | fetch | settings
  deriving DecidableEq

/-- What a part holds. -/
@[reducible] def Part.Content : Part → Type
  | .board => Board
  | .pins => Pins
  | .spw => Spw
  | .int => Intermission
  | .enc => Enc
  | .svc => Svc
  | .rom => Rom
  | .est => Est
  | .pkb => Pkb
  | .readLatch => List (Reg64 × W32)
  | .fetch => Nat × Nat
  | .settings => W32 × W32 × W32 × W32 × W32

/-- One part of the device: a frame says `(f d).part q = d.part q` of every part that `f` does not write. -/
def Dev.part (d : Dev) : (q : Part) → q.Content
  | .board => d.board
  | .pins => d.pins
  | .spw => d.spw
  | .int => d.int
  | .enc => d.enc
  | .svc => d.svc
  | .rom => d.rom
  | .est => d.est
  | .pkb => d.pkb
  | .readLatch => d.readLatch
  | .fetch => (d.nextHandle, d.wrrFn)
  | .settings => (d.stgCtl, d.stgWear, d.stgScrub, d.stgCompact, d.stgReserve)

/-- A part chosen from its components. -/
def Part.pick (board : Board) (pins : Pins) (spw : Spw) (int : Intermission) (enc : Enc) (svc : Svc) (rom : Rom)
    (est : Est) (pkb : Pkb) (readLatch : List (Reg64 × W32)) (nextHandle wrrFn : Nat)
    (stgCtl stgWear stgScrub stgCompact stgReserve : W32) : (q : Part) → q.Content
  | .board => board
  | .pins => pins
  | .spw => spw
  | .int => int
  | .enc => enc
  | .svc => svc
  | .rom => rom
  | .est => est
  | .pkb => pkb
  | .readLatch => readLatch
  | .fetch => (nextHandle, wrrFn)
  | .settings => (stgCtl, stgWear, stgScrub, stgCompact, stgReserve)

@[simp] theorem Dev.part_mk (q : Part) (board : Board) (pins : Pins) (chp : Chp) (tmb : Tmb) (spw : Spw)
    (cur : Curtain) (int : Intermission) (adm : Adm) (pages : Tab Page) (exts : List Extent) (blk : Tab Blk)
    (cells : Tab CellSt) (flash : Flash) (stgCtl stgWear stgScrub stgCompact stgReserve : W32) (err : Err)
    (obs : Obs) (fns : Tab FnSt) (mrg : Mrg) (descs : List Desc) (ept : Ept) (cip : Cip) (idx : Idx) (drc : Drc)
    (enc : Enc) (reh : Reh) (svc : Svc) (rom : Rom) (hrk : Hrk) (est : Est) (pkb : Pkb)
    (halfLatch : List (Reg × W32)) (readLatch : List (Reg64 × W32)) (freeCtr nextHandle nextEid wrrFn : Nat)
    (outbox : List Out) :
    (Dev.mk board pins chp tmb spw cur int adm pages exts blk cells flash stgCtl stgWear stgScrub stgCompact
      stgReserve err obs fns mrg descs ept cip idx drc enc reh svc rom hrk est pkb halfLatch readLatch freeCtr
      nextHandle nextEid wrrFn outbox).part q
      = Part.pick board pins spw int enc svc rom est pkb readLatch nextHandle wrrFn stgCtl stgWear stgScrub
          stgCompact stgReserve q := by
  cases q <;> rfl

@[simp] theorem Part.pick_part (q : Part) (d : Dev) :
    Part.pick d.board d.pins d.spw d.int d.enc d.svc d.rom d.est d.pkb d.readLatch d.nextHandle d.wrrFn
    d.stgCtl d.stgWear d.stgScrub d.stgCompact d.stgReserve q = d.part q := by
  cases q <;> rfl

/-! What a command writes to the parts named beside `q` does not show in part `q`. -/

@[simp] theorem Part.pick_board {q : Part} (h : q ≠ .board) (d : Dev) (v : Board) :
    Part.pick v d.pins d.spw d.int d.enc d.svc d.rom d.est d.pkb d.readLatch d.nextHandle d.wrrFn d.stgCtl
    d.stgWear d.stgScrub d.stgCompact d.stgReserve q = d.part q := by
  cases q <;> simp_all [Part.pick, Dev.part]

@[simp] theorem Part.pick_pins {q : Part} (h : q ≠ .pins) (d : Dev) (v : Pins) :
    Part.pick d.board v d.spw d.int d.enc d.svc d.rom d.est d.pkb d.readLatch d.nextHandle d.wrrFn d.stgCtl
    d.stgWear d.stgScrub d.stgCompact d.stgReserve q = d.part q := by
  cases q <;> simp_all [Part.pick, Dev.part]

@[simp] theorem Part.pick_spw {q : Part} (h : q ≠ .spw) (d : Dev) (v : Spw) :
    Part.pick d.board d.pins v d.int d.enc d.svc d.rom d.est d.pkb d.readLatch d.nextHandle d.wrrFn d.stgCtl
    d.stgWear d.stgScrub d.stgCompact d.stgReserve q = d.part q := by
  cases q <;> simp_all [Part.pick, Dev.part]

@[simp] theorem Part.pick_int {q : Part} (h : q ≠ .int) (d : Dev) (v : Intermission) :
    Part.pick d.board d.pins d.spw v d.enc d.svc d.rom d.est d.pkb d.readLatch d.nextHandle d.wrrFn d.stgCtl
    d.stgWear d.stgScrub d.stgCompact d.stgReserve q = d.part q := by
  cases q <;> simp_all [Part.pick, Dev.part]

@[simp] theorem Part.pick_enc {q : Part} (h : q ≠ .enc) (d : Dev) (v : Enc) :
    Part.pick d.board d.pins d.spw d.int v d.svc d.rom d.est d.pkb d.readLatch d.nextHandle d.wrrFn d.stgCtl
    d.stgWear d.stgScrub d.stgCompact d.stgReserve q = d.part q := by
  cases q <;> simp_all [Part.pick, Dev.part]

@[simp] theorem Part.pick_svc {q : Part} (h : q ≠ .svc) (d : Dev) (v : Svc) :
    Part.pick d.board d.pins d.spw d.int d.enc v d.rom d.est d.pkb d.readLatch d.nextHandle d.wrrFn d.stgCtl
    d.stgWear d.stgScrub d.stgCompact d.stgReserve q = d.part q := by
  cases q <;> simp_all [Part.pick, Dev.part]

@[simp] theorem Part.pick_rom {q : Part} (h : q ≠ .rom) (d : Dev) (v : Rom) :
    Part.pick d.board d.pins d.spw d.int d.enc d.svc v d.est d.pkb d.readLatch d.nextHandle d.wrrFn d.stgCtl
    d.stgWear d.stgScrub d.stgCompact d.stgReserve q = d.part q := by
  cases q <;> simp_all [Part.pick, Dev.part]

@[simp] theorem Part.pick_est {q : Part} (h : q ≠ .est) (d : Dev) (v : Est) :
    Part.pick d.board d.pins d.spw d.int d.enc d.svc d.rom v d.pkb d.readLatch d.nextHandle d.wrrFn d.stgCtl
    d.stgWear d.stgScrub d.stgCompact d.stgReserve q = d.part q := by
  cases q <;> simp_all [Part.pick, Dev.part]

@[simp] theorem Part.pick_pkb {q : Part} (h : q ≠ .pkb) (d : Dev) (v : Pkb) :
    Part.pick d.board d.pins d.spw d.int d.enc d.svc d.rom d.est v d.readLatch d.nextHandle d.wrrFn d.stgCtl
    d.stgWear d.stgScrub d.stgCompact d.stgReserve q = d.part q := by
  cases q <;> simp_all [Part.pick, Dev.part]

@[simp] theorem Part.pick_readLatch {q : Part} (h : q ≠ .readLatch) (d : Dev) (v : List (Reg64 × W32)) :
    Part.pick d.board d.pins d.spw d.int d.enc d.svc d.rom d.est d.pkb v d.nextHandle d.wrrFn d.stgCtl
    d.stgWear d.stgScrub d.stgCompact d.stgReserve q = d.part q := by
  cases q <;> simp_all [Part.pick, Dev.part]

@[simp] theorem Part.pick_pins_spw {q : Part} (h : q ≠ .pins ∧ q ≠ .spw) (d : Dev) (v : Pins) (w : Spw) :
    Part.pick d.board v w d.int d.enc d.svc d.rom d.est d.pkb d.readLatch d.nextHandle d.wrrFn d.stgCtl
    d.stgWear d.stgScrub d.stgCompact d.stgReserve q = d.part q := by
  cases q <;> simp_all [Part.pick, Dev.part]

@[simp] theorem Part.pick_spw_int {q : Part} (h : q ≠ .spw ∧ q ≠ .int) (d : Dev) (v : Spw) (w : Intermission) :
    Part.pick d.board d.pins v w d.enc d.svc d.rom d.est d.pkb d.readLatch d.nextHandle d.wrrFn d.stgCtl
    d.stgWear d.stgScrub d.stgCompact d.stgReserve q = d.part q := by
  cases q <;> simp_all [Part.pick, Dev.part]

@[simp] theorem Part.pick_pins_pkb {q : Part} (h : q ≠ .pins ∧ q ≠ .pkb) (d : Dev) (v : Pins) (w : Pkb) :
    Part.pick d.board v d.spw d.int d.enc d.svc d.rom d.est w d.readLatch d.nextHandle d.wrrFn d.stgCtl
    d.stgWear d.stgScrub d.stgCompact d.stgReserve q = d.part q := by
  cases q <;> simp_all [Part.pick, Dev.part]

@[simp] theorem Part.pick_est_pkb {q : Part} (h : q ≠ .est ∧ q ≠ .pkb) (d : Dev) (v : Est) (w : Pkb) :
    Part.pick d.board d.pins d.spw d.int d.enc d.svc d.rom v w d.readLatch d.nextHandle d.wrrFn d.stgCtl
    d.stgWear d.stgScrub d.stgCompact d.stgReserve q = d.part q := by
  cases q <;> simp_all [Part.pick, Dev.part]

@[simp] theorem Part.pick_svc_est {q : Part} (h : q ≠ .svc ∧ q ≠ .est) (d : Dev) (v : Svc) (w : Est) :
    Part.pick d.board d.pins d.spw d.int d.enc v d.rom w d.pkb d.readLatch d.nextHandle d.wrrFn d.stgCtl
    d.stgWear d.stgScrub d.stgCompact d.stgReserve q = d.part q := by
  cases q <;> simp_all [Part.pick, Dev.part]

@[simp] theorem Part.pick_board_rom {q : Part} (h : q ≠ .board ∧ q ≠ .rom) (d : Dev) (v : Board) (w : Rom) :
    Part.pick v d.pins d.spw d.int d.enc d.svc w d.est d.pkb d.readLatch d.nextHandle d.wrrFn d.stgCtl
    d.stgWear d.stgScrub d.stgCompact d.stgReserve q = d.part q := by
  cases q <;> simp_all [Part.pick, Dev.part]

@[simp] theorem Part.pick_spw_enc_rom {q : Part} (h : q ≠ .spw ∧ q ≠ .enc ∧ q ≠ .rom) (d : Dev)
    (v : Spw) (w : Enc) (x : Rom) :
    Part.pick d.board d.pins v d.int w d.svc x d.est d.pkb d.readLatch d.nextHandle d.wrrFn d.stgCtl
    d.stgWear d.stgScrub d.stgCompact d.stgReserve q = d.part q := by
  cases q <;> simp_all [Part.pick, Dev.part]

@[simp] theorem Part.pick_pins_est {q : Part} (h : q ≠ .pins ∧ q ≠ .est) (d : Dev) (v : Pins) (w : Est) :
    Part.pick d.board v d.spw d.int d.enc d.svc d.rom w d.pkb d.readLatch d.nextHandle d.wrrFn d.stgCtl
    d.stgWear d.stgScrub d.stgCompact d.stgReserve q = d.part q := by
  cases q <;> simp_all [Part.pick, Dev.part]

@[simp] theorem Part.pick_fetch {q : Part} (h : q ≠ .fetch) (d : Dev) (v w : Nat) :
    Part.pick d.board d.pins d.spw d.int d.enc d.svc d.rom d.est d.pkb d.readLatch v w d.stgCtl
    d.stgWear d.stgScrub d.stgCompact d.stgReserve q = d.part q := by
  cases q <;> simp_all [Part.pick, Dev.part]

@[simp] theorem Part.pick_settings {q : Part} (h : q ≠ .settings) (d : Dev) (v w x y z : W32) :
    Part.pick d.board d.pins d.spw d.int d.enc d.svc d.rom d.est d.pkb d.readLatch d.nextHandle d.wrrFn v w x y z q
      = d.part q := by
  cases q <;> simp_all [Part.pick, Dev.part]

end Sys2Proof.Machine
end

section
/-!
PROOFS. The frame of every operation: `(f d).part q = d.part q` for each part `q` that `f` does not write, with the
parts that it writes as hypotheses. The operations stand in the model's order, so that each proof rests on the frames
of the operations called.
-/

namespace Sys2Proof.Machine

variable {q : Part}

@[simp] theorem part_ite (c : Prop) [Decidable c] (a b : Dev) :
    (if c then a else b).part q = if c then a.part q else b.part q := apply_ite (Dev.part · q) ..

/-- Frames fold: a fold keeps a part that each of its steps keeps. -/
@[simp] theorem part_foldl {α : Type} {f : Dev → α → Dev} (hf : ∀ e a, (f e a).part q = e.part q) (l : List α)
    (d : Dev) : (l.foldl f d).part q = d.part q := by
  induction l generalizing d with
  | nil => rfl
  | cons a l ih => rw [List.foldl_cons, ih, hf]

/-- A report keeps every part. -/
theorem Dev.Reports.part_eq {a b : Dev} (h : a.Reports b) : b.part q = a.part q :=
  h.keep (Dev.part · q) (fun _ => by cases q <;> rfl)

/-- An answer keeps every part. -/
theorem Dev.Answers.part_eq {a b : Dev} (h : a.Answers b) : b.part q = a.part q :=
  h.keep (Dev.part · q) (fun _ => by cases q <;> rfl)

/-- The device that an operation hands on beside a value, named by a match on the pair. -/
theorem part_of_pair {α : Type} {r : α × Dev} {a : α} {d e : Dev} (hr : r.2.part q = d.part q) (he : r = (a, e)) :
    e.part q = d.part q := by rwa [he] at hr

/-- As `part_of_pair`, for an operation on the device and the cache DRAM. -/
theorem part_of_pair_fst {α : Type} {r : Dev × α} {a : α} {d e : Dev} (hr : r.1.part q = d.part q)
    (he : r = (e, a)) :
    e.part q = d.part q := by rwa [he] at hr

/-- `part_foldl` for a fold that carries the device beside a value. -/
@[simp] theorem part_foldl_fst {α β : Type} {f : Dev × β → α → Dev × β} (hf : ∀ e a, (f e a).1.part q = e.1.part q)
    (l : List α) (r : Dev × β) : (l.foldl f r).1.part q = r.1.part q := by
  induction l generalizing r with
  | nil => rfl
  | cons a l ih => rw [List.foldl_cons, ih, hf]

/-- `part_foldl` for a fold that carries a value beside the device. -/
@[simp] theorem part_foldl_snd {α β : Type} {f : β × Dev → α → β × Dev} (hf : ∀ e a, (f e a).2.part q = e.2.part q)
    (l : List α) (r : β × Dev) : (l.foldl f r).2.part q = r.2.part q := by
  induction l generalizing r with
  | nil => rfl
  | cons a l ih => rw [List.foldl_cons, ih, hf]

/-- An operation keeps a part of every device. -/
def Keeps (q : Part) (f : Dev → Dev) : Prop := ∀ d, (f d).part q = d.part q

theorem Keeps.intro {f : Dev → Dev} (h : ∀ d, (f d).part q = d.part q) : Keeps q f := h

/-! ### Shared operations -/

@[simp] theorem part_updBlk (b : Nat) (f : Blk → Blk) (d : Dev) : (updBlk b f d).part q = d.part q := by
  simp [updBlk]

@[simp] theorem part_updCell (c : Nat) (f : CellSt → CellSt) (d : Dev) : (updCell c f d).part q = d.part q := by
  simp [updCell]

@[simp] theorem part_updFn (f : Nat) (g : FnSt → FnSt) (d : Dev) : (updFn f g d).part q = d.part q := by
  cases q <;> rfl

@[simp] theorem part_updPage (p : Nat) (g : Page → Page) (d : Dev) : (updPage p g d).part q = d.part q := by
  simp [updPage]

@[simp] theorem part_updPages (ps : List Nat) (g : Page → Page) (d : Dev) :
    (updPages ps g d).part q = d.part q := by
  simp [updPages]

@[simp] theorem part_updSlot (s : Nat) (g : Slot → Slot) (d : Dev) : (updSlot s g d).part q = d.part q := by
  simp [updSlot]

@[simp] theorem part_updPort (p : Nat) (g : Port → Port) (d : Dev) : (updPort p g d).part q = d.part q := by
  simp [updPort]

@[simp] theorem part_stamp (d : Dev) : (stamp d).2.part q = d.part q := by
  simp [stamp]

@[simp] theorem part_fresh (d : Dev) : (fresh d).2.part q = d.part q := by
  simp [fresh]

@[simp] theorem part_count (n k : Nat) (d : Dev) : (count n k d).part q = d.part q :=
  (reports_count ..).part_eq

@[simp] theorem part_countFn (f k v : Nat) (d : Dev) : (countFn f k v d).part q = d.part q :=
  (reports_countFn ..).part_eq

@[simp] theorem part_countBlk (b k v : Nat) (d : Dev) : (countBlk b k v d).part q = d.part q :=
  (reports_countBlk ..).part_eq

@[simp] theorem part_countCell (c k v : Nat) (d : Dev) : (countCell c k v d).part q = d.part q :=
  (reports_countCell ..).part_eq

@[simp] theorem part_countPort (p k v : Nat) (d : Dev) : (countPort p k v d).part q = d.part q :=
  (reports_countPort ..).part_eq

@[simp] theorem part_countChip (k v : Nat) (d : Dev) : (countChip k v d).part q = d.part q :=
  (reports_countChip ..).part_eq

@[simp] theorem part_emit (o : Out) (d : Dev) : (emit o d).part q = d.part q :=
  (reports_emit ..).part_eq

@[simp] theorem part_discardTlp (d : Dev) : (discardTlp d).part q = d.part q := by
  simp [discardTlp]

@[simp] theorem part_msixSend (f v : Nat) (d : Dev) : (msixSend f v d).part q = d.part q :=
  (reports_msixSend ..).part_eq

@[simp] theorem part_setMrgRing (r : Nat) (g : Ring) (d : Dev) : (setMrgRing r g d).part q = d.part q :=
  (reports_setMrgRing ..).part_eq

@[simp] theorem part_setCqRing (f n : Nat) (g : Ring) (d : Dev) : (setCqRing f n g d).part q = d.part q :=
  (reports_setCqRing ..).part_eq

@[simp] theorem part_setSqRing (f n : Nat) (g : Ring) (d : Dev) : (setSqRing f n g d).part q = d.part q := by
  simp [setSqRing]

@[simp] theorem part_coalesce (f : Nat) (r : Ring) (d : Dev) : (coalesce f r d).2.part q = d.part q :=
  (reports_coalesce ..).part_eq

@[simp] theorem part_mrgWrite (r : Nat) (bytes : Bool → List Byte) (d : Dev) :
    (mrgWrite r bytes d).part q = d.part q :=
  (reports_mrgWrite ..).part_eq

@[simp] theorem part_traceHost (t : TraceEv) (d : Dev) : (traceHost t d).part q = d.part q :=
  (reports_traceHost ..).part_eq

@[simp] theorem part_trace (type island a b : Nat) (d : Dev) : (trace type island a b d).part q = d.part q :=
  (reports_trace ..).part_eq

@[simp] theorem part_sayLost (d : Dev) : (sayLost d).part q = d.part q :=
  (reports_sayLost ..).part_eq

@[simp] theorem part_drainEvents (n : Nat) (d : Dev) : (drainEvents n d).part q = d.part q :=
  (reports_drainEvents ..).part_eq

@[simp] theorem part_postEvent (type fn : Nat) (payload : List Nat) (d : Dev) :
    (postEvent type fn payload d).part q = d.part q :=
  (reports_postEvent ..).part_eq

@[simp] theorem part_orphanCpl (c : Cpl) (d : Dev) : (orphanCpl c d).part q = d.part q := by
  simp [orphanCpl]

@[simp] theorem part_orphanWaiting (f : Nat) (d : Dev) : (orphanWaiting f d).part q = d.part q := by
  simp [orphanWaiting]

@[simp] theorem part_drainOrphans (n : Nat) (d : Dev) : (drainOrphans n d).part q = d.part q :=
  (reports_drainOrphans ..).part_eq

@[simp] theorem part_cplWrite (c : Cpl) (d : Dev) : (cplWrite c d).part q = d.part q :=
  (reports_cplWrite ..).part_eq

@[simp] theorem part_drainCpls (n n' : Nat) (d : Dev) : (drainCpls n n' d).part q = d.part q :=
  (reports_drainCpls ..).part_eq

@[simp] theorem part_deliver (c : Cpl) (d : Dev) : (deliver c d).part q = d.part q :=
  (reports_deliver ..).part_eq

@[simp] theorem part_dropDesc (h : Nat) (d : Dev) : (dropDesc h d).part q = d.part q :=
  (answers_dropDesc ..).part_eq

@[simp] theorem part_updDesc (h : Nat) (g : Desc → Desc) (d : Dev) : (updDesc h g d).part q = d.part q :=
  (answers_updDesc ..).part_eq

@[simp] theorem part_countStatus (c : Cpl) (d : Dev) : (countStatus c d).part q = d.part q :=
  (reports_countStatus ..).part_eq

@[simp] theorem part_discardReads (h : Nat) (d : Dev) : (discardReads h d).part q = d.part q :=
  (answers_discardReads ..).part_eq

@[simp] theorem part_finish (x : Desc) (status result bytes cls delay ht : Nat) (d : Dev) :
    (finish x status result bytes cls delay ht d).part q = d.part q :=
  (answers_finish ..).part_eq

@[simp] theorem part_endWith (x : Desc) (status result bytes : Nat) (d : Dev) :
    (endWith x status result bytes d).part q = d.part q :=
  (answers_endWith ..).part_eq

@[simp] theorem part_refuse (x : Desc) (status : Nat) (d : Dev) : (refuse x status d).part q = d.part q :=
  (answers_refuse ..).part_eq

@[simp] theorem part_aerSignal (severity : Nat) (d : Dev) : (aerSignal severity d).part q = d.part q :=
  (reports_aerSignal ..).part_eq

@[simp] theorem part_raiseFault (i : FaultInfo) (d : Dev) : (raiseFault i d).part q = d.part q :=
  (reports_raiseFault ..).part_eq

@[simp] theorem part_configRejected (island offset : Nat) (d : Dev) :
    (configRejected island offset d).part q = d.part q :=
  (reports_configRejected ..).part_eq

@[simp] theorem part_transition (m : Mode) (cause : Nat) (d : Dev) :
    (transition m cause d).part q = d.part q := by
  simp [transition]

/-! ### The image: records, books, journals, lists -/

@[simp] theorem part_updUnit (c t pos : Nat) (g : FUnit → FUnit) (d : Dev) :
    (updUnit c t pos g d).part q = d.part q := by
  simp [updUnit]

@[simp] theorem part_openAt (b p : Nat) (d : Dev) : (openAt b p d).part q = d.part q := by
  simp [openAt]

theorem part_openStripe {b : Nat} {d e : Dev} (he : openStripe b d = some e) : e.part q = d.part q := by
  unfold openStripe at he
  split at he
  · rw [← Option.some.inj he, part_openAt]
  · cases he

@[simp] theorem part_openUnit (c t pos : Nat) (d : Dev) : (openUnit c t pos d).part q = d.part q := by
  unfold openUnit
  split <;> simp

@[simp] theorem part_barUnits (b pos hl : Nat) (d : Dev) : (barUnits b pos hl d).part q = d.part q := by
  simp [barUnits]

theorem part_roomAt {b pos id segs hl : Nat} {cells : List Nat} {ok : Nat × Nat → Bool} {d e : Dev}
    {r : Nat × Nat × Nat × Nat} (he : roomAt b pos id segs hl cells ok d = some (r, e)) : e.part q = d.part q := by
  unfold roomAt at he
  simp only at he
  split at he
  · cases he
  · cases Option.some.inj he
    simp

theorem part_takeRoomOn {cells : List Nat} {ok : Nat × Nat → Bool} {b id bytes hl : Nat} {d e : Dev}
    {r : Nat × Nat × Nat × Nat} (he : takeRoomOn cells ok b id bytes hl d = some (r, e)) : e.part q = d.part q := by
  unfold takeRoomOn at he
  simp only at he
  split at he
  · next hr =>
    cases Option.some.inj he
    split at hr
    · exact part_roomAt hr
    · cases hr
  · split at he
    · next ho => exact (part_roomAt he).trans (part_openStripe ho)
    · cases he

theorem part_takeRoom {b id bytes hl : Nat} {d e : Dev} {r : Nat × Nat × Nat × Nat}
    (he : takeRoom b id bytes hl d = some (r, e)) : e.part q = d.part q :=
  part_takeRoomOn he

@[simp] theorem part_debtEvent (b : Nat) (d : Dev) : (debtEvent b d).part q = d.part q := by
  simp [debtEvent]

@[simp] theorem part_drawCredit (b n : Nat) (d : Dev) : (drawCredit b n d).part q = d.part q := by
  simp [drawCredit]

@[simp] theorem part_newId (b : Nat) (d : Dev) : (newId b d).2.part q = d.part q := by
  simp [newId]

@[simp] theorem part_addRec (r : Rec) (d : Dev) : (addRec r d).part q = d.part q := by
  simp [addRec]

@[simp] theorem part_updRec (id : Nat) (g : Rec → Rec) (d : Dev) : (updRec id g d).part q = d.part q := by
  simp [updRec]

@[simp] theorem part_dropRecs (p : Rec → Bool) (d : Dev) : (dropRecs p d).part q = d.part q := by
  simp [dropRecs]

@[simp] theorem part_openJournal (c u : Nat) (d : Dev) : (openJournal c u d).2.part q = d.part q := by
  simp [openJournal]

@[simp] theorem part_renewJournal (c u : Nat) (full : Bool) (d : Dev) :
    (renewJournal c u full d).part q = d.part q := by
  simp [renewJournal]

@[simp] theorem part_journalAdd (c : Nat) (avoid : Option Nat) (h : JHead) (d : Dev) :
    (journalAdd c avoid h d).2.part q = d.part q := by
  simp only [journalAdd]
  (repeat' split) <;> simp

@[simp] theorem part_journalBoth (c id : Nat) (d : Dev) : (journalBoth c id d).part q = d.part q := by
  simp [journalBoth]

@[simp] theorem part_closeUnits (d : Dev) : (closeUnits d).part q = d.part q := by
  simp [closeUnits]

@[simp] theorem part_headOnly (logB home : Nat) (kind : RKind) (fn : Nat) (runs : List Run) (ht ref : Nat)
    (written : Bool) (d : Dev) :
    (headOnly logB home kind fn runs ht ref written d).2.part q = d.part q := by
  simp [headOnly]

@[simp] theorem part_headAs (epochId hidx : Nat) (p : Nat × Dev) :
    (headAs epochId hidx p).part q = p.2.part q := by
  simp [headAs]

@[simp] theorem part_appendAnchor (k : Book) (r : Rec) (d : Dev) : (appendAnchor k r d).part q = d.part q := by
  simp [appendAnchor]

@[simp] theorem part_updateYield (d : Dev) : (updateYield d).part q = d.part q := by
  simp [updateYield]

@[simp] theorem part_placeEntry (x : Extent) (d : Dev) : (placeEntry x d).part q = d.part q := by
  simp [placeEntry]

@[simp] theorem part_insertEntry (d : Dev) (x : Extent) : (insertEntry d x).part q = d.part q := by
  simp [insertEntry]

@[simp] theorem part_syncIndex (d : Dev) : (syncIndex d).part q = d.part q := by
  simp [syncIndex]

@[simp] theorem part_layOutFn (f : Nat) (d : Dev) : (layOutFn f d).part q = d.part q := by
  simp [layOutFn]

@[simp] theorem part_abandonRebuilds (d : Dev) : (abandonRebuilds d).part q = d.part q := by
  simp [abandonRebuilds]

@[simp] theorem part_prune (d : Dev) : (prune d).part q = d.part q := by
  simp [prune]

@[simp] theorem part_enterSelfRefresh (d : Dev) : (enterSelfRefresh d).part q = d.part q := by
  simp [enterSelfRefresh]

@[simp] theorem part_leaveSelfRefresh (d : Dev) : (leaveSelfRefresh d).part q = d.part q := by
  simp [leaveSelfRefresh]

@[simp] theorem part_takeInvocation (s : Nat) (d : Dev) : (takeInvocation s d).2.part q = d.part q := by
  simp [takeInvocation]

@[simp] theorem part_wipeSlot (s : Nat) (d : Dev) : (wipeSlot s d).part q = d.part q := by
  simp [wipeSlot]

@[simp] theorem part_settleSlot (s : Nat) (d : Dev) : (settleSlot s d).part q = d.part q := by
  simp only [settleSlot]
  split <;> simp

@[simp] theorem part_cipherDone (b id : Nat) (d : Dev) : (cipherDone b id d).part q = d.part q := by
  unfold cipherDone
  split <;> simp

theorem part_startRecord {m : List Host.Cell} {b f handle id : Nat} {kind : RKind} {runs : List Run} {amend : Bool}
    {origin : Nat × Nat} {d e : Dev} (he : startRecord m b kind f runs amend handle origin d = some (id, e)) :
    e.part q = d.part q := by
  unfold startRecord at he
  simp only at he
  split at he
  · next ht =>
    cases Option.some.inj he
    simp [part_takeRoom ht]
  · cases he

@[simp] theorem part_markStaged (r : Rec) (d : Dev) : (markStaged r d).part q = d.part q := by
  simp [markStaged]

@[simp] theorem part_countWritten (r : Rec) (d : Dev) : (countWritten r d).part q = d.part q := by
  simp [countWritten]

@[simp] theorem part_mark (kind : RKind) (mask b : Nat) (d : Dev) : (mark kind mask b d).part q = d.part q := by
  unfold mark
  split <;> simp

@[simp] theorem part_exposeAll (d : Dev) : (exposeAll d).part q = d.part q := by
  simp [exposeAll]

@[simp] theorem part_safeMark (b : Nat) (d : Dev) : (safeMark b d).part q = d.part q := by
  simp [safeMark]

@[simp] theorem part_writePart (lb : Nat) (l : CallList) (part : Nat × Nat) (d : Dev) :
    (writePart lb l part d).part q = d.part q := by
  unfold writePart
  simp only
  split
  · rfl
  · next ht => simp [part_takeRoom ht]

@[simp] theorem part_writeEntries (b trigger triggerHt : Nat) (entries : List ListEntry) (listed base : Nat)
    (d : Dev) :
    (writeEntries b trigger triggerHt entries listed base d).part q = d.part q := by
  unfold writeEntries
  split <;> simp

@[simp] theorem part_writeList (b trigger triggerHt : Nat) (unack : List ListEntry) (base : Nat) (d : Dev) :
    (writeList b trigger triggerHt unack base d).part q = d.part q := by
  simp [writeList]

@[simp] theorem part_writeLists47 (trigger : Nat) (d : Dev) : (writeLists47 trigger d).part q = d.part q := by
  simp [writeLists47]

/-! ### Budget and admission -/

@[simp] theorem part_traceBudget (d : Dev) : (traceBudget d).part q = d.part q := by
  simp [traceBudget]

@[simp] theorem part_recompute (d : Dev) : (recompute d).part q = d.part q := by
  simp [recompute]

@[simp] theorem part_commitHold (x : Desc) (record : Option Nat) (d : Dev) :
    (commitHold x record d).part q = d.part q := by
  simp [commitHold]

@[simp] theorem part_updateShortfall (d : Dev) : (updateShortfall d).part q = d.part q := by
  simp [updateShortfall]

@[simp] theorem part_updateReclaim (d : Dev) : (updateReclaim d).part q = d.part q := by
  simp [updateReclaim]

@[simp] theorem part_evaluate (xs : List Desc) (k : Blocks) (d : Dev) :
    (evaluate xs k d).part q = d.part q := by
  induction xs generalizing k d with
  | nil => rfl
  | cons x xs ih =>
    simp only [evaluate]
    split
    · simp [ih]
    · split <;> simp [ih]

@[simp] theorem part_evaluateAll (n : Nat) (d : Dev) : (evaluateAll n d).part q = d.part q := by
  induction n generalizing d with
  | zero => rfl
  | succ n ih => simp [evaluateAll, ih]

@[simp] theorem part_refuseWaiting (d : Dev) : (refuseWaiting d).part q = d.part q := by
  simp [refuseWaiting]

@[simp] theorem part_evaluateWaiting (d : Dev) : (evaluateWaiting d).part q = d.part q := by
  simp [evaluateWaiting]

@[simp] theorem part_updatePressure (d : Dev) : (updatePressure d).part q = d.part q := by
  simp [updatePressure]

@[simp] theorem part_pressureOver (d : Dev) : (pressureOver d).part q = d.part q := by
  simp [pressureOver]

@[simp] theorem part_soilArea (d : Dev) : (soilArea d).part q = d.part q := by
  simp [soilArea]

@[simp] theorem part_abortRehearsal (answer : Bool) (d : Dev) :
    (abortRehearsal answer d).part q = d.part q := by
  simp only [abortRehearsal]
  (repeat' split) <;> simp

@[simp] theorem part_enterWriteThrough (cause trigger : Nat) (d : Dev) :
    (enterWriteThrough cause trigger d).part q = d.part q := by
  simp [enterWriteThrough]

@[simp] theorem part_enterAdmitting (m : Mode) (cause : Nat) (d : Dev) :
    (enterAdmitting m cause d).part q = d.part q := by
  simp [enterAdmitting]

@[simp] theorem part_resumeFsp (d : Dev) : (resumeFsp d).part q = d.part q := by
  simp [resumeFsp]

@[simp] theorem part_enterSettled (cause : Nat) (d : Dev) : (enterSettled cause d).part q = d.part q := by
  unfold enterSettled
  split <;> simp

@[simp] theorem part_modeRows (d : Dev) : (modeRows d).part q = d.part q := by
  unfold modeRows
  (repeat' split) <;> simp

@[simp] theorem part_countGood (cadence : Bool) (d : Dev) : (countGood cadence d).part q = d.part q := by
  simp [countGood]

@[simp] theorem part_traceLearn (d : Dev) : (traceLearn d).part q = d.part q := by
  simp [traceLearn]

@[simp] theorem part_endLearning (hq : q ≠ .est) (cause : Nat) (d : Dev) :
    (endLearning cause d).part q = d.part q := by
  simp [endLearning, hq]

@[simp] theorem part_floorTest (hq : q ≠ .est) (d : Dev) : (floorTest d).part q = d.part q := by
  simp [floorTest, hq]

@[simp] theorem part_countsChanged (hq : q ≠ .est) (d : Dev) : (countsChanged d).part q = d.part q := by
  simp [countsChanged, hq]

@[simp] theorem part_reasonsChanged (hq : q ≠ .est) (d : Dev) : (reasonsChanged d).part q = d.part q := by
  simp [reasonsChanged, hq]

@[simp] theorem part_reevaluate (hq : q ≠ .est) (cadence : Bool) (d : Dev) :
    (reevaluate cadence d).part q = d.part q := by
  simp [reevaluate, hq]

@[simp] theorem part_recomputeNow (hq : q ≠ .est) (d : Dev) : (recomputeNow d).part q = d.part q := by
  simp [recomputeNow, hq]

/-! ### Links and frames -/

@[simp] theorem part_putFrame (f : Frame) (d : Dev) (p : Nat) : (putFrame f d p).part q = d.part q := by
  simp [putFrame]

@[simp] theorem part_newFrame (type dst : Nat) (ackReq : Bool) (payload : List Byte) (d : Dev) :
    (newFrame type dst ackReq payload d).2.part q = d.part q := by
  simp [newFrame]

@[simp] theorem part_sendOn (p type dst : Nat) (ackReq : Bool) (payload : List Byte) (d : Dev) :
    (sendOn p type dst ackReq payload d).part q = d.part q := by
  simp [sendOn]

@[simp] theorem part_sendFrame (type dst : Nat) (ackReq : Bool) (payload : List Byte) (d : Dev) :
    (sendFrame type dst ackReq payload d).part q = d.part q := by
  simp [sendFrame]

@[simp] theorem part_sendDown (type : Nat) (payload : List Byte) (d : Dev) :
    (sendDown type payload d).part q = d.part q := by
  simp [sendDown]

@[simp] theorem part_arrive (h : FrameIn) (payload : List Byte) (f : Dev → Dev) (d : Dev)
    (hf : ∀ e, (f e).part q = e.part q) :
    (arrive h payload f d).part q = d.part q := by
  simp [arrive, hf]

@[simp] theorem part_sendAck (p dst seq : Nat) (d : Dev) : (sendAck p dst seq d).part q = d.part q := by
  simp [sendAck]

@[simp] theorem part_acked (h : FrameIn) (who : Nat) (f : Dev → Dev) (d : Dev)
    (hf : ∀ e, (f e).part q = e.part q) :
    (acked h who f d).part q = d.part q := by
  simp [acked, hf]

@[simp] theorem part_routed (h : FrameIn) (type : Nat) (payload : List Byte) (f : Dev → Dev) (d : Dev)
    (hf : ∀ e, (f e).part q = e.part q) :
    (routed h type payload f d).part q = d.part q := by
  simp [routed, hf]

@[simp] theorem part_overTree (h : FrameIn) (f : Dev → Dev) (d : Dev) (hf : ∀ e, (f e).part q = e.part q) :
    (overTree h f d).part q = d.part q := by
  simp [overTree, hf]

@[simp] theorem part_receive (h : FrameIn) (type : Nat) (payload : List Byte) (f : Dev → Dev) (d : Dev)
    (hf : ∀ e, (f e).part q = e.part q) :
    (receive h type payload f d).part q = d.part q :=
  part_arrive _ _ _ _ fun _ => part_overTree _ _ _ fun _ => part_routed _ _ _ _ _ fun _ => part_acked _ _ _ _ hf

@[simp] theorem part_sendJoin (d : Dev) : (sendJoin d).part q = d.part q := by
  simp [sendJoin]

@[simp] theorem part_harkaDown (d : Dev) : (harkaDown d).part q = d.part q := by
  simp [harkaDown]

@[simp] theorem part_endStandby (d : Dev) : (endStandby d).part q = d.part q := by
  simp [endStandby]

@[simp] theorem part_hierarchyBoot (d : Dev) : (hierarchyBoot d).part q = d.part q := by
  simp [hierarchyBoot]

@[simp] theorem part_awaitResponses (d : Dev) : (awaitResponses d).part q = d.part q := by
  simp [awaitResponses]

@[simp] theorem part_sendStatus (d : Dev) : (sendStatus d).part q = d.part q := by
  simp [sendStatus]

@[simp] theorem part_sendStatusAll (d : Dev) : (sendStatusAll d).part q = d.part q := by
  simp [sendStatusAll]

@[simp] theorem part_storeDir (es : List DirEntry) (d : Dev) : (storeDir es d).part q = d.part q := by
  simp [storeDir]

@[simp] theorem part_forwardDir (es : List DirEntry) (d : Dev) : (forwardDir es d).part q = d.part q := by
  simp [forwardDir]

@[simp] theorem part_sendDir (es : List DirEntry) (d : Dev) : (sendDir es d).part q = d.part q := by
  simp [sendDir]

@[simp] theorem part_dirChanged (f moved : Nat) (d : Dev) : (dirChanged f moved d).part q = d.part q := by
  simp [dirChanged]

@[simp] theorem part_dirHeldOut (b : Nat) (d : Dev) : (dirHeldOut b d).part q = d.part q := by
  simp [dirHeldOut]

@[simp] theorem part_sendAllDir (d : Dev) : (sendAllDir d).part q = d.part q := by
  simp [sendAllDir]

@[simp] theorem part_sendKeyFrames (n first : Nat) (ks : List OrderKey) (d : Dev) :
    (sendKeyFrames n first ks d).part q = d.part q := by
  induction n generalizing first ks d with
  | zero => rfl
  | succ n ih => simp [sendKeyFrames, ih]

@[simp] theorem part_tryC2 (hq : q ≠ .enc) (d : Dev) : (tryC2 d).part q = d.part q := by
  simp [tryC2, hq]

/-! ### Staging -/

@[simp] theorem part_stageHeld (m : List Host.Cell) (b : Nat) (kind : RKind) (xs : List Extent) (d : Dev) :
    (stageHeld m b kind xs d).part q = d.part q := by
  unfold stageHeld
  split
  · rfl
  · simp only
    split
    · next hs => exact part_startRecord hs
    · rfl

@[simp] theorem part_stageWtHold (m : List Host.Cell) (x : Desc) (d : Dev) :
    (stageWtHold m x d).part q = d.part q := by
  unfold stageWtHold
  simp only
  split
  · next hs => simp [part_startRecord hs]
  · rfl

@[simp] theorem part_stagingStart (b : Nat) (m : List Host.Cell) (d : Dev) :
    (stagingStart b m d).part q = d.part q := by
  simp only [stagingStart]
  (repeat' split) <;> simp

@[simp] theorem part_noteWritten (id : Nat) (d : Dev) : (noteWritten id d).part q = d.part q := by
  simp [noteWritten]

@[simp] theorem part_emptyRecord (id : Nat) (d : Dev) : (emptyRecord id d).part q = d.part q := by
  simp [emptyRecord]

@[simp] theorem part_wtCommit (r : Rec) (d : Dev) : (wtCommit r d).part q = d.part q := by
  unfold wtCommit
  split <;> simp

@[simp] theorem part_curtainSaved (r : Rec) (d : Dev) : (curtainSaved r d).part q = d.part q := by
  unfold curtainSaved
  split <;> simp

@[simp] theorem part_copyWritten (r : Rec) (p : Nat × Nat × Nat × Nat) (d : Dev) :
    (copyWritten r p d).part q = d.part q := by
  simp [copyWritten]

@[simp] theorem part_recordWritten (hq : q ≠ .est) (id : Nat) (d : Dev) :
    (recordWritten id d).part q = d.part q := by
  unfold recordWritten
  (repeat' split) <;> simp [hq]

@[simp] theorem part_retireUnit (c t pos : Nat) (d : Dev) : (retireUnit c t pos d).part q = d.part q := by
  simp [retireUnit]

theorem part_reissueRoom {r : Rec} {c t : Nat} {d e : Dev} {p : Nat × Nat × Nat × Nat}
    (he : reissueRoom r c t d = some (p, e)) : e.part q = d.part q := by
  obtain ⟨k, -, hk⟩ := List.exists_of_findSome?_eq_some he
  exact part_takeRoomOn hk

@[simp] theorem part_giveUp (hq : q ≠ .int) (r : Rec) (d : Dev) : (giveUp r d).part q = d.part q := by
  simp only [giveUp]
  split <;> simp [hq]

/-- A goal that `generalize` made general stays so in the proof term, where it would else be instantiated again:
the kernel then meets a variable in place of a call that it would run (here the charge of the wear credit,
whose events drain the rings). -/
theorem keep_general {P : Prop} (h : P) : P := h

@[simp] theorem part_reissue (hq : q ≠ .int) (id : Nat) (d : Dev) :
    (reissue id d).part q = d.part q := by
  have hc := @part_drawCredit q
  unfold reissue
  generalize drawCredit = credit at hc ⊢
  revert credit
  refine keep_general ?_
  intro credit hc
  split
  · rfl
  split
  · split
    · next hr =>
      split at hr
      · simp [hc, part_reissueRoom hr]
      · cases hr
    · simp
  split
  · simp
  split
  · next hr =>
    dsimp only
    split <;> split <;> simp [hc, part_reissueRoom hr]
  · split <;> simp [hq]

@[simp] theorem part_programFail (hq : q ≠ .int ∧ q ≠ .est) (id : Nat) (d : Dev) :
    (programFail id d).part q = d.part q := by
  simp only [programFail]
  (repeat' split) <;> simp [hq]

@[simp] theorem part_wearFill (d : Dev) : (wearFill d).part q = d.part q := by
  simp [wearFill]

@[simp] theorem part_storeWear (d : Dev) : (storeWear d).part q = d.part q := by
  simp [storeWear]

@[simp] theorem part_windowShift (b : Nat) (d : Dev) : (windowShift b d).part q = d.part q := by
  simp [windowShift]

@[simp] theorem part_relocate (b : Nat) (r : Rec) (d : Dev) : (relocate b r d).part q = d.part q := by
  unfold relocate
  split
  · next ht => simp [part_takeRoom ht]
  · rfl

@[simp] theorem part_cleanRecord (b : Nat) (r : Rec) (d : Dev) : (cleanRecord b r d).part q = d.part q := by
  simp [cleanRecord]

@[simp] theorem part_eraseNow (c t pos mode : Nat) (port : Bool) (d : Dev) :
    (eraseNow c t pos mode port d).part q = d.part q := by
  simp [eraseNow]

@[simp] theorem part_startErase (c t pos mode : Nat) (port : Bool) (d : Dev) :
    (startErase c t pos mode port d).part q = d.part q := by
  simp [startErase]

@[simp] theorem part_resumeIntents (b : Nat) (d : Dev) : (resumeIntents b d).part q = d.part q := by
  refine part_foldl (fun e i => ?_) _ _
  split <;> simp

@[simp] theorem part_eraseUnitsOf (b pos : Nat) (d : Dev) : (eraseUnitsOf b pos d).part q = d.part q := by
  simp [eraseUnitsOf]

@[simp] theorem part_eraseStripe (b p : Nat) (d : Dev) : (eraseStripe b p d).part q = d.part q := by
  simp [eraseStripe]

@[simp] theorem part_cleanStripe (b p : Nat) (d : Dev) : (cleanStripe b p d).part q = d.part q := by
  simp [cleanStripe]

@[simp] theorem part_logClean (hq : q ≠ .est) (b : Nat) (d : Dev) : (logClean b d).part q = d.part q := by
  unfold logClean
  (repeat' split) <;> simp [hq]

@[simp] theorem part_clearUnit (c t u : Nat) (d : Dev) : (clearUnit c t u d).part q = d.part q := by
  simp [clearUnit]

@[simp] theorem part_stripeDone (hq : q ≠ .est) (b pos : Nat) (d : Dev) :
    (stripeDone b pos d).part q = d.part q := by
  simp [stripeDone, hq]

@[simp] theorem part_eraseComplete (hq : q ≠ .est) (c t : Nat) (d : Dev) :
    (eraseComplete c t d).part q = d.part q := by
  unfold eraseComplete
  split <;> simp [hq]

@[simp] theorem part_putSegment (c : Nat) (a : W64) (w : Tab Byte) (d : Dev) :
    (putSegment c a w d).part q = d.part q := by
  simp [putSegment]

@[simp] theorem part_putTlc (c : Nat) (a : W64) (d : Dev) : (putTlc c a d).part q = d.part q := by
  simp [putTlc]

@[simp] theorem part_finishPrograms (d : Dev) : (finishPrograms d).part q = d.part q := by
  simp [finishPrograms]

@[simp] theorem part_abandonPorts (all : Bool) (d : Dev) : (abandonPorts all d).part q = d.part q := by
  simp [abandonPorts]

theorem part_tlcRoom {b : Nat} {r : Rec} {d e : Dev} {p : Nat × Nat × Nat × Nat}
    (he : tlcRoom b r d = some (p, e)) : e.part q = d.part q := by
  unfold tlcRoom at he
  simp only at he
  split at he
  · next hr =>
    cases Option.some.inj he
    split at hr
    · exact part_roomAt hr
    · cases hr
  · split at he
    · cases he
    · rw [part_roomAt he, part_updBlk]

@[simp] theorem part_eraseTlc (b p : Nat) (d : Dev) : (eraseTlc b p d).part q = d.part q := by
  simp [eraseTlc]

@[simp] theorem part_tlcClean (b : Nat) (d : Dev) : (tlcClean b d).part q = d.part q := by
  unfold tlcClean
  simp only
  split
  · rfl
  split
  · rfl
  split
  · simp
  refine part_foldl (fun e r => ?_) _ _
  split
  · rfl
  split
  · next ht => simp [part_tlcRoom ht]
  · rfl

@[simp] theorem part_compactCopy (b : Nat) (d : Dev) : (compactCopy b d).part q = d.part q := by
  unfold compactCopy
  split
  · rfl
  simp only
  split
  · simp
  split
  · simp
  split
  · simp
  split
  · simp
  · next ht => simp [part_tlcRoom ht]

@[simp] theorem part_abandonCompaction (d : Dev) : (abandonCompaction d).part q = d.part q := by
  simp [abandonCompaction]

@[simp] theorem part_abandonCopies (d : Dev) : (abandonCopies d).part q = d.part q := by
  simp [abandonCopies]

@[simp] theorem part_tlcVerified (id : Nat) (d : Dev) : (tlcVerified id d).part q = d.part q := by
  unfold tlcVerified
  (repeat' split) <;> simp

@[simp] theorem part_returnPages (lostRec : Nat → Bool) (d : Dev) :
    (returnPages lostRec d).part q = d.part q := by
  simp [returnPages]

@[simp] theorem part_scrubRead (hq : q ≠ .est) (id load : Nat) (readable authentic : Bool) (d : Dev) :
    (scrubRead id load readable authentic d).part q = d.part q := by
  unfold scrubRead
  split
  · rfl
  next r _ =>
  split
  · rfl
  dsimp only
  generalize (if r.inTlc then r.tlcCell else r.cell) = c
  split
  · simp [hq]
  split
  · split
    · next ht => simp [part_takeRoom ht]
    · simp
  · simp

@[simp] theorem part_dropCommit (hq : q ≠ .est) (outcome : Nat) (status : Option Nat) (keepShadow : Bool)
    (d : Dev) :
    (dropCommit outcome status keepShadow d).part q = d.part q := by
  simp only [dropCommit]
  (repeat' split) <;> simp [hq]

@[simp] theorem part_packFail (hq : q ≠ .est ∧ q ≠ .pkb) (d : Dev) : (packFail d).part q = d.part q := by
  unfold packFail
  dsimp only
  split <;> simp [hq]

@[simp] theorem part_admissionRecompute (hq : q ≠ .est) (cadence : Bool) (d : Dev) :
    (admissionRecompute cadence d).part q = d.part q := by
  simp [admissionRecompute, hq]

@[simp] theorem part_makeReady (hq : q ≠ .est) (x : Desc) (d : Dev) : (makeReady x d).part q = d.part q := by
  simp only [makeReady]
  (repeat' split) <;> simp [hq]

@[simp] theorem part_holdArrived (hq : q ≠ .est) (h : Nat) (d : Dev) : (holdArrived h d).part q = d.part q := by
  unfold holdArrived
  split <;> simp [hq]

@[simp] theorem part_holdExpiry (hq : q ≠ .est) (h : Nat) (d : Dev) : (holdExpiry h d).part q = d.part q := by
  unfold holdExpiry
  split <;> simp [hq]

/-! ### Power -/

@[simp] theorem part_loseDram (hq : q ≠ .int) (d : Dev) : (loseDram d).part q = d.part q := by
  simp [loseDram, hq]

@[simp] theorem part_abandonTraining (d : Dev) : (abandonTraining d).part q = d.part q := by
  simp [abandonTraining]

@[simp] theorem part_stopTime (d : Dev) : (stopTime d).part q = d.part q := by
  simp [stopTime]

@[simp] theorem part_restartTime (d : Dev) : (restartTime d).part q = d.part q := by
  simp [restartTime]

@[simp] theorem part_loseRetention (d : Dev) : (loseRetention d).part q = d.part q := by
  simp [loseRetention]

@[simp] theorem part_checkRetention (d : Dev) : (checkRetention d).part q = d.part q := by
  simp [checkRetention]

@[simp] theorem part_endpointDefaults (d : Dev) : (endpointDefaults d).part q = d.part q := by
  simp [endpointDefaults]

@[simp] theorem part_abortSource (d : Dev) : (abortSource d).part q = d.part q := by
  simp [abortSource]

@[simp] theorem part_tornDirs (d : Dev) : (tornDirs d).part q = d.part q := by
  simp [tornDirs]

@[simp] theorem part_goDark (hq : q ≠ .pins ∧ q ≠ .spw ∧ q ≠ .int) (d : Dev) :
    (goDark d).part q = d.part q := by
  simp [goDark, hq]

@[simp] theorem part_startLink (d : Dev) : (startLink d).part q = d.part q := by
  simp [startLink]

@[simp] theorem part_goBoot (hq : q ≠ .spw ∧ q ≠ .enc ∧ q ≠ .rom ∧ q ≠ .est) (cause : Nat) (d : Dev) :
    (goBoot cause d).part q = d.part q := by
  simp [goBoot, hq]

/-! ### The curtain -/

@[simp] theorem part_milestone (m : Nat) (d : Dev) : (milestone m d).part q = d.part q := by
  simp [milestone]

@[simp] theorem part_abandonLink (keepCpls : Bool) (d : Dev) : (abandonLink keepCpls d).part q = d.part q := by
  simp [abandonLink]

@[simp] theorem part_cutHost (hq : q ≠ .int) (d : Dev) : (cutHost d).part q = d.part q := by
  simp [cutHost, hq]

@[simp] theorem part_refuseAll (hq : q ≠ .int) (d : Dev) : (refuseAll d).part q = d.part q := by
  simp [refuseAll, hq]

@[simp] theorem part_startCurtain (hq : q ≠ .int ∧ q ≠ .svc ∧ q ≠ .est) (k : CurtainKind) (d : Dev) :
    (startCurtain k d).part q = d.part q := by
  simp only [startCurtain]
  (repeat' split) <;> simp [hq]

@[simp] theorem part_failInCurtain (d : Dev) : (failInCurtain d).part q = d.part q := by
  simp [failInCurtain]

@[simp] theorem part_finishInFlight (hq : q ≠ .est) (d : Dev) : (finishInFlight d).part q = d.part q := by
  simp [finishInFlight, hq]

@[simp] theorem part_settlePorts (d : Dev) : (settlePorts d).part q = d.part q := by
  simp [settlePorts]

@[simp] theorem part_suspendErases (d : Dev) : (suspendErases d).part q = d.part q := by
  simp [suspendErases]

@[simp] theorem part_quiesceFlash (hq : q ≠ .est) (d : Dev) : (quiesceFlash d).part q = d.part q := by
  simp [quiesceFlash, hq]

@[simp] theorem part_flashPrepared (hq : q ≠ .est) (d : Dev) : (flashPrepared d).part q = d.part q := by
  simp [flashPrepared, hq]

@[simp] theorem part_listsWritten (d : Dev) : (listsWritten d).part q = d.part q := by
  simp [listsWritten]

@[simp] theorem part_tornLists (d : Dev) : (tornLists d).part q = d.part q := by
  simp [tornLists]

@[simp] theorem part_projection (used : Nat) (d : Dev) : (projection used d).part q = d.part q := by
  simp [projection]

theorem part_streamHeld {m : List Host.Cell} {b id : Nat} {d e : Dev}
    (he : streamHeld m b d = some (id, e)) :
    e.part q = d.part q := by
  unfold streamHeld at he
  simp only at he
  split at he <;> split at he
  · cases he
  · exact part_startRecord he
  · cases he
  · exact part_startRecord he

theorem part_streamUnack {m : List Host.Cell} {b id : Nat} {d e : Dev}
    (he : streamUnack m b d = some (id, e)) :
    e.part q = d.part q := by
  unfold streamUnack at he
  split at he
  · cases he
  · exact part_startRecord he

theorem part_streamNext {m : List Host.Cell} {b id : Nat} {d e : Dev}
    (he : streamNext m b d = some (id, e)) :
    e.part q = d.part q := by
  unfold streamNext at he
  split at he
  · cases he
  · split at he
    · next hs => exact part_streamHeld (hs.trans he)
    · exact part_streamUnack he

@[simp] theorem part_streamBlock (hq : q ≠ .est) (m : List Host.Cell) (b n : Nat) (d : Dev) :
    (streamBlock m b n d).part q = d.part q := by
  induction n generalizing d with
  | zero => rfl
  | succ n ih =>
    unfold streamBlock
    split
    · next hs => simp [ih, part_streamNext hs, hq]
    · rfl

@[simp] theorem part_dataStreamed (hq : q ≠ .est) (m : List Host.Cell) (d : Dev) :
    (dataStreamed m d).part q = d.part q := by
  simp [dataStreamed, hq]

@[simp] theorem part_sealBook (reason sealHt b : Nat) (d : Dev) :
    (sealBook reason sealHt b d).part q = d.part q := by
  unfold sealBook
  simp only
  split
  · rfl
  · next ht => simp [part_takeRoom ht]

@[simp] theorem part_sealBooks (reason : Nat) (d : Dev) : (sealBooks reason d).part q = d.part q := by
  simp [sealBooks]

@[simp] theorem part_markLost (d : Dev) : (markLost d).part q = d.part q := by
  simp [markLost]

@[simp] theorem part_loseUnstaged (d : Dev) : (loseUnstaged d).part q = d.part q := by
  simp [loseUnstaged]

@[simp] theorem part_tornBooks (d : Dev) : (tornBooks d).part q = d.part q := by
  simp [tornBooks]

@[simp] theorem part_booksSealed (d : Dev) : (booksSealed d).part q = d.part q := by
  simp [booksSealed]

@[simp] theorem part_sealUnpowered (hq : q ≠ .pins ∧ q ≠ .spw ∧ q ≠ .int) (d : Dev) :
    (sealUnpowered d).part q = d.part q := by
  simp [sealUnpowered, hq]

@[simp] theorem part_afterSeal (hq : q ≠ .spw ∧ q ≠ .enc ∧ q ≠ .rom ∧ q ≠ .est) (d : Dev) :
    (afterSeal d).part q = d.part q := by
  simp [afterSeal, hq]

@[simp] theorem part_dramPlaced (hq : q ≠ .pins ∧ q ≠ .spw ∧ q ≠ .int ∧ q ≠ .enc ∧ q ≠ .rom ∧ q ≠ .est)
    (d : Dev) :
    (dramPlaced d).part q = d.part q := by
  simp only [dramPlaced]
  (repeat' split) <;> simp [hq]

/-! ### The supply -/

@[simp] theorem part_intStep (hq : q ≠ .int) (i : Nat) (d : Dev) : (intStep i d).part q = d.part q := by
  simp [intStep, hq]

@[simp] theorem part_enterIntermission (hq : q ≠ .spw ∧ q ≠ .int ∧ q ≠ .svc ∧ q ≠ .est) (d : Dev) :
    (enterIntermission d).part q = d.part q := by
  simp [enterIntermission, hq]

@[simp] theorem part_row26Stop (hq : q ≠ .pins ∧ q ≠ .spw ∧ q ≠ .int) (d : Dev) :
    (row26Stop d).part q = d.part q := by
  simp [row26Stop, hq]

@[simp] theorem part_failRows (hq : q ≠ .pins ∧ q ≠ .spw ∧ q ≠ .int ∧ q ≠ .svc ∧ q ≠ .est) (d : Dev) :
    (failRows d).part q = d.part q := by
  unfold failRows
  split <;> simp [hq]

@[simp] theorem part_failAssert (hq : q ≠ .pins ∧ q ≠ .spw ∧ q ≠ .int ∧ q ≠ .svc ∧ q ≠ .est ∧ q ≠ .pkb)
    (mv : Nat) (d : Dev) :
    (failAssert mv d).part q = d.part q := by
  simp [failAssert, hq]

@[simp] theorem part_failRelease (hq : q ≠ .pins ∧ q ≠ .spw) (mv : Nat) (d : Dev) :
    (failRelease mv d).part q = d.part q := by
  simp [failRelease, hq]

@[simp] theorem part_warnAssert (hq : q ≠ .pins ∧ q ≠ .spw ∧ q ≠ .est) (mv : Nat) (d : Dev) :
    (warnAssert mv d).part q = d.part q := by
  simp [warnAssert, hq]

@[simp] theorem part_warnRelease (hq : q ≠ .pins ∧ q ≠ .spw) (mv : Nat) (d : Dev) :
    (warnRelease mv d).part q = d.part q := by
  simp [warnRelease, hq]

@[simp] theorem part_belowGood (hq : q ≠ .pins ∧ q ≠ .spw ∧ q ≠ .int) (mv : Nat) (d : Dev) :
    (belowGood mv d).part q = d.part q := by
  unfold belowGood
  dsimp only
  split
  · simp [hq]
  · split <;> simp [hq]

@[simp] theorem part_flashQuiesced (hq : q ≠ .int ∧ q ≠ .est) (d : Dev) :
    (flashQuiesced d).part q = d.part q := by
  simp [flashQuiesced, hq]

@[simp] theorem part_intLists (hq : q ≠ .int) (d : Dev) : (intLists d).part q = d.part q := by
  simp [intLists, hq]

@[simp] theorem part_selfRefresh (hq : q ≠ .int) (p : Dev × List Host.Cell) :
    (selfRefresh p).1.part q = p.1.part q := by
  simp only [selfRefresh]
  split <;> simp [hq]

@[simp] theorem part_intToCurtain (hq : q ≠ .spw ∧ q ≠ .int ∧ q ≠ .est) (cause exit : Nat) (d : Dev) :
    (intToCurtain cause exit d).part q = d.part q := by
  simp [intToCurtain, hq]

@[simp] theorem part_marginTest (hq : q ≠ .spw ∧ q ≠ .int ∧ q ≠ .est) (d : Dev) :
    (marginTest d).part q = d.part q := by
  simp [marginTest, hq]

@[simp] theorem part_retireLists (ids : List Nat) (d : Dev) : (retireLists ids d).part q = d.part q := by
  refine part_foldl (fun e id => ?_) _ _
  split <;> simp

@[simp] theorem part_intEndEvents (d : Dev) : (intEndEvents d).part q = d.part q := by
  simp [intEndEvents]

@[simp] theorem part_redoErases (d : Dev) : (redoErases d).part q = d.part q := by
  simp [redoErases]

@[simp] theorem part_leaveIntermission (hq : q ≠ .spw ∧ q ≠ .int ∧ q ≠ .svc ∧ q ≠ .est) (d : Dev) :
    (leaveIntermission d).part q = d.part q := by
  simp [leaveIntermission, hq]

@[simp] theorem part_resumeQual (hq : q ≠ .spw ∧ q ≠ .int ∧ q ≠ .enc ∧ q ≠ .svc ∧ q ≠ .rom ∧ q ≠ .est)
    (d : Dev) :
    (resumeQual d).part q = d.part q := by
  simp only [resumeQual]
  (repeat' split) <;> simp [hq]

@[simp] theorem part_openLaid (id : Nat) (d : Dev) : (openLaid id d).part q = d.part q := by
  unfold openLaid
  (repeat' split) <;> simp

@[simp] theorem part_senseCopies (n id : Nat) (d : Dev) : (senseCopies n id d).part q = d.part q := by
  induction n generalizing d with
  | zero => rfl
  | succ n ih =>
    unfold senseCopies
    simp only
    split
    · simp
    · simp [ih]

@[simp] theorem part_reloadPage (e : Nat × Page) (p : Dev × List Host.Cell) :
    (reloadPage e p).1.part q = p.1.part q := by
  simp only [reloadPage]
  split <;> simp

@[simp] theorem part_serveHeld (t : HeldTlp) (p : Dev × List Host.Cell) :
    (serveHeld t p).1.part q = p.1.part q := by
  simp only [serveHeld]
  split <;> simp

@[simp] theorem part_granuleFirst (hq : q ≠ .int) (a : Nat) (d : Dev) :
    (granuleFirst a d).part q = d.part q := by
  simp [granuleFirst, hq]

@[simp] theorem part_granuleReloaded (hq : q ≠ .int) (g : Nat) (p : Dev × List Host.Cell) :
    (granuleReloaded g p).1.part q = p.1.part q := by
  obtain ⟨d, m⟩ := p
  unfold granuleReloaded
  dsimp only
  split <;> simp [hq]

@[simp] theorem part_energyChanged (hq : q ≠ .spw ∧ q ≠ .int ∧ q ≠ .est) (d : Dev) :
    (energyChanged d).part q = d.part q := by
  simp [energyChanged, hq]

@[simp] theorem part_clearEstimator (hq : q ≠ .est) (d : Dev) : (clearEstimator d).part q = d.part q := by
  simp [clearEstimator, hq]

@[simp] theorem part_setBay (hq : q ≠ .pkb) (b : Bay) (d : Dev) : (setBay b d).part q = d.part q := by
  simp [setBay, hq]

@[simp] theorem part_packGone (hq : q ≠ .pins ∧ q ≠ .est ∧ q ≠ .pkb) (d : Dev) :
    (packGone d).part q = d.part q := by
  simp [packGone, hq]

@[simp] theorem part_packCollapse (hq : q ≠ .pins ∧ q ≠ .spw ∧ q ≠ .int ∧ q ≠ .est ∧ q ≠ .pkb) (removed : Bool)
    (d : Dev) :
    (packCollapse removed d).part q = d.part q := by
  unfold packCollapse
  dsimp only
  split <;> simp [hq]

@[simp] theorem part_fatalInCurtain (hq : q ≠ .pkb) (island : Nat) (d : Dev) :
    (fatalInCurtain island d).part q = d.part q := by
  simp [fatalInCurtain, hq]

@[simp] theorem part_cutEndpoint (island : Nat) (d : Dev) : (cutEndpoint island d).part q = d.part q := by
  simp [cutEndpoint]

@[simp] theorem part_chipFatal (hq : q ≠ .pins ∧ q ≠ .spw ∧ q ≠ .int ∧ q ≠ .svc ∧ q ≠ .est ∧ q ≠ .pkb)
    (island : Nat) (d : Dev) :
    (chipFatal island d).part q = d.part q := by
  simp only [chipFatal]
  (repeat' split) <;> simp [hq]

/-! ### Rings and descriptors -/

@[simp] theorem part_doorbellError (f ring value : Nat) (d : Dev) :
    (doorbellError f ring value d).part q = d.part q := by
  simp [doorbellError]

@[simp] theorem part_sqDoorbell (f n : Nat) (w : W32) (d : Dev) : (sqDoorbell f n w d).part q = d.part q := by
  simp [sqDoorbell]

@[simp] theorem part_cqDoorbell (f n : Nat) (w : W32) (d : Dev) : (cqDoorbell f n w d).part q = d.part q := by
  simp [cqDoorbell]

@[simp] theorem part_cfgError (f : Nat) (d : Dev) : (cfgError f d).part q = d.part q := by
  simp [cfgError]

@[simp] theorem part_idxSetUp (f : Nat) (d : Dev) : (idxSetUp f d).part q = d.part q := by
  simp [idxSetUp]

@[simp] theorem part_afterSetUp (hq : q ≠ .est) (was : Bool) (f : Nat) (d : Dev) :
    (afterSetUp was f d).part q = d.part q := by
  simp [afterSetUp, hq]

@[simp] theorem part_ringEnWrite (hq : q ≠ .est) (f : Nat) (side : RingSide) (n : Nat) (w : W32) (d : Dev) :
    (ringEnWrite f side n w d).part q = d.part q := by
  unfold ringEnWrite
  (repeat' split) <;> simp [hq]

@[simp] theorem part_coalesceTimer (f n : Nat) (d : Dev) : (coalesceTimer f n d).part q = d.part q := by
  simp [coalesceTimer]

@[simp] theorem part_vectorUnmask (f v : Nat) (d : Dev) : (vectorUnmask f v d).part q = d.part q := by
  simp [vectorUnmask]

@[simp] theorem part_tagTimeout (t : Nat) (g : Tag) (d : Dev) : (tagTimeout t g d).part q = d.part q := by
  simp [tagTimeout]

theorem part_hostFetch {f host len : Nat} {timedOut : Bool} {d e : Dev}
    (he : hostFetch f host len timedOut d = some e) :
    e.part q = d.part q := by
  unfold hostFetch at he
  split at he
  · cases he
  · rw [← Option.some.inj he]
    simp

@[simp] theorem part_takeEntry (hq : q ≠ .fetch) (f n : Nat) (e : SqEntry) (sgl : SglRead) (d : Dev) :
    (takeEntry f n e sgl d).2.part q = d.part q := by
  simp [takeEntry, hq]

@[simp] theorem part_xferNamed (x : Desc) (d : Dev) : (xferNamed x d).part q = d.part q := by
  simp [xferNamed]

@[simp] theorem part_turnAway (x : Desc) (st : Nat) (d : Dev) : (turnAway x st d).part q = d.part q := by
  simp [turnAway]

@[simp] theorem part_startDesc (x : Desc) (d : Dev) : (startDesc x d).part q = d.part q := by
  unfold startDesc
  split <;> simp

@[simp] theorem part_fetchOne (hq : q ≠ .fetch) (e : SqEntry) (sgl : SglRead) (d : Dev) :
    (fetchOne e sgl d).part q = d.part q := by
  unfold fetchOne
  dsimp only
  split
  · simp [hq]
  split
  · split
    · rfl
    split
    · rfl
    split
    · rfl
    · next _ e hl =>
      have hd : e.part q = d.part q := by
        split at hl
        · exact part_hostFetch hl
        · rw [Option.some.inj hl]
      simp [hd, hq]
  · rfl

@[simp] theorem part_begin (h : Nat) (admin : Bool) (op : Nat) (d : Dev) :
    (begin h admin op d).2.part q = d.part q := by
  unfold begin
  (repeat' split) <;> simp

@[simp] theorem part_inItsMode (x : Desc) (f : Dev → Dev) (d : Dev) (hf : ∀ e, (f e).part q = e.part q) :
    (inItsMode x f d).part q = d.part q := by
  unfold inItsMode
  split <;> simp [hf]

@[simp] theorem part_fnTrace (f st : Nat) (d : Dev) : (fnTrace f st d).part q = d.part q := by
  simp [fnTrace]

@[simp] theorem part_resetFn (hq : q ≠ .est) (f : Nat) (d : Dev) : (resetFn f d).part q = d.part q := by
  simp [resetFn, hq]

@[simp] theorem part_disableFn (hq : q ≠ .est) (f : Nat) (c : DisableCause) (d : Dev) :
    (disableFn f c d).part q = d.part q := by
  unfold disableFn
  split <;> simp [hq]

@[simp] theorem part_enableFn (hq : q ≠ .est) (f : Nat) (c : DisableCause) (d : Dev) :
    (enableFn f c d).part q = d.part q := by
  unfold enableFn
  split <;> simp [hq]

/-! ### Cache commands -/

@[simp] theorem part_issueFor (h n : Nat) (d : Dev) : (issueFor h n d).part q = d.part q := by
  induction n generalizing d with
  | zero => rfl
  | succ n ih =>
    unfold issueFor
    split
    · split
      · rfl
      · simp [ih]
    · rfl

@[simp] theorem part_issueReads (d : Dev) : (issueReads d).part q = d.part q := by
  simp [issueReads]

@[simp] theorem part_dropTag (t : Nat) (d : Dev) : (dropTag t d).part q = d.part q := by
  simp [dropTag]

@[simp] theorem part_healLines (a len : Nat) (d : Dev) : (healLines a len d).part q = d.part q := by
  simp [healLines]

@[simp] theorem part_endTimedOut (h : Nat) (d : Dev) : (endTimedOut h d).part q = d.part q := by
  unfold endTimedOut
  split <;> simp

@[simp] theorem part_readCompletion (t : Nat) (st : CplStatus) (data : List Byte) (p : Dev × List Host.Cell) :
    (readCompletion t st data p).1.part q = p.1.part q := by
  simp only [readCompletion]
  (repeat' split) <;> simp

@[simp] theorem part_completionTimeout (t : Nat) (d : Dev) : (completionTimeout t d).part q = d.part q := by
  unfold completionTimeout
  split <;> simp

@[simp] theorem part_quarantineEnd (t : Nat) (d : Dev) : (quarantineEnd t d).part q = d.part q := by
  unfold quarantineEnd
  split <;> simp

@[simp] theorem part_waitReload (hq : q ≠ .int) (a len : Nat) (d : Dev) :
    (waitReload a len d).part q = d.part q := by
  simp [waitReload, hq]

@[simp] theorem part_holdStart (hq : q ≠ .int) (h : Nat) (d : Dev) : (holdStart h d).part q = d.part q := by
  unfold holdStart
  split
  · next he => simp [part_of_pair (part_begin ..) he, hq]
  · next he => exact part_of_pair (part_begin ..) he

@[simp] theorem part_commitStart (hq : q ≠ .int ∧ q ≠ .est) (h : Nat) (d : Dev) :
    (commitStart h d).part q = d.part q := by
  unfold commitStart
  split
  · next he => simp [part_of_pair (part_begin ..) he, hq]
  · next he => exact part_of_pair (part_begin ..) he

@[simp] theorem part_releaseNotes (b f ht : Nat) (ps : List Nat) (keep : Bool) (d : Dev) :
    (releaseNotes b f ht ps keep d).2.part q = d.part q := by
  unfold releaseNotes
  dsimp only
  refine (part_foldl_snd (fun e r => ?_) _ _).trans ?_
  · simp
  · generalize (if keep then ps.filter _ else ps) = plain
    split <;> simp

@[simp] theorem part_releaseStart (hq : q ≠ .int ∧ q ≠ .est) (h : Nat) (p : Dev × List Host.Cell) :
    (releaseStart h p).1.part q = p.1.part q := by
  obtain ⟨d, m⟩ := p
  unfold releaseStart
  dsimp only
  split
  · next he => exact part_of_pair (part_begin ..) he
  · next he =>
    split
    · simp [part_of_pair (part_begin ..) he]
    split <;> simp [part_of_pair (part_begin ..) he, hq]

@[simp] theorem part_readStart (hq : q ≠ .int) (h : Nat) (m : List Host.Cell) (d : Dev) :
    (readStart h m d).part q = d.part q := by
  unfold readStart
  split
  · next he => exact part_of_pair (part_begin ..) he
  · next he => simp [part_of_pair (part_begin ..) he, hq]

@[simp] theorem part_fenceStart (h : Nat) (d : Dev) : (fenceStart h d).part q = d.part q := by
  unfold fenceStart
  split
  · next he => exact part_of_pair (part_begin ..) he
  · next he => simp [part_of_pair (part_begin ..) he]

@[simp] theorem part_nopStart (h : Nat) (d : Dev) : (nopStart h d).part q = d.part q := by
  unfold nopStart
  split
  · rfl
  split
  · next he => simp [part_of_pair (part_begin ..) he]
  · next he => exact part_of_pair (part_begin ..) he

/-! ### Keys and cipher -/

@[simp] theorem part_keyArrived (hq : q ≠ .enc) (s : Nat) (d : Dev) : (keyArrived s d).part q = d.part q := by
  simp [keyArrived, hq]

@[simp] theorem part_readBuffer (x : Desc) (len : Nat) (data : HostData) (go : List Byte → Dev → Dev) (d : Dev)
    (hgo : ∀ bs e, (go bs e).part q = e.part q) :
    (readBuffer x len data go d).part q = d.part q := by
  unfold readBuffer
  split
  · rfl
  · next hf => split <;> simp [hgo, part_hostFetch hf]

@[simp] theorem part_addVault (v : Vault) (d : Dev) : (addVault v d).part q = d.part q := by
  simp [addVault]

@[simp] theorem part_keyLoad (h : Nat) (data : HostData) (d : Dev) : (keyLoad h data d).part q = d.part q := by
  unfold keyLoad
  split
  · next he => exact part_of_pair (part_begin ..) he
  · next he =>
    refine (part_readBuffer _ _ _ _ _ fun bs e => ?_).trans (part_of_pair (part_begin ..) he)
    dsimp only
    split <;> simp

@[simp] theorem part_dropExtent (s ht : Nat) (d : Dev) (x : Extent) :
    (dropExtent s ht d x).part q = d.part q := by
  simp [dropExtent]

@[simp] theorem part_dropFn (s f : Nat) (p : Dev × List Host.Cell) : (dropFn s f p).1.part q = p.1.part q := by
  simp [dropFn]

@[simp] theorem part_refuseKeyHolds (f : Nat) (d : Dev) : (refuseKeyHolds f d).part q = d.part q := by
  simp [refuseKeyHolds]

@[simp] theorem part_eraseSlot (h s : Nat) (d : Dev) : (eraseSlot h s d).part q = d.part q := by
  simp [eraseSlot]

@[simp] theorem part_keyErase (hq : q ≠ .est) (h : Nat) (p : Dev × List Host.Cell) :
    (keyErase h p).1.part q = p.1.part q := by
  obtain ⟨d, m⟩ := p
  unfold keyErase
  dsimp only
  split
  · next he => exact part_of_pair (part_begin ..) he
  · next he =>
    have hd := part_of_pair (part_begin (q := q) ..) he
    split
    · simp [hd]
    split
    · simp [hd]
    split
    · simp [hd]
    split <;> simp [hd, hq]

@[simp] theorem part_takeKey (s : Nat) (v : Vault) (key : Nat) (d : Dev) :
    (takeKey s v key d).part q = d.part q := by
  simp [takeKey]

@[simp] theorem part_loadTakes (s : Nat) (v : Vault) (key : Nat) (d : Dev) :
    (loadTakes s v key d).part q = d.part q := by
  unfold loadTakes
  split <;> simp

@[simp] theorem part_vaultWritten (hq : q ≠ .enc ∧ q ≠ .est) (s : Nat) (d : Dev) :
    (vaultWritten s d).part q = d.part q := by
  unfold vaultWritten
  (repeat' split) <;> simp [hq]

@[simp] theorem part_clearWrapKey (d : Dev) : (clearWrapKey d).part q = d.part q := by
  simp [clearWrapKey]

@[simp] theorem part_wrapGo (d : Dev) : (wrapGo d).part q = d.part q := by
  simp [wrapGo]

/-! ### The host endpoint -/

@[simp] theorem part_noteDrop (f off cause : Nat) (isRead : Bool) (d : Dev) :
    (noteDrop f off cause isRead d).part q = d.part q := by
  simp [noteDrop]

@[simp] theorem part_logDrop (f off cause : Nat) (isRead : Bool) (d : Dev) :
    (logDrop f off cause isRead d).part q = d.part q := by
  simp [logDrop]

@[simp] theorem part_windowWrite (hq : q ≠ .int) (f off : Nat) (data : List Byte) (poisoned : Bool)
    (p : Dev × List Host.Cell) :
    (windowWrite f off data poisoned p).1.part q = p.1.part q := by
  simp only [windowWrite]
  (repeat' split) <;> simp [hq]

@[simp] theorem part_windowRead (hq : q ≠ .int) (f off len : Nat) (m : List Host.Cell) (d : Dev) :
    (windowRead f off len m d).part q = d.part q := by
  simp only [windowRead]
  (repeat' split) <;> simp [hq]

@[simp] theorem part_shadowWrite (w : RegWrite) (d : Dev) : (shadowWrite w d).part q = d.part q := by
  unfold shadowWrite
  split <;> simp

@[simp] theorem part_flipComplete (d : Dev) : (flipComplete d).part q = d.part q := by
  unfold flipComplete
  (repeat' split) <;> simp

@[simp] theorem part_endpointReset (hq : q ≠ .pins) (c : ResetCause) (d : Dev) :
    (endpointReset c d).part q = d.part q := by
  unfold endpointReset
  (repeat' split) <;> simp [hq]

@[simp] theorem part_rearmOnLink (hq : q ≠ .spw ∧ q ≠ .enc ∧ q ≠ .rom ∧ q ≠ .est) (d : Dev) :
    (rearmOnLink d).part q = d.part q := by
  simp [rearmOnLink, hq]

@[simp] theorem part_linkTrained (hq : q ≠ .spw ∧ q ≠ .enc ∧ q ≠ .rom ∧ q ≠ .est) (rate width : Nat) (d : Dev) :
    (linkTrained rate width d).part q = d.part q := by
  simp [linkTrained, hq]

@[simp] theorem part_hostLossRow (hq : q ≠ .int ∧ q ≠ .svc ∧ q ≠ .est) (d : Dev) :
    (hostLossRow d).part q = d.part q := by
  simp [hostLossRow, hq]

@[simp] theorem part_hostLoss (hq : q ≠ .int ∧ q ≠ .svc ∧ q ≠ .est) (d : Dev) :
    (hostLoss d).part q = d.part q := by
  simp [hostLoss, hq]

@[simp] theorem part_l1Idle (d : Dev) : (l1Idle d).part q = d.part q := by
  simp [l1Idle]

@[simp] theorem part_l0pInterval (pct : Nat) (d : Dev) : (l0pInterval pct d).part q = d.part q := by
  simp [l0pInterval]

/-! ### The estimator -/

/-- Stated of `estimate` itself: unfolded at a device, the kernel would run the energy integral. -/
theorem keeps_estimate (hq : q ≠ .est) : Keeps q estimate := by
  delta estimate
  refine Keeps.intro fun d => ?_
  cases availableEnergy d
  simp [hq]

@[simp] theorem part_estimate (hq : q ≠ .est) (d : Dev) : (estimate d).part q = d.part q :=
  keeps_estimate hq d

@[simp] theorem part_takeShadow (hq : q ≠ .est) (d : Dev) : (takeShadow d).part q = d.part q := by
  unfold takeShadow
  split <;> simp [hq]

@[simp] theorem part_applyCommit (hq : q ≠ .est) (d : Dev) : (applyCommit d).part q = d.part q := by
  simp only [applyCommit]
  (repeat' split) <;> simp [hq]

@[simp] theorem part_traceEstimate (d : Dev) : (traceEstimate d).part q = d.part q := by
  simp [traceEstimate]

@[simp] theorem part_estimatorUpdate (hq : q ≠ .spw ∧ q ≠ .int ∧ q ≠ .est) (d : Dev) :
    (estimatorUpdate d).part q = d.part q := by
  simp [estimatorUpdate, hq]

@[simp] theorem part_restSigma (s : Int) (d : Dev) : (restSigma s d).2.part q = d.part q := by
  simp only [restSigma]
  split <;> simp

@[simp] theorem part_restPoint (hq : q ≠ .est) (cellsUv : List Nat) (d : Dev) :
    (restPoint cellsUv d).part q = d.part q := by
  simp [restPoint, hq]

@[simp] theorem part_openWindow (hq : q ≠ .est) (d : Dev) : (openWindow d).part q = d.part q := by
  simp [openWindow, hq]

@[simp] theorem part_askWindow (hq : q ≠ .est) (d : Dev) : (askWindow d).part q = d.part q := by
  simp [askWindow, hq]

@[simp] theorem part_restDue (hq : q ≠ .spw ∧ q ≠ .int ∧ q ≠ .est) (d : Dev) :
    (restDue d).part q = d.part q := by
  simp [restDue, hq]

@[simp] theorem part_shareUpTo (hq : q ≠ .est) (ma tenths : Nat) (d : Dev) :
    (shareUpTo ma tenths d).part q = d.part q := by
  simp [shareUpTo, hq]

@[simp] theorem part_quotient (measured table : Nat) (d : Dev) :
    (quotient measured table d).2.part q = d.part q := by
  unfold quotient
  split <;> simp

@[simp] theorem part_probeEnd (hq : q ≠ .est) (zs zp tauMs : Nat) (d : Dev) :
    (probeEnd zs zp tauMs d).part q = d.part q := by
  simp [probeEnd, hq]

@[simp] theorem part_chgEnd (hq : q ≠ .est ∧ q ≠ .pkb) (d : Dev) : (chgEnd d).part q = d.part q := by
  simp [chgEnd, hq]

@[simp] theorem part_chgStep (hq : q ≠ .est ∧ q ≠ .pkb) (s : PackReading) (d : Dev) :
    (chgStep s d).part q = d.part q := by
  unfold chgStep
  split
  · simp [hq]
  split
  · simp [hq]
  dsimp only
  split <;> simp [hq]

@[simp] theorem part_startLearning (hq : q ≠ .est ∧ q ≠ .pkb) (d : Dev) :
    (startLearning d).part q = d.part q := by
  simp [startLearning, hq]

@[simp] theorem part_enterPhase (hq : q ≠ .est ∧ q ≠ .pkb) (n : Nat) (d : Dev) :
    (enterPhase n d).part q = d.part q := by
  simp [enterPhase, hq]

@[simp] theorem part_learnResult (hq : q ≠ .spw ∧ q ≠ .int ∧ q ≠ .est ∧ q ≠ .pkb) (d : Dev) :
    (learnResult d).part q = d.part q := by
  simp [learnResult, hq]

@[simp] theorem part_learnPhaseEnd (hq : q ≠ .spw ∧ q ≠ .int ∧ q ≠ .est ∧ q ≠ .pkb) (d : Dev) :
    (learnPhaseEnd d).part q = d.part q := by
  simp [learnPhaseEnd, hq]

/-! ### The pack bay -/

@[simp] theorem part_setAct (hq : q ≠ .pkb) (n : Nat) (on : Bool) (d : Dev) :
    (setAct n on d).part q = d.part q := by
  simp [setAct, hq]

@[simp] theorem part_raisePack (hq : q ≠ .est ∧ q ≠ .pkb) (n : Nat) (d : Dev) :
    (raisePack n d).part q = d.part q := by
  simp [raisePack, hq]

@[simp] theorem part_clearPack (hq : q ≠ .est ∧ q ≠ .pkb) (n : Nat) (d : Dev) :
    (clearPack n d).part q = d.part q := by
  simp [clearPack, hq]

@[simp] theorem part_disLimit (hq : q ≠ .est ∧ q ≠ .pkb) (d : Dev) : (disLimit d).part q = d.part q := by
  simp [disLimit, hq]

@[simp] theorem part_insertion (hq : q ≠ .spw ∧ q ≠ .int ∧ q ≠ .est ∧ q ≠ .pkb) (desc : List Byte) (mv : Nat)
    (d : Dev) :
    (insertion desc mv d).part q = d.part q := by
  simp [insertion, hq]

@[simp] theorem part_packSeated (hq : q ≠ .pins ∧ q ≠ .pkb) (d : Dev) : (packSeated d).part q = d.part q := by
  simp [packSeated, hq]

@[simp] theorem part_presenceDetect (hq : q ≠ .spw ∧ q ≠ .int ∧ q ≠ .est ∧ q ≠ .pkb) (desc : List Byte)
    (mv : Nat) (d : Dev) :
    (presenceDetect desc mv d).part q = d.part q := by
  simp [presenceDetect, hq]

@[simp] theorem part_firstEstimate (hq : q ≠ .est) (cellsUv : List Nat) (d : Dev) :
    (firstEstimate cellsUv d).part q = d.part q := by
  simp [firstEstimate, hq]

@[simp] theorem part_settleExpiry (hq : q ≠ .spw ∧ q ≠ .int ∧ q ≠ .est ∧ q ≠ .pkb) (cellsUv : List Nat)
    (d : Dev) :
    (settleExpiry cellsUv d).part q = d.part q := by
  simp [settleExpiry, hq]

@[simp] theorem part_removalRow (hq : q ≠ .spw ∧ q ≠ .int ∧ q ≠ .est) (d : Dev) :
    (removalRow d).part q = d.part q := by
  simp [removalRow, hq]

@[simp] theorem part_surpriseRemoval (hq : q ≠ .pins ∧ q ≠ .spw ∧ q ≠ .int ∧ q ≠ .est ∧ q ≠ .pkb) (d : Dev) :
    (surpriseRemoval d).part q = d.part q := by
  unfold surpriseRemoval
  (repeat' split) <;> simp [hq]

@[simp] theorem part_startRemoval (hq : q ≠ .est ∧ q ≠ .pkb) (d : Dev) :
    (startRemoval d).part q = d.part q := by
  simp [startRemoval, hq]

@[simp] theorem part_ignorePress (hq : q ≠ .pkb) (d : Dev) : (ignorePress d).part q = d.part q := by
  simp [ignorePress, hq]

@[simp] theorem part_reinsert (hq : q ≠ .spw ∧ q ≠ .int ∧ q ≠ .est ∧ q ≠ .pkb) (d : Dev) :
    (reinsert d).part q = d.part q := by
  simp [reinsert, hq]

@[simp] theorem part_buttonPress (hq : q ≠ .spw ∧ q ≠ .int ∧ q ≠ .est ∧ q ≠ .pkb) (d : Dev) :
    (buttonPress d).part q = d.part q := by
  unfold buttonPress
  (repeat' split) <;> simp [hq]

@[simp] theorem part_drainDone (hq : q ≠ .spw ∧ q ≠ .int ∧ q ≠ .est ∧ q ≠ .pkb) (d : Dev) :
    (drainDone d).part q = d.part q := by
  simp [drainDone, hq]

@[simp] theorem part_chgTimeout (hq : q ≠ .spw ∧ q ≠ .int ∧ q ≠ .est ∧ q ≠ .pkb) (d : Dev) :
    (chgTimeout d).part q = d.part q := by
  simp [chgTimeout, hq]

@[simp] theorem part_faultClear (hq : q ≠ .spw ∧ q ≠ .int ∧ q ≠ .est ∧ q ≠ .pkb) (mask : W32) (d : Dev) :
    (faultClear mask d).part q = d.part q := by
  simp [faultClear, hq]

@[simp] theorem part_readSensors (hq : q ≠ .est ∧ q ≠ .pkb) (s : PackReading) (d : Dev) :
    (readSensors s d).part q = d.part q := by
  simp [readSensors, hq]

@[simp] theorem part_countCharge (hq : q ≠ .est) (s : PackReading) (d : Dev) :
    (countCharge s d).part q = d.part q := by
  simp [countCharge, hq]

@[simp] theorem part_moveGauge (hq : q ≠ .est) (us : Nat) (d : Dev) : (moveGauge us d).part q = d.part q := by
  simp [moveGauge, hq]

@[simp] theorem part_endSecond (hq : q ≠ .est) (d : Dev) : (endSecond d).part q = d.part q := by
  simp [endSecond, hq]

@[simp] theorem part_endMinute (hq : q ≠ .est) (d : Dev) : (endMinute d).part q = d.part q := by
  simp [endMinute, hq]

@[simp] theorem part_timedFault (hq : q ≠ .est ∧ q ≠ .pkb) (n : Nat) (on : Bool) (onUs : Nat) (off : Bool)
    (offUs us : Nat) (d : Dev) :
    (timedFault n on onUs off offUs us d).part q = d.part q := by
  simp [timedFault, hq]

@[simp] theorem part_openSwitch (hq : q ≠ .pins ∧ q ≠ .spw ∧ q ≠ .int ∧ q ≠ .est ∧ q ≠ .pkb) (surprise : Bool)
    (d : Dev) :
    (openSwitch surprise d).part q = d.part q := by
  unfold openSwitch
  dsimp only
  split <;> simp [hq]

@[simp] theorem part_sampleFaults (hq : q ≠ .est ∧ q ≠ .pkb) (s : PackReading) (d : Dev) :
    (sampleFaults s d).part q = d.part q := by
  simp [sampleFaults, hq]

@[simp] theorem part_sampleLearning (hq : q ≠ .est) (d : Dev) : (sampleLearning d).part q = d.part q := by
  simp [sampleLearning, hq]

@[simp] theorem part_switchFaults (hq : q ≠ .pins ∧ q ≠ .spw ∧ q ≠ .int ∧ q ≠ .est ∧ q ≠ .pkb)
    (s : PackReading) (d : Dev) :
    (switchFaults s d).part q = d.part q := by
  simp [switchFaults, hq]

@[simp] theorem part_countCharger (hq : q ≠ .pkb) (s : PackReading) (d : Dev) :
    (countCharger s d).part q = d.part q := by
  simp [countCharger, hq]

@[simp] theorem part_sampleUpdate (hq : q ≠ .spw ∧ q ≠ .int ∧ q ≠ .est) (before d : Dev) :
    (sampleUpdate before d).part q = d.part q := by
  simp [sampleUpdate, hq]

@[simp] theorem part_packSample (hq : q ≠ .pins ∧ q ≠ .spw ∧ q ≠ .int ∧ q ≠ .est ∧ q ≠ .pkb) (s : PackReading)
    (d : Dev) :
    (packSample s d).part q = d.part q := by
  simp [packSample, hq]

/-! ### Rehearsals -/

@[simp] theorem part_startRehearsal (hq : q ≠ .est) (handle : Nat) (fromSlot : Bool) (d : Dev) :
    (startRehearsal handle fromSlot d).part q = d.part q := by
  simp [startRehearsal, hq]

@[simp] theorem part_rehearse (hq : q ≠ .est) (h : Nat) (d : Dev) : (rehearse h d).part q = d.part q := by
  unfold rehearse
  split
  · next he => exact part_of_pair (part_begin ..) he
  · next he => simp [part_of_pair (part_begin ..) he, hq]

@[simp] theorem part_rehSlot (hq : q ≠ .est) (d : Dev) : (rehSlot d).part q = d.part q := by
  simp [rehSlot, hq]

@[simp] theorem part_startTest (b : Nat) (d : Dev) (i : Nat) : (startTest b d i).part q = d.part q := by
  simp [startTest]

@[simp] theorem part_writeTest (b was now : Nat) (d : Dev) : (writeTest b was now d).part q = d.part q := by
  simp [writeTest]

@[simp] theorem part_burst (uj : Nat) (panic : Bool) (d : Dev) : (burst uj panic d).part q = d.part q := by
  simp [burst]

@[simp] theorem part_measured (d : Dev) : (measured d).2.part q = d.part q := by
  unfold measured
  split <;> simp

@[simp] theorem part_burstRateOf (d : Dev) : (burstRateOf d).2.part q = d.part q := by
  unfold burstRateOf
  split <;> simp

@[simp] theorem part_rehComplete (hq : q ≠ .est ∧ q ≠ .pkb) (d : Dev) : (rehComplete d).part q = d.part q := by
  simp only [rehComplete]
  (repeat' split) <;> simp [hq]

@[simp] theorem part_ebyteReset (hq : q ≠ .spw ∧ q ≠ .int ∧ q ≠ .est ∧ q ≠ .pkb) (d : Dev) :
    (ebyteReset d).part q = d.part q := by
  simp [ebyteReset, hq]

/-! ### Admin commands -/

@[simp] theorem part_enterService (hq : q ≠ .svc ∧ q ≠ .est) (x : Desc) (drained : Nat) (d : Dev) :
    (enterService x drained d).part q = d.part q := by
  simp [enterService, hq]

@[simp] theorem part_serviceReady (hq : q ≠ .svc ∧ q ≠ .est) (d : Dev) :
    (serviceReady d).part q = d.part q := by
  unfold serviceReady
  (repeat' split) <;> simp [hq]

@[simp] theorem part_serviceEnter (hq : q ≠ .svc ∧ q ≠ .est) (h : Nat) (d : Dev) :
    (serviceEnter h d).part q = d.part q := by
  unfold serviceEnter
  split
  · next he => exact part_of_pair (part_begin ..) he
  · next he => simp [part_of_pair (part_begin ..) he, hq]

@[simp] theorem part_leaveService (hq : q ≠ .spw ∧ q ≠ .enc ∧ q ≠ .svc ∧ q ≠ .rom ∧ q ≠ .est) (reboot : Bool)
    (d : Dev) :
    (leaveService reboot d).part q = d.part q := by
  simp [leaveService, hq]

@[simp] theorem part_serviceExit (hq : q ≠ .spw ∧ q ≠ .enc ∧ q ≠ .svc ∧ q ≠ .rom ∧ q ≠ .est) (h : Nat)
    (d : Dev) :
    (serviceExit h d).part q = d.part q := by
  unfold serviceExit
  split
  · next he => exact part_of_pair (part_begin ..) he
  · next he => simp [part_of_pair (part_begin ..) he, hq]

@[simp] theorem part_plannedCurtain (hq : q ≠ .int ∧ q ≠ .svc ∧ q ≠ .est) (h : Nat) (d : Dev) :
    (plannedCurtain h d).part q = d.part q := by
  unfold plannedCurtain
  split
  · next he => exact part_of_pair (part_begin ..) he
  · next he => simp [part_of_pair (part_begin ..) he, hq]

@[simp] theorem part_fnReset (hq : q ≠ .est) (h : Nat) (d : Dev) : (fnReset h d).part q = d.part q := by
  unfold fnReset
  split
  · next he => exact part_of_pair (part_begin ..) he
  · next he => simp [part_of_pair (part_begin ..) he, hq]

@[simp] theorem part_packParamLoad (hq : q ≠ .est) (h : Nat) (data : HostData) (d : Dev) :
    (packParamLoad h data d).part q = d.part q := by
  unfold packParamLoad
  split
  · next he => exact part_of_pair (part_begin ..) he
  · next he => simp [part_of_pair (part_begin ..) he, hq]

@[simp] theorem part_packParamCommit (hq : q ≠ .est) (h : Nat) (d : Dev) :
    (packParamCommit h d).part q = d.part q := by
  unfold packParamCommit
  split
  · next he => exact part_of_pair (part_begin ..) he
  · next he => simp [part_of_pair (part_begin ..) he, hq]

@[simp] theorem part_packParamRead (hq : q ≠ .est) (h : Nat) (d : Dev) :
    (packParamRead h d).part q = d.part q := by
  unfold packParamRead
  split
  · next he => exact part_of_pair (part_begin ..) he
  · next he => simp [part_of_pair (part_begin ..) he, hq]

@[simp] theorem part_learnStart (hq : q ≠ .est ∧ q ≠ .pkb) (h : Nat) (d : Dev) :
    (learnStart h d).part q = d.part q := by
  unfold learnStart
  split
  · next he => exact part_of_pair (part_begin ..) he
  · next he => simp [part_of_pair (part_begin ..) he, hq]

/-! ### Units that ports have laid down -/

@[simp] theorem part_insertLaid (r : Rec) (d : Dev) : (insertLaid r d).part q = d.part q := by
  unfold insertLaid
  split <;> simp

@[simp] theorem part_adoptUnit (d : Dev) (e : FUnit × List Byte) : (adoptUnit d e).part q = d.part q := by
  simp [adoptUnit]

@[simp] theorem part_adoptLaid (d : Dev) : (adoptLaid d).part q = d.part q := by
  simp [adoptLaid]

/-! ### The time base -/

@[simp] theorem part_traceTime (d : Dev) : (traceTime d).part q = d.part q := by
  simp [traceTime]

@[simp] theorem part_holdFrequency (d : Dev) : (holdFrequency d).part q = d.part q := by
  simp [holdFrequency]

@[simp] theorem part_tracingTime (f : Dev → Dev) (d : Dev) (hf : ∀ e, (f e).part q = e.part q) :
    (tracingTime f d).part q = d.part q := by
  simp [tracingTime, hf]

@[simp] theorem part_stepForward (target : Nat) (d : Dev) : (stepForward target d).part q = d.part q := by
  simp [stepForward]

@[simp] theorem part_steer (target : Int) (d : Dev) : (steer target d).part q = d.part q := by
  simp [steer]

@[simp] theorem part_setHt (w : W64) (d : Dev) : (setHt w d).part q = d.part q := by
  simp [setHt]

@[simp] theorem part_setEpoch (w : W64) (d : Dev) : (setEpoch w d).part q = d.part q := by
  simp [setEpoch]

@[simp] theorem part_tmbCtlWrite (x : W32) (d : Dev) : (tmbCtlWrite x d).part q = d.part q := by
  simp [tmbCtlWrite]

@[simp] theorem part_referenceTarget (target : Int) (d : Dev) :
    (referenceTarget target d).part q = d.part q := by
  simp [referenceTarget]

@[simp] theorem part_ppsEdge (falling : Bool) (d : Dev) : (ppsEdge falling d).part q = d.part q := by
  simp [ppsEdge]

@[simp] theorem part_ptmSecond (target : Int) (d : Dev) : (ptmSecond target d).part q = d.part q := by
  simp [ptmSecond]

@[simp] theorem part_ptmRequest (reply : Option Nat) (d : Dev) : (ptmRequest reply d).part q = d.part q := by
  simp only [ptmRequest]
  (repeat' split) <;> simp

@[simp] theorem part_ppsOutEdge (hq : q ≠ .pins) (d : Dev) : (ppsOutEdge d).part q = d.part q := by
  simp [ppsOutEdge, hq]

@[simp] theorem part_adoptEpoch (id : Nat) (d : Dev) : (adoptEpoch id d).part q = d.part q := by
  simp [adoptEpoch]

@[simp] theorem part_followCue (p : Nat) (c : CueFrame) (x : Nat × Nat × Nat × Nat) (d : Dev) :
    (followCue p c x d).part q = d.part q := by
  simp [followCue]

@[simp] theorem part_answerCue (p : Nat) (c : CueFrame) (t2 : Nat) (d : Dev) :
    (answerCue p c t2 d).part q = d.part q := by
  simp [answerCue]

@[simp] theorem part_answerManager (p : Nat) (c : CueFrame) (d : Dev) :
    (answerManager p c d).part q = d.part q := by
  simp [answerManager]

@[simp] theorem part_leadFromCue (c : CueFrame) (d : Dev) : (leadFromCue c d).part q = d.part q := by
  simp [leadFromCue]

@[simp] theorem part_sideCue (p : Nat) (c : CueFrame) (d : Dev) : (sideCue p c d).part q = d.part q := by
  simp [sideCue]

@[simp] theorem part_rejectCue (p : Nat) (d : Dev) : (rejectCue p d).part q = d.part q := by
  simp [rejectCue]

@[simp] theorem part_cue (p : Nat) (c : CueFrame) (d : Dev) : (cue p c d).part q = d.part q := by
  unfold cue
  (repeat' split) <;> simp

@[simp] theorem part_holdover (d : Dev) : (holdover d).part q = d.part q := by
  simp [holdover]

/-! ### Boot -/

@[simp] theorem part_takeRole (d : Dev) : (takeRole d).part q = d.part q := by
  simp [takeRole]

@[simp] theorem part_testPinFault (d : Dev) : (testPinFault d).part q = d.part q := by
  simp [testPinFault]

@[simp] theorem part_vaux3Loss (hq : q ≠ .pins) (d : Dev) : (vaux3Loss d).part q = d.part q := by
  simp [vaux3Loss, hq]

@[simp] theorem part_vaux3Return (hq : q ≠ .pins) (d : Dev) : (vaux3Return d).part q = d.part q := by
  simp [vaux3Return, hq]

@[simp] theorem part_twinSelected (hq : q ≠ .board ∧ q ≠ .rom) (d : Dev) :
    (twinSelected d).part q = d.part q := by
  unfold twinSelected
  split
  · rfl
  · split <;> simp [hq]

@[simp] theorem part_holdOut (b : Nat) (d : Dev) : (holdOut b d).part q = d.part q := by
  simp [holdOut]

@[simp] theorem part_moduleStep (cap0 : Nat) (ms : List ModuleFound) (d : Dev) (b : Nat) :
    (moduleStep cap0 ms d b).part q = d.part q := by
  simp [moduleStep]

@[simp] theorem part_checkEByte (hq : q ≠ .est ∧ q ≠ .pkb) (d : Dev) : (checkEByte d).part q = d.part q := by
  unfold checkEByte
  split <;> simp [hq]

@[simp] theorem part_modulesTrained (hq : q ≠ .board ∧ q ≠ .rom ∧ q ≠ .est ∧ q ≠ .pkb) (ms : List ModuleFound)
    (d : Dev) :
    (modulesTrained ms d).part q = d.part q := by
  simp [modulesTrained, hq]

@[simp] theorem part_redoIntents (d : Dev) : (redoIntents d).part q = d.part q := by
  simp [redoIntents]

@[simp] theorem part_eraseSince (b seq : Nat) (d : Dev) : (eraseSince b seq d).part q = d.part q := by
  simp [eraseSince]

@[simp] theorem part_undoTransfer (d : Dev) : (undoTransfer d).part q = d.part q := by
  unfold undoTransfer
  split <;> simp

@[simp] theorem part_writeKeptNotes (d : Dev) : (writeKeptNotes d).part q = d.part q := by
  unfold writeKeptNotes
  split <;> simp

@[simp] theorem part_bindSlot (d : Dev) (s : Nat) : (bindSlot d s).part q = d.part q := by
  unfold bindSlot
  (repeat' split) <;> simp

@[simp] theorem part_createEpoch (d : Dev) : (createEpoch d).part q = d.part q := by
  simp [createEpoch]

@[simp] theorem part_loadCurtainRegs (d : Dev) : (loadCurtainRegs d).part q = d.part q := by
  unfold loadCurtainRegs
  split <;> simp

@[simp] theorem part_checkVersion (d : Dev) (b : Nat) : (checkVersion d b).part q = d.part q := by
  simp [checkVersion]

@[simp] theorem part_flashReady (hq : q ≠ .rom) (d : Dev) : (flashReady d).part q = d.part q := by
  simp [flashReady, hq]

@[simp] theorem part_spwThresh (hq : q ≠ .spw) (w : W32) (d : Dev) : (spwThresh w d).part q = d.part q := by
  simp [spwThresh, hq]

/-! ### The encore -/

@[simp] theorem part_encMilestone (hq : q ≠ .enc) (e : Nat) (d : Dev) :
    (encMilestone e d).part q = d.part q := by
  simp [encMilestone, hq]

@[simp] theorem part_rcnMilestone (hq : q ≠ .enc) (c : Nat) (d : Dev) :
    (rcnMilestone c d).part q = d.part q := by
  simp [rcnMilestone, hq]

@[simp] theorem part_imageLocated (hq : q ≠ .int ∧ q ≠ .enc) (p : Dev × List Host.Cell) :
    (imageLocated p).1.part q = p.1.part q := by
  simp only [imageLocated]
  (repeat' split) <;> simp [hq]

@[simp] theorem part_resumeNonce (d : Dev) (s : Nat) : (resumeNonce d s).part q = d.part q := by
  unfold resumeNonce
  (repeat' split) <;> simp

@[simp] theorem part_headersScanned (hq : q ≠ .enc) (d : Dev) : (headersScanned d).part q = d.part q := by
  simp [headersScanned, hq]

@[simp] theorem part_enterExtent (x : Extent) (d : Dev) : (enterExtent x d).2.part q = d.part q := by
  simp only [enterExtent]
  split <;> simp

@[simp] theorem part_enterLegacy (x : Extent) (d : Dev) : (enterLegacy x d).part q = d.part q := by
  simp [enterLegacy]

@[simp] theorem part_placeWinner (rs : List Rec) (d : Dev) (p : Nat) :
    (placeWinner rs d p).part q = d.part q := by
  simp only [placeWinner]
  (repeat' split) <;> simp

@[simp] theorem part_addEntry (hq : q ≠ .enc) (o : OrderEntry) (d : Dev) :
    (addEntry o d).part q = d.part q := by
  simp [addEntry, hq]

@[simp] theorem part_resolveEntry (hq : q ≠ .enc) (rs : List Rec) (head : Rec) (l : CallList) (d : Dev)
    (e : ListEntry) :
    (resolveEntry rs head l d e).part q = d.part q := by
  unfold resolveEntry
  (repeat' split) <;> simp [hq]

@[simp] theorem part_rangeReport (b first last bytes : Nat) (fs : List Nat) (d : Dev) :
    (rangeReport b first last bytes fs d).part q = d.part q := by
  simp [rangeReport]

@[simp] theorem part_resolveList (hq : q ≠ .enc) (rs : List Rec) (d : Dev) (e : Rec × CallList) :
    (resolveList rs d e).part q = d.part q := by
  simp [resolveList, hq]

@[simp] theorem part_unsealedRegs (d : Dev) : (unsealedRegs d).part q = d.part q := by
  simp [unsealedRegs]

@[simp] theorem part_refreshStatus (hq : q ≠ .enc) (d : Dev) : (refreshStatus d).part q = d.part q := by
  simp [refreshStatus, hq]

@[simp] theorem part_settleFns (d : Dev) : (settleFns d).part q = d.part q := by
  simp [settleFns]

@[simp] theorem part_winnersChosen (hq : q ≠ .enc) (d : Dev) : (winnersChosen d).part q = d.part q := by
  simp [winnersChosen, hq]

@[simp] theorem part_writeUnack (id : Nat) (p : Dev × List Host.Cell) :
    (writeUnack id p).1.part q = p.1.part q := by
  simp only [writeUnack]
  split <;> simp

@[simp] theorem part_restoreFn (hq : q ≠ .enc) (f : Nat) (p : Dev × List Host.Cell) :
    (restoreFn f p).1.part q = p.1.part q := by
  obtain ⟨d, m⟩ := p
  unfold restoreFn
  dsimp only
  split
  · rfl
  · simp [hq]
    refine (part_foldl (fun e id => ?_) _ _).trans (by simp)
    split <;> simp

@[simp] theorem part_blockRestored (hq : q ≠ .enc) (b : Nat) (d : Dev) :
    (blockRestored b d).part q = d.part q := by
  simp [blockRestored, hq]

@[simp] theorem part_sendSummary (d : Dev) : (sendSummary d).part q = d.part q := by
  simp [sendSummary]

@[simp] theorem part_raiseHt (d : Dev) : (raiseHt d).part q = d.part q := by
  simp [raiseHt]

@[simp] theorem part_encoreComplete (hq : q ≠ .enc ∧ q ≠ .est) (d : Dev) :
    (encoreComplete d).part q = d.part q := by
  simp [encoreComplete, hq]

@[simp] theorem part_takePlaces (hq : q ≠ .enc) (places : List (Nat × OrderPlace)) (unmerged : Bool) (d : Dev) :
    (takePlaces places unmerged d).part q = d.part q := by
  simp [takePlaces, hq]

@[simp] theorem part_mergeLocal (hq : q ≠ .enc) (unmerged : Bool) (d : Dev) :
    (mergeLocal unmerged d).part q = d.part q := by
  simp [mergeLocal, hq]

@[simp] theorem part_sendResults (n dst first : Nat) (ps : List OrderPlace) (d : Dev) :
    (sendResults n dst first ps d).part q = d.part q := by
  induction n generalizing first ps d with
  | zero => rfl
  | succ n ih => simp [sendResults, ih]

@[simp] theorem part_mergeAll (hq : q ≠ .enc) (d : Dev) : (mergeAll d).part q = d.part q := by
  simp [mergeAll, hq]

@[simp] theorem part_mergeComplete (hq : q ≠ .enc) (d : Dev) : (mergeComplete d).part q = d.part q := by
  simp [mergeComplete, hq]

@[simp] theorem part_reconcileTimeout (hq : q ≠ .enc) (d : Dev) : (reconcileTimeout d).part q = d.part q := by
  simp [reconcileTimeout, hq]

@[simp] theorem part_writeLossNotes (hq : q ≠ .enc) (d : Dev) : (writeLossNotes d).part q = d.part q := by
  unfold writeLossNotes
  simp only [Dev.part_mk, Part.pick_enc hq]
  refine part_foldl (fun e n => ?_) _ _
  split <;> simp

@[simp] theorem part_takeRestage (d : Dev) : (takeRestage d).part q = d.part q := by
  simp [takeRestage]

@[simp] theorem part_orderStoreWritten (hq : q ≠ .enc ∧ q ≠ .est) (d : Dev) :
    (orderStoreWritten d).part q = d.part q := by
  simp [orderStoreWritten, hq]

@[simp] theorem part_releaseOrder (hq : q ≠ .enc) (f : Nat) (d : Dev) :
    (releaseOrder f d).part q = d.part q := by
  simp [releaseOrder, hq]

@[simp] theorem part_orderRead (hq : q ≠ .enc) (h : Nat) (d : Dev) : (orderRead h d).part q = d.part q := by
  unfold orderRead
  split
  · next he => exact part_of_pair (part_begin ..) he
  · next he => simp [part_of_pair (part_begin ..) he, hq]

/-! ### Faults -/

@[simp] theorem part_lostEarly (hq : q ≠ .enc) (lostRec : Nat → Bool) (d : Dev) :
    (lostEarly lostRec d).part q = d.part q := by
  simp [lostEarly, hq]

@[simp] theorem part_writeAmendment (b : Nat) (d : Dev) : (writeAmendment b d).part q = d.part q := by
  unfold writeAmendment
  split <;> simp

@[simp] theorem part_curtainFault (d : Dev) : (curtainFault d).part q = d.part q := by
  simp [curtainFault]

@[simp] theorem part_loseRecords (hq : q ≠ .enc) (b : Nat) (lostRec : Nat → Bool) (d : Dev) :
    (loseRecords b lostRec d).part q = d.part q := by
  unfold loseRecords
  split <;> simp [hq]

@[simp] theorem part_loseUnread (hq : q ≠ .enc) (b : Nat) (f : Dev → Dev) (d : Dev)
    (hf : ∀ e, (f e).part q = e.part q) :
    (loseUnread b f d).part q = d.part q := by
  simp [loseUnread, hq, hf]

@[simp] theorem part_reissueStranded (hq : q ≠ .int) (b : Nat) (d : Dev) :
    (reissueStranded b d).part q = d.part q := by
  simp [reissueStranded, hq]

@[simp] theorem part_failPath (hq : q ≠ .int) (b code : Nat) (d : Dev) :
    (failPath b code d).part q = d.part q := by
  simp [failPath, hq]

@[simp] theorem part_dropErases (hq : q ≠ .est) (c : Nat) (t : Nat → Bool) (d : Dev) :
    (dropErases c t d).part q = d.part q := by
  simp [dropErases, hq]

@[simp] theorem part_failCell (hq : q ≠ .int ∧ q ≠ .enc ∧ q ≠ .est) (c : Nat) (d : Dev) :
    (failCell c d).part q = d.part q := by
  simp [failCell, hq]

@[simp] theorem part_cellStops (hq : q ≠ .int ∧ q ≠ .enc ∧ q ≠ .est) (c code : Nat) (d : Dev) :
    (cellStops c code d).part q = d.part q := by
  simp [cellStops, hq]

@[simp] theorem part_targetDead (hq : q ≠ .int ∧ q ≠ .enc ∧ q ≠ .est) (c t : Nat) (sensable : Bool) (d : Dev) :
    (targetDead c t sensable d).part q = d.part q := by
  simp [targetDead, hq]

@[simp] theorem part_pipeFault (hq : q ≠ .int ∧ q ≠ .est) (b p : Nat) (d : Dev) :
    (pipeFault b p d).part q = d.part q := by
  simp [pipeFault, hq]

@[simp] theorem part_breakBlock (hq : q ≠ .int ∧ q ≠ .enc ∧ q ≠ .est) (b : Nat) (c : BlockCause) (d : Dev) :
    (breakBlock b c d).part q = d.part q := by
  unfold breakBlock
  split <;> simp [hq]

@[simp] theorem part_crossSave (hq : q ≠ .int ∧ q ≠ .enc ∧ q ≠ .est) (b : Nat) (c : BlockCause) (d : Dev) :
    (crossSave b c d).part q = d.part q := by
  simp [crossSave, hq]

@[simp] theorem part_lossNotes (b : Nat) (own : Bool) (out : List Nat) (xs : List Extent) (d : Dev) :
    (lossNotes b own out xs d).part q = d.part q := by
  simp only [lossNotes]
  split <;> simp

@[simp] theorem part_reportLost (d : Dev) (x : Extent) : (reportLost d x).part q = d.part q := by
  simp [reportLost]

@[simp] theorem part_endFencedDescs (b : Nat) (d : Dev) : (endFencedDescs b d).part q = d.part q := by
  simp [endFencedDescs]

@[simp] theorem part_loseUnsaved (b : Nat) (d : Dev) : (loseUnsaved b d).part q = d.part q := by
  simp [loseUnsaved]

@[simp] theorem part_fenceBlock (hq : q ≠ .int) (b code cause detail : Nat) (own : Bool) (out : List Nat)
    (d : Dev) :
    (fenceBlock b code cause detail own out d).part q = d.part q := by
  simp [fenceBlock, hq]

@[simp] theorem part_fenceRegion (hq : q ≠ .int) (g code : Nat) (own : Bool) (d : Dev) :
    (fenceRegion g code own d).part q = d.part q := by
  simp only [fenceRegion]
  split <;> simp [hq]

@[simp] theorem part_fenceWithPartner (hq : q ≠ .int) (b : Nat) (own : Bool) (d : Dev) :
    (fenceWithPartner b own d).part q = d.part q := by
  simp [fenceWithPartner, hq]

@[simp] theorem part_fence (hq : q ≠ .int ∧ q ≠ .enc ∧ q ≠ .est) (b : Nat) (c : FenceCause) (d : Dev) :
    (fence b c d).part q = d.part q := by
  unfold fence
  (repeat' split) <;> simp [hq]

/-! ### The DRAM controllers -/

@[simp] theorem part_uncorrectable (hq : q ≠ .int ∧ q ≠ .enc ∧ q ≠ .est) (addr port : Nat) (d : Dev) :
    (uncorrectable addr port d).part q = d.part q := by
  simp [uncorrectable, hq]

@[simp] theorem part_refreshDue (b : Nat) (idle : Bool) (d : Dev) :
    (refreshDue b idle d).part q = d.part q := by
  simp [refreshDue]

@[simp] theorem part_mr4Poll (b rate : Nat) (d : Dev) : (mr4Poll b rate d).part q = d.part q := by
  simp [mr4Poll]

@[simp] theorem part_traceFsp (d : Dev) : (traceFsp d).part q = d.part q := by
  simp [traceFsp]

@[simp] theorem part_startSwitch (d : Dev) : (startSwitch d).part q = d.part q := by
  simp [startSwitch]

@[simp] theorem part_stepEnd (b : Nat) (d : Dev) : (stepEnd b d).part q = d.part q := by
  simp [stepEnd]

@[simp] theorem part_fspRequest (w : W32) (d : Dev) : (fspRequest w d).part q = d.part q := by
  simp [fspRequest]

@[simp] theorem part_switchDone (d : Dev) : (switchDone d).part q = d.part q := by
  simp [switchDone]

/-! ### Image transfers -/

@[simp] theorem part_xferComplete (hq : q ≠ .svc) (status : Nat) (d : Dev) :
    (xferComplete status d).part q = d.part q := by
  simp only [xferComplete]
  split <;> simp [hq]

@[simp] theorem part_endTransfer (hq : q ≠ .svc) (status cause : Nat) (d : Dev) :
    (endTransfer status cause d).part q = d.part q := by
  simp [endTransfer, hq]

@[simp] theorem part_sendAbort (status : Nat) (d : Dev) : (sendAbort status d).part q = d.part q := by
  simp [sendAbort]

@[simp] theorem part_peerSerial (i : Nat) (d : Dev) : (peerSerial i d).2.part q = d.part q := by
  unfold peerSerial
  split <;> simp

@[simp] theorem part_imageTransfer (h : Nat) (d : Dev) : (imageTransfer h d).part q = d.part q := by
  unfold imageTransfer
  split
  · next he => exact part_of_pair (part_begin ..) he
  · next x e he =>
    rw [← part_of_pair (part_begin ..) he]
    split
    · rfl
    refine part_inItsMode _ _ _ fun e => ?_
    dsimp only
    split
    · simp
    split
    · simp
    split
    · simp
    split
    · simp
    split
    · simp
    · next ho => simp [part_openStripe ho]

theorem part_landRoom {r : Rec} {headLen : Nat} {d e : Dev} {p : Nat × Nat × Nat × Nat}
    (he : landRoom r headLen d = some (p, e)) : e.part q = d.part q := by
  unfold landRoom at he
  simp only at he
  split at he
  · cases he; rfl
  · exact part_takeRoom he

theorem part_landRecord {r : Rec} {head : List Byte} {d e : Dev} (he : landRecord r head d = some e) :
    e.part q = d.part q := by
  unfold landRecord at he
  simp only at he
  split at he
  · cases he
  · next hr =>
    cases Option.some.inj he
    simp [part_landRoom hr]

theorem part_landItem {c : XferContent} {d e : Dev} (he : landItem c d = .inl e) : e.part q = d.part q := by
  unfold landItem at he
  split at he
  · split at he
    · cases he
    · cases he; simp
  · cases he; simp
  · split at he
    · cases he
    · split at he
      · next hr => cases he; exact part_landRecord hr
      · cases he

/-- The device after the items landed, whether all did or one was refused. -/
def landedDev : Dev ⊕ (Dev × Nat × Nat) → Dev
  | .inl d => d
  | .inr e => e.1

theorem part_landItems (cs : List XferContent) (d : Dev) : (landedDev (landItems cs d)).part q = d.part q := by
  induction cs generalizing d with
  | nil => rfl
  | cons c cs ih =>
    unfold landItems
    split
    · next hc => exact (ih _).trans (part_landItem hc)
    · rfl

@[simp] theorem part_sendChunkAck (d : Dev) : (sendChunkAck d).part q = d.part q := by
  simp [sendChunkAck]

@[simp] theorem part_chunkFails (hq : q ≠ .svc) (d : Dev) : (chunkFails d).part q = d.part q := by
  simp [chunkFails, hq]

@[simp] theorem part_takeChunk (hq : q ≠ .svc) (c : XferChunk) (d : Dev) :
    (takeChunk c d).part q = d.part q := by
  unfold takeChunk
  split
  · rfl
  split
  · simp
  split
  · simp [hq]
  have hl := part_landItems (q := q) c.content d
  split
  · next he => rw [he] at hl; simpa [hq, landedDev] using hl
  · next he => rw [he] at hl; simpa [landedDev] using hl

@[simp] theorem part_closeTransfer (hq : q ≠ .svc) (d : Dev) : (closeTransfer d).part q = d.part q := by
  simp [closeTransfer, hq]

@[simp] theorem part_closeFrame (hq : q ≠ .svc) (h : FrameIn) (count : Nat) (crc : W32) (d : Dev) :
    (closeFrame h count crc d).part q = d.part q := by
  simp [closeFrame, hq]

@[simp] theorem part_sendChunk (n : Nat) (d : Dev) : (sendChunk n d).part q = d.part q := by
  simp [sendChunk]

@[simp] theorem part_pump (n : Nat) (d : Dev) : (pump n d).part q = d.part q := by
  induction n generalizing d with
  | zero => rfl
  | succ n ih => simp [pump, ih]

@[simp] theorem part_openSource (f : XferOpenFrame) (d : Dev) : (openSource f d).part q = d.part q := by
  simp [openSource]

@[simp] theorem part_chunkAck (n : Nat) (d : Dev) : (chunkAck n d).part q = d.part q := by
  simp [chunkAck]

@[simp] theorem part_sourceDone (d : Dev) : (sourceDone d).part q = d.part q := by
  simp [sourceDone]

@[simp] theorem part_endSource (cause : Nat) (d : Dev) : (endSource cause d).part q = d.part q := by
  simp [endSource]

@[simp] theorem part_abortTransfer (hq : q ≠ .svc) (status : Nat) (d : Dev) :
    (abortTransfer status d).part q = d.part q := by
  simp [abortTransfer, hq]

@[simp] theorem part_xferPathLost (hq : q ≠ .svc) (d : Dev) : (xferPathLost d).part q = d.part q := by
  simp [xferPathLost, hq]

/-! ### The hierarchy -/

@[simp] theorem part_traceLead (d : Dev) : (traceLead d).part q = d.part q := by
  simp [traceLead]

@[simp] theorem part_updNode (i : Nat) (g : Node → Node) (d : Dev) : (updNode i g d).part q = d.part q := by
  simp [updNode]

@[simp] theorem part_resendRecon (d : Dev) : (resendRecon d).part q = d.part q := by
  simp [resendRecon]

@[simp] theorem part_forgetNodes (d : Dev) : (forgetNodes d).part q = d.part q := by
  simp [forgetNodes]

@[simp] theorem part_resumeLead (d : Dev) : (resumeLead d).part q = d.part q := by
  simp [resumeLead]

@[simp] theorem part_leadAgain (d : Dev) : (leadAgain d).part q = d.part q := by
  simp [leadAgain]

@[simp] theorem part_standAside (d : Dev) : (standAside d).part q = d.part q := by
  simp [standAside]

@[simp] theorem part_releaseManager (d : Dev) : (releaseManager d).part q = d.part q := by
  simp [releaseManager]

@[simp] theorem part_portTrained (p : Nat) (d : Dev) : (portTrained p d).part q = d.part q := by
  simp [portTrained]

@[simp] theorem part_portLost (hq : q ≠ .svc) (p : Nat) (d : Dev) : (portLost p d).part q = d.part q := by
  simp [portLost, hq]

@[simp] theorem part_sendCue (d : Dev) (p : Nat) : (sendCue d p).part q = d.part q := by
  simp [sendCue]

@[simp] theorem part_sendCues (d : Dev) : (sendCues d).part q = d.part q := by
  simp [sendCues]

@[simp] theorem part_cueFrame (h : FrameIn) (c : CueFrame) (d : Dev) : (cueFrame h c d).part q = d.part q := by
  simp [cueFrame]

@[simp] theorem part_cueResp (h : FrameIn) (r : CueRespFrame) (d : Dev) :
    (cueResp h r d).part q = d.part q := by
  simp [cueResp]

@[simp] theorem part_answerJoin (p : Nat) (f : JoinFrame) (depth : Nat) (d : Dev) :
    (answerJoin p f depth d).part q = d.part q := by
  unfold answerJoin
  split <;> simp

@[simp] theorem part_passJoin (h : FrameIn) (f : JoinFrame) (d : Dev) : (passJoin h f d).part q = d.part q := by
  simp [passJoin]

@[simp] theorem part_joinFrame (h : FrameIn) (f : JoinFrame) (depth : Nat) (d : Dev) :
    (joinFrame h f depth d).part q = d.part q := by
  simp [joinFrame]

@[simp] theorem part_redirect (d : Dev) : (redirect d).part q = d.part q := by
  simp [redirect]

@[simp] theorem part_takeAssign (f : AssignFrame) (d : Dev) : (takeAssign f d).part q = d.part q := by
  simp [takeAssign]

@[simp] theorem part_refuseAssign (d : Dev) : (refuseAssign d).part q = d.part q := by
  simp [refuseAssign]

@[simp] theorem part_takeAnswer (f : AssignFrame) (d : Dev) : (takeAnswer f d).part q = d.part q := by
  simp [takeAnswer]

@[simp] theorem part_passAssign (h : FrameIn) (f : AssignFrame) (d : Dev) :
    (passAssign h f d).part q = d.part q := by
  unfold passAssign
  (repeat' split) <;> simp

@[simp] theorem part_assignFrame (h : FrameIn) (f : AssignFrame) (d : Dev) :
    (assignFrame h f d).part q = d.part q := by
  simp [assignFrame]

@[simp] theorem part_issueSlot (hq : q ≠ .est) (d : Dev) (i : Nat) : (issueSlot d i).part q = d.part q := by
  simp [issueSlot, hq]

@[simp] theorem part_issueSlots (hq : q ≠ .est) (d : Dev) : (issueSlots d).part q = d.part q := by
  simp [issueSlots, hq]

@[simp] theorem part_statusFrame (hq : q ≠ .est) (f : StatusFrame) (d : Dev) :
    (statusFrame f d).part q = d.part q := by
  simp [statusFrame, hq]

@[simp] theorem part_ownSlot (d : Dev) : (ownSlot d).part q = d.part q := by
  simp [ownSlot]

@[simp] theorem part_nodeAbsent (i : Nat) (d : Dev) : (nodeAbsent i d).part q = d.part q := by
  simp [nodeAbsent]

@[simp] theorem part_dirFrame (es : List DirEntry) (d : Dev) : (dirFrame es d).part q = d.part q := by
  simp [dirFrame]

@[simp] theorem part_dirQuery (w : W32) (d : Dev) : (dirQuery w d).part q = d.part q := by
  simp [dirQuery]

@[simp] theorem part_takeSummary (hq : q ≠ .enc) (i : Nat) (f : SummaryFrame) (d : Dev) :
    (takeSummary i f d).part q = d.part q := by
  simp [takeSummary, hq]

@[simp] theorem part_takeKeys (i first : Nat) (ks : List OrderKey) (d : Dev) :
    (takeKeys i first ks d).part q = d.part q := by
  simp [takeKeys]

@[simp] theorem part_takeResults (hq : q ≠ .enc) (first : Nat) (ps : List OrderPlace) (d : Dev) :
    (takeResults first ps d).part q = d.part q := by
  simp [takeResults, hq]

@[simp] theorem part_settleConc (acc : List OrderEntry × Dev) (e : OrderEntry) :
    (settleConc acc e).2.part q = acc.2.part q := by
  simp only [settleConc]
  (repeat' split) <;> simp

@[simp] theorem part_leftOut (merged : Nat) (d : Dev) : (leftOut merged d).2.part q = d.part q := by
  simp only [leftOut]
  (repeat' split) <;> simp

@[simp] theorem part_reconDone (hq : q ≠ .enc) (merged : Nat) (d : Dev) :
    (reconDone merged d).part q = d.part q := by
  unfold reconDone
  split
  · rfl
  split
  next he =>
  have hs := part_of_pair (part_foldl_snd (fun _ _ => part_settleConc (q := q) ..) _ _) he
  simp [hq, hs]

@[simp] theorem part_takeAck (seq : Nat) (d : Dev) : (takeAck seq d).part q = d.part q := by
  unfold takeAck
  split <;> simp

@[simp] theorem part_ackFrame (h : FrameIn) (f : AckFrame) (d : Dev) : (ackFrame h f d).part q = d.part q := by
  simp only [ackFrame]
  split <;> simp

@[simp] theorem part_frameDropped (hq : q ≠ .svc) (f : Frame) (d : Dev) :
    (frameDropped f d).part q = d.part q := by
  simp [frameDropped, hq]

@[simp] theorem part_ackTimeout (hq : q ≠ .svc) (p seq : Nat) (d : Dev) :
    (ackTimeout p seq d).part q = d.part q := by
  unfold ackTimeout
  split <;> simp [hq]

@[simp] theorem part_takeover (hq : q ≠ .svc) (d : Dev) : (takeover d).part q = d.part q := by
  simp [takeover, hq]

@[simp] theorem part_depose (d : Dev) : (depose d).part q = d.part q := by
  simp [depose]

@[simp] theorem part_standbySwitch (d : Dev) : (standbySwitch d).part q = d.part q := by
  simp [standbySwitch]

/-! ### Flash ports -/

@[simp] theorem part_disarm (c : Nat) (d : Dev) : (disarm c d).part q = d.part q := by
  simp [disarm]

@[simp] theorem part_portIgnored (c : Nat) (d : Dev) : (portIgnored c d).part q = d.part q := by
  simp [portIgnored]

@[simp] theorem part_flcKey (c : Nat) (w : W32) (d : Dev) : (flcKey c w d).part q = d.part q := by
  simp [flcKey]

@[simp] theorem part_portDone (c op result : Nat) (d : Dev) : (portDone c op result d).part q = d.part q := by
  simp [portDone]

@[simp] theorem part_portBegin (c : Nat) (d : Dev) : (portBegin c d).part q = d.part q := by
  simp [portBegin]

@[simp] theorem part_portRun (c op : Nat) (d : Dev) : (portRun c op d).part q = d.part q := by
  simp [portRun]

@[simp] theorem part_portGo (c op : Nat) (d : Dev) : (portGo c op d).part q = d.part q := by
  simp [portGo]

theorem part_readOutcome {c op n : Nat} {a : W64} {o : DieOutcome} {d e : Dev}
    (he : readOutcome c op a o d = some (n, e)) :
    e.part q = d.part q := by
  unfold readOutcome at he
  simp only at he
  split at he <;> cases he <;> simp

@[simp] theorem part_dieFail (c code : Nat) (a : W64) (d : Dev) : (dieFail c code a d).part q = d.part q := by
  simp [dieFail]

theorem part_programOutcome {c n : Nat} {a : W64} {o : DieOutcome} {d e : Dev}
    (he : programOutcome c a o d = some (n, e)) :
    e.part q = d.part q := by
  unfold programOutcome at he
  split at he <;> cases he <;> simp

theorem part_loadOutcome {c n : Nat} {a : W64} {o : DieOutcome} {d e : Dev}
    (he : loadOutcome c a o d = some (n, e)) :
    e.part q = d.part q := by
  unfold loadOutcome at he
  split at he <;> cases he <;> simp

theorem part_eraseOutcome {c n : Nat} {a : W64} {o : DieOutcome} {d e : Dev}
    (he : eraseOutcome c a o d = some (n, e)) :
    e.part q = d.part q := by
  unfold eraseOutcome at he
  split at he <;> cases he <;> simp

@[simp] theorem part_creadStep (c op result : Nat) (a : W64) (d : Dev) :
    (creadStep c op result a d).part q = d.part q := by
  unfold creadStep
  split <;> simp

@[simp] theorem part_next (c : Nat) (d : Dev) : (next c d).part q = d.part q := by
  simp [next]

@[simp] theorem part_servedRead (c : Nat) (a : W64) (d : Dev) : (servedRead c a d).part q = d.part q := by
  simp [servedRead]

@[simp] theorem part_operationDone (c : Nat) (o : DieOutcome) (d : Dev) :
    (operationDone c o d).part q = d.part q := by
  unfold operationDone
  dsimp only
  split
  · rfl
  split
  · simp
  split
  · rfl
  split
  · rfl
  split
  · split
    · rfl
    · next ho => simp [part_readOutcome ho]
  · split
    · rfl
    · next _ r e ho =>
      have he : e.part q = d.part q := by
        split at ho
        · exact part_programOutcome ho
        split at ho
        · exact part_loadOutcome ho
        · exact part_eraseOutcome ho
      simp [he]

@[simp] theorem part_updErase (c t : Nat) (g : Erase → Erase) (d : Dev) :
    (updErase c t g d).part q = d.part q := by
  simp [updErase]

@[simp] theorem part_eraseSuspend (c t us : Nat) (flow : Bool) (d : Dev) :
    (eraseSuspend c t us flow d).part q = d.part q := by
  unfold eraseSuspend
  split <;> simp

@[simp] theorem part_eraseResume (c t heldUs : Nat) (flow : Bool) (d : Dev) :
    (eraseResume c t heldUs flow d).part q = d.part q := by
  unfold eraseResume
  split <;> simp

/-! ### The index -/

@[simp] theorem part_cacheTally (d : Dev) : (cacheTally d).part q = d.part q := by
  simp [cacheTally]

@[simp] theorem part_indexRepeat (x : Desc) (d : Dev) : (indexRepeat x d).part q = d.part q := by
  simp [indexRepeat]

@[simp] theorem part_lookupAnswer (x : Desc) (d : Dev) : (lookupAnswer x d).part q = d.part q := by
  simp only [lookupAnswer]
  split <;> simp

@[simp] theorem part_lookup (h : Nat) (c : LookupCheck) (d : Dev) : (lookup h c d).part q = d.part q := by
  unfold lookup
  split
  · next he => exact part_of_pair (part_begin ..) he
  · next he =>
    dsimp only
    split
    · simp [part_of_pair (part_begin ..) he]
    · split <;> simp [part_of_pair (part_begin ..) he]

@[simp] theorem part_rebuilt (hq : q ≠ .est) (f : Nat) (d : Dev) : (rebuilt f d).part q = d.part q := by
  simp [rebuilt, hq]

@[simp] theorem part_rebuildDone (hq : q ≠ .est) (f : Nat) (mismatch : Bool) (d : Dev) :
    (rebuildDone f mismatch d).part q = d.part q := by
  simp [rebuildDone, hq]

@[simp] theorem part_respread (f k : Nat) (d : Dev) : (respread f k d).part q = d.part q := by
  simp [respread]

/-! ### Register writes -/

@[simp] theorem part_msixWrite (f v w : Nat) (x : W32) (d : Dev) : (msixWrite f v w x d).part q = d.part q := by
  simp [msixWrite]

@[simp] theorem part_flcAddrWrite (c : Nat) (v : W64) (d : Dev) : (flcAddrWrite c v d).part q = d.part q := by
  simp [flcAddrWrite]

@[simp] theorem part_flcDataWrite (c off n v : Nat) (d : Dev) :
    (flcDataWrite c off n v d).part q = d.part q := by
  simp [flcDataWrite]

@[simp] theorem part_eFixedWrite (hq : q ≠ .spw ∧ q ≠ .int ∧ q ≠ .est) (x : W32) (d : Dev) :
    (eFixedWrite x d).part q = d.part q := by
  simp [eFixedWrite, hq]

@[simp] theorem part_chgCtlWrite (hq : q ≠ .est ∧ q ≠ .pkb) (x : W32) (d : Dev) :
    (chgCtlWrite x d).part q = d.part q := by
  simp [chgCtlWrite, hq]

@[simp] theorem part_take32 (hq : q ≠ .spw ∧ q ≠ .int ∧ q ≠ .est ∧ q ≠ .pkb ∧ q ≠ .settings) (r : Reg)
    (x : W32) (d : Dev) :
    (take32 r x d).part q = d.part q := by
  cases r <;> simp [take32, hq]

@[simp] theorem part_fnDisableWrite (hq : q ≠ .est) (v : W64) (d : Dev) :
    (fnDisableWrite v d).part q = d.part q := by
  simp [fnDisableWrite, hq]

@[simp] theorem part_take64 (hq : q ≠ .enc ∧ q ≠ .est) (r : Reg) (v : W64) (d : Dev) :
    (take64 r v d).part q = d.part q := by
  unfold take64
  split <;> simp [hq]

@[simp] theorem part_takeHalf (hq : q ≠ .enc ∧ q ≠ .est) (r : Reg) (upper : Bool) (x : W32) (d : Dev) :
    (takeHalf r upper x d).part q = d.part q := by
  unfold takeHalf
  (repeat' split) <;> simp [hq]

@[simp] theorem part_registerWrite (hq : q ≠ .spw ∧ q ≠ .int ∧ q ≠ .enc ∧ q ≠ .est ∧ q ≠ .pkb ∧ q ≠ .settings)
    (w : RegWrite) (d : Dev) :
    (registerWrite w d).part q = d.part q := by
  unfold registerWrite
  (repeat' split) <;> simp [hq]

/-! ### The ROM service -/

@[simp] theorem part_romBegin (h op : Nat) (d : Dev) : (romBegin h op d).2.part q = d.part q := by
  unfold romBegin
  (repeat' split) <;> simp

@[simp] theorem part_romOut (x : Desc) (bs : List Byte) (at' result : Nat) (d : Dev) :
    (romOut x bs at' result d).part q = d.part q := by
  simp [romOut]

@[simp] theorem part_romSized (x : Desc) (size : Nat) (d : Dev) (go : Dev → Dev)
    (hgo : ∀ e, (go e).part q = e.part q) :
    (romSized x size d go).part q = d.part q := by
  simp [romSized, hgo]

@[simp] theorem part_tailHt (d : Dev) : (tailHt d).2.part q = d.part q := by
  unfold tailHt
  split <;> simp

@[simp] theorem part_romTraceTail (h : Nat) (d : Dev) : (romTraceTail h d).part q = d.part q := by
  unfold romTraceTail
  split
  · next he => exact part_of_pair (part_romBegin ..) he
  · next he => simp [part_of_pair (part_romBegin ..) he]

@[simp] theorem part_romFaults (h : Nat) (d : Dev) : (romFaults h d).part q = d.part q := by
  unfold romFaults
  split
  · next he => exact part_of_pair (part_romBegin ..) he
  · next he => simp [part_of_pair (part_romBegin ..) he]

@[simp] theorem part_romBook (h : Nat) (d : Dev) : (romBook h d).part q = d.part q := by
  unfold romBook
  split
  · next he => exact part_of_pair (part_romBegin ..) he
  · next he =>
    refine (part_romSized _ _ _ _ fun e => ?_).trans (part_of_pair (part_romBegin ..) he)
    split <;> simp

@[simp] theorem part_romVault (h : Nat) (d : Dev) : (romVault h d).part q = d.part q := by
  unfold romVault
  split
  · next he => exact part_of_pair (part_romBegin ..) he
  · next he => simp [part_of_pair (part_romBegin ..) he]

@[simp] theorem part_romAnchor (h : Nat) (d : Dev) : (romAnchor h d).part q = d.part q := by
  unfold romAnchor
  split
  · next he => exact part_of_pair (part_romBegin ..) he
  · next he => simp [part_of_pair (part_romBegin ..) he]

@[simp] theorem part_romSelector (h : Nat) (d : Dev) : (romSelector h d).part q = d.part q := by
  unfold romSelector
  split
  · next he => exact part_of_pair (part_romBegin ..) he
  · next he => simp [part_of_pair (part_romBegin ..) he]

@[simp] theorem part_romPrivSeg (h : Nat) (d : Dev) : (romPrivSeg h d).part q = d.part q := by
  unfold romPrivSeg
  split
  · next he => exact part_of_pair (part_romBegin ..) he
  · next he => simp [part_of_pair (part_romBegin ..) he]

@[simp] theorem part_romRecord (h : Nat) (data : HostData) (d : Dev) :
    (romRecord h data d).part q = d.part q := by
  unfold romRecord
  split
  · next he => exact part_of_pair (part_romBegin ..) he
  · next he =>
    refine (part_readBuffer _ _ _ _ _ fun bs e => ?_).trans (part_of_pair (part_romBegin ..) he)
    split <;> simp

@[simp] theorem part_romTwinWrite (hq : q ≠ .rom) (h : Nat) (data : HostData) (d : Dev) :
    (romTwinWrite h data d).part q = d.part q := by
  unfold romTwinWrite
  split
  · next he => exact part_of_pair (part_romBegin ..) he
  · next he => simp [part_of_pair (part_romBegin ..) he, hq]

@[simp] theorem part_romTwinSelect (hq : q ≠ .rom) (h : Nat) (d : Dev) :
    (romTwinSelect h d).part q = d.part q := by
  unfold romTwinSelect
  split
  · next he => exact part_of_pair (part_romBegin ..) he
  · next he => simp [part_of_pair (part_romBegin ..) he, hq]

/-! ### Registers -/

@[simp] theorem part_lowHalf (hq : q ≠ .readLatch) (r : Reg64) (d : Dev) : (lowHalf r d).part q = d.part q := by
  unfold lowHalf
  split <;> simp [hq]

@[simp] theorem part_highHalf (hq : q ≠ .readLatch) (r : Reg64) (d : Dev) :
    (highHalf r d).part q = d.part q := by
  simp [highHalf, hq]

@[simp] theorem part_readOffset (hq : q ≠ .readLatch) (f off n : Nat) (d : Dev) :
    (readOffset f off n d).part q = d.part q := by
  unfold readOffset
  split <;> simp [hq]

@[simp] theorem part_configDword (f i : Nat) (d : Dev) : (configDword f i d).2.part q = d.part q := by
  simp only [configDword]
  (repeat' split) <;> simp

@[simp] theorem part_hostRead (hq : q ≠ .readLatch) (k : HostRead) (d : Dev) :
    (hostRead k d).part q = d.part q := by
  unfold hostRead
  (repeat' split) <;> simp [hq]

/-! ### Telemetry and the TAP -/

@[simp] theorem part_telemetryCopy (d : Dev) : (telemetryCopy d).part q = d.part q := by
  simp [telemetryCopy]

@[simp] theorem part_smbusRead (address command : Nat) (d : Dev) :
    (smbusRead address command d).part q = d.part q := by
  simp [smbusRead]

@[simp] theorem part_tapTake (ir : TapIr) (d : Dev) : (tapTake ir d).part q = d.part q := by
  simp [tapTake]

@[simp] theorem part_tapIdcode (d : Dev) : (tapIdcode d).part q = d.part q := by
  simp [tapIdcode]

@[simp] theorem part_samplePreload (v : Nat) (d : Dev) : (samplePreload v d).part q = d.part q := by
  simp [samplePreload]

@[simp] theorem part_tapDrive (ir : TapIr) (d : Dev) : (tapDrive ir d).part q = d.part q := by
  simp [tapDrive]

end Sys2Proof.Machine
end

section
/-!
PROOFS. The frame of every command: it keeps each part that it is not named for (O9), and the cache DRAM and the
queue stand (O3).
-/

namespace Sys2Proof.Machine

variable {q : Part}

/-! ### The frame of every command -/

/-- The commands that can change a part: the tables of the statements, and for the parts without one the
commands that their clauses name. -/
def Part.writtenBy (c : Instr) : Part → Bool
  | .board => writesBoard c
  | .pins => writesPins c
  | .spw => writesSpw c
  | .int => writesInt c
  | .enc => writesEnc c
  | .svc => writesSvc c
  | .rom => writesRom c
  | .est => writesEst c
  | .pkb => writesPkb c
  | .readLatch => match c with
    | .lowHalfRead _ | .mainSupplyGood _ => true
    | _ => false
  | .fetch => match c with
    | .descriptorFetch .. | .mainSupplyGood _ => true
    | _ => false
  | .settings => match c with
    | .registerWrite _ | .mainSupplyGood _ => true
    | _ => false

theorem Part.writtenBy_mainSupplyGood (mv : Nat) (q : Part) : q.writtenBy (.mainSupplyGood mv) = true := by
  cases q <;> rfl

/-- The part is none of those that the command can change. -/
def Part.KeptBy (q : Part) (c : Instr) : Prop := q.writtenBy c = false

/-- A kept part is none that the command is named for. -/
theorem Part.KeptBy.ne {c : Instr} (h : q.KeptBy c) {r : Part} (hr : r.writtenBy c = true) : q ≠ r := by
  rintro rfl
  exact absurd (h.symm.trans hr) (by decide)

theorem onDev_part {f : Dev → Dev} {s t : State} (hf : ∀ d, (f d).part q = d.part q) (h : onDev f s = .next t) :
    t.dev.part q = s.dev.part q := by
  rw [onDev_inv h]
  exact hf s.dev

theorem onDevReading_part {f : List Host.Cell → Dev → Dev} {s t : State} (hf : ∀ m d, (f m d).part q = d.part q)
    (h : onDevReading f s = .next t) : t.dev.part q = s.dev.part q := by
  rw [← Host.Outcome.next.inj h]
  exact hf s.dram s.dev

theorem onBoth_part {f : Dev × List Host.Cell → Dev × List Host.Cell} {s t : State}
    (hf : ∀ r, (f r).1.part q = r.1.part q) (h : onBoth f s = .next t) : t.dev.part q = s.dev.part q := by
  rw [onBoth_inv h]
  exact hf (s.dev, s.dram)

theorem onPower_dev {f : Dev → Dev} {s t : State} (h : onPower f s = .next t) :
    t.dev = f s.dev ∧ t.pending = s.pending := by
  unfold onPower at h
  dsimp only at h
  split at h <;> cases h <;> exact ⟨rfl, rfl⟩

theorem onPower_part {f : Dev → Dev} {s t : State} (hf : ∀ d, (f d).part q = d.part q) (h : onPower f s = .next t) :
    t.dev.part q = s.dev.part q := by
  rw [(onPower_dev h).1]
  exact hf s.dev

/-- A command on a supply level stops the machine above the rating, and below it changes the device only. -/
theorem onDev_of_rated {f : Dev → Dev} {mv : Nat} {r : Fault} {s t : State}
    (h : (if vinMax < mv then .fault r else onDev f s) = Host.Outcome.next t) : onDev f s = .next t := by
  split at h
  · cases h
  · exact h


/-! Commands whose meaning is written in place -/

theorem part_execSealHoldExpiry (hq : q ≠ .pins ∧ q ≠ .spw ∧ q ≠ .int) {s t : State}
    (h : execSealHoldExpiry s = .next t) :
    t.dev.part q = s.dev.part q := onPower_part (fun _ => by simp [hq]) h

theorem part_execIntermissionTimerExpiry (hq : q ≠ .spw ∧ q ≠ .int ∧ q ≠ .est) {s t : State}
    (h : execIntermissionTimerExpiry s = .next t) :
    t.dev.part q = s.dev.part q := onDev_part (fun _ => by simp [hq]) h

theorem part_execRetentionPackRelease (hq : q ≠ .pkb) {s t : State} (h : execRetentionPackRelease s = .next t) :
    t.dev.part q = s.dev.part q := onDev_part (fun _ => by simp [hq]) h

theorem part_execPackRemovedSwitchOpen (hq : q ≠ .pins ∧ q ≠ .est ∧ q ≠ .pkb) {s t : State}
    (h : execPackRemovedSwitchOpen s = .next t) :
    t.dev.part q = s.dev.part q := onDev_part (fun _ => by simp [hq]) h

theorem part_execAttentionWindowExpiry (hq : q ≠ .est ∧ q ≠ .pkb) {s t : State}
    (h : execAttentionWindowExpiry s = .next t) :
    t.dev.part q = s.dev.part q := onDev_part (fun _ => by simp [hq]) h

theorem part_execPkbRemove (hq : q ≠ .est ∧ q ≠ .pkb) {s t : State} (h : execPkbRemove s = .next t) :
    t.dev.part q = s.dev.part q := onDev_part (fun _ => by simp [hq]) h

theorem part_execPkbClose (hq : q ≠ .spw ∧ q ≠ .int ∧ q ≠ .est ∧ q ≠ .pkb) {s t : State}
    (h : execPkbClose s = .next t) :
    t.dev.part q = s.dev.part q := onDev_part (fun _ => by simp [hq]) h

theorem part_execRestWindowExpiry (hq : q ≠ .est) {s t : State} (h : execRestWindowExpiry s = .next t) :
    t.dev.part q = s.dev.part q := onDev_part (fun _ => by simp [hq]) h

theorem part_execProbePulse (hq : q ≠ .est) {s t : State} (h : execProbePulse s = .next t) :
    t.dev.part q = s.dev.part q := onDev_part (fun _ => by simp [hq]) h

theorem part_execAdmissionRecompute (hq : q ≠ .int ∧ q ≠ .svc ∧ q ≠ .est) {s t : State} {cadence : Bool}
    (h : execAdmissionRecompute cadence s = .next t) :
    t.dev.part q = s.dev.part q := onDev_part (fun _ => by simp [hq]) h

theorem part_execWearStateStore {s t : State} (h : execWearStateStore s = .next t) :
    t.dev.part q = s.dev.part q := onDev_part (fun _ => by simp) h

theorem part_execStagingRecordStart {s t : State} {b : Nat} (h : execStagingRecordStart b s = .next t) :
    t.dev.part q = s.dev.part q := by
  refine onDevReading_part (fun m d => ?_) h
  split
  · split
    · next hs => exact part_streamNext hs
    · rfl
  · simp

theorem part_execRecordCountedWritten (hq : q ≠ .svc ∧ q ≠ .est) {s t : State} {id : Nat}
    (h : execRecordCountedWritten id s = .next t) :
    t.dev.part q = s.dev.part q := onDev_part (fun _ => by simp [hq]) h

theorem part_execEraseComplete (hq : q ≠ .est) {s t : State} {c k : Nat} (h : execEraseComplete c k s = .next t) :
    t.dev.part q = s.dev.part q := onDev_part (fun _ => by simp [hq]) h

theorem part_execRetrainTimer {s t : State} {b : Nat} {passed : Bool} (h : execRetrainTimer b passed s = .next t) :
    t.dev.part q = s.dev.part q := onDev_part (fun _ => by simp) h

theorem part_execZqTimer {s t : State} {b : Nat} (h : execZqTimer b s = .next t) :
    t.dev.part q = s.dev.part q := onDev_part (fun _ => by simp) h

theorem part_execStatePreserved (hq : q ≠ .int) {s t : State} (h : execStatePreserved s = .next t) :
    t.dev.part q = s.dev.part q := onDev_part (fun _ => by simp [hq]) h

theorem part_execLogicPoweredDown (hq : q ≠ .spw ∧ q ≠ .int ∧ q ≠ .svc ∧ q ≠ .est) {s t : State}
    (h : execLogicPoweredDown s = .next t) :
    t.dev.part q = s.dev.part q := onDev_part (fun _ => by simp [hq]) h

theorem part_execPlaybillWritten (hq : q ≠ .rom ∧ q ≠ .est) {s t : State} (h : execPlaybillWritten s = .next t) :
    t.dev.part q = s.dev.part q := onDev_part (fun _ => by simp [hq]) h

theorem part_execRehearsalPendingStart (hq : q ≠ .est) {s t : State} (h : execRehearsalPendingStart s = .next t) :
    t.dev.part q = s.dev.part q := onDev_part (fun _ => by simp [hq]) h

theorem part_execFncCtlReset (hq : q ≠ .est) {s t : State} {f : Nat} (h : execFncCtlReset f s = .next t) :
    t.dev.part q = s.dev.part q := onDev_part (fun _ => by simp [hq]) h

theorem part_execFlip {s t : State} (h : execFlip s = .next t) :
    t.dev.part q = s.dev.part q := onDev_part (fun _ => by simp) h

theorem part_execWrapLock {s t : State} (h : execWrapLock s = .next t) :
    t.dev.part q = s.dev.part q := onDev_part (fun _ => by simp) h

theorem part_execWrapKeyTimeout {s t : State} (h : execWrapKeyTimeout s = .next t) :
    t.dev.part q = s.dev.part q := onDev_part (fun _ => by simp) h

theorem part_execDrcMapNext {s t : State} {w : W32} (h : execDrcMapNext w s = .next t) :
    t.dev.part q = s.dev.part q := onDev_part (fun _ => by simp) h

theorem part_execCue (hq : q ≠ .enc) {s t : State} {f : Received CueFrame} (h : execCue f s = .next t) :
    t.dev.part q = s.dev.part q := onDev_part (fun _ => by simp [hq]) h

theorem part_execStatusSend (hq : q ≠ .est) {s t : State} (h : execStatusSend s = .next t) :
    t.dev.part q = s.dev.part q := onDev_part (fun _ => by simp [hq]) h

theorem part_execCipherRequestDone {s t : State} {b : Nat} (h : execCipherRequestDone b s = .next t) :
    t.dev.part q = s.dev.part q :=
  onDev_part (fun _ => by split <;> simp) h

theorem part_execWrapNear {s t : State} (h : execWrapNear s = .next t) :
    t.dev.part q = s.dev.part q := onDev_part (fun _ => by simp) h

theorem part_execPerstNRelease (hq : q ≠ .pins) {s t : State} (h : execPerstNRelease s = .next t) :
    t.dev.part q = s.dev.part q := onDev_part (fun _ => by simp [hq]) h

theorem part_execRehSlotTimeout (hq : q ≠ .est) {s t : State} {i : Nat} (h : execRehSlotTimeout i s = .next t) :
    t.dev.part q = s.dev.part q := onDev_part (fun _ => by simp [hq]) h

/-- Every command keeps every part that it is not named for. -/
theorem exec_part {c : Instr} {s t : State} (hc : q.KeptBy c) (h : exec c s = .next t) :
    t.dev.part q = s.dev.part q := by
  cases c with
  | failAssert =>
    exact onPower_part (part_failAssert ⟨hc.ne rfl, hc.ne rfl, hc.ne rfl, hc.ne rfl, hc.ne rfl, hc.ne rfl⟩ _) h
  | failRelease => exact onDev_part (part_failRelease ⟨hc.ne rfl, hc.ne rfl⟩ _) (onDev_of_rated h)
  | warnAssert => exact onDev_part (part_warnAssert ⟨hc.ne rfl, hc.ne rfl, hc.ne rfl⟩ _) h
  | warnRelease => exact onDev_part (part_warnRelease ⟨hc.ne rfl, hc.ne rfl⟩ _) (onDev_of_rated h)
  | mainSupplyGood => exact absurd rfl (hc.ne (Part.writtenBy_mainSupplyGood _ q))
  | resumeQualExpiry =>
    exact onDev_part (part_resumeQual ⟨hc.ne rfl, hc.ne rfl, hc.ne rfl, hc.ne rfl, hc.ne rfl, hc.ne rfl⟩) h
  | vaux3Loss => exact onDev_part (part_vaux3Loss (hc.ne rfl)) h
  | sealHoldExpiry => exact part_execSealHoldExpiry ⟨hc.ne rfl, hc.ne rfl, hc.ne rfl⟩ h
  | intermissionTimerExpiry => exact part_execIntermissionTimerExpiry ⟨hc.ne rfl, hc.ne rfl, hc.ne rfl⟩ h
  | retentionPackRelease => exact part_execRetentionPackRelease (hc.ne rfl) h
  | chipFatalFault =>
    exact onPower_part (part_chipFatal ⟨hc.ne rfl, hc.ne rfl, hc.ne rfl, hc.ne rfl, hc.ne rfl, hc.ne rfl⟩ _) h
  | mgmtWatchdogExpiry =>
    exact onPower_part (part_chipFatal ⟨hc.ne rfl, hc.ne rfl, hc.ne rfl, hc.ne rfl, hc.ne rfl, hc.ne rfl⟩ _) h
  | packPresenceDetect => exact onDev_part (part_presenceDetect ⟨hc.ne rfl, hc.ne rfl, hc.ne rfl, hc.ne rfl⟩ _ _) h
  | packSettleExpiry => exact onDev_part (part_settleExpiry ⟨hc.ne rfl, hc.ne rfl, hc.ne rfl, hc.ne rfl⟩ _) h
  | packSurpriseRemoval =>
    exact onPower_part (part_surpriseRemoval ⟨hc.ne rfl, hc.ne rfl, hc.ne rfl, hc.ne rfl, hc.ne rfl⟩) h
  | packRemovedSwitchOpen => exact part_execPackRemovedSwitchOpen ⟨hc.ne rfl, hc.ne rfl, hc.ne rfl⟩ h
  | attentionButtonPress => exact onDev_part (part_buttonPress ⟨hc.ne rfl, hc.ne rfl, hc.ne rfl, hc.ne rfl⟩) h
  | attentionWindowExpiry => exact part_execAttentionWindowExpiry ⟨hc.ne rfl, hc.ne rfl⟩ h
  | pkbRemove => exact part_execPkbRemove ⟨hc.ne rfl, hc.ne rfl⟩ h
  | pkbClose => exact part_execPkbClose ⟨hc.ne rfl, hc.ne rfl, hc.ne rfl, hc.ne rfl⟩ h
  | orderlyDrainDone => exact onDev_part (part_drainDone ⟨hc.ne rfl, hc.ne rfl, hc.ne rfl, hc.ne rfl⟩) h
  | packCollapse =>
    exact onPower_part (part_packCollapse ⟨hc.ne rfl, hc.ne rfl, hc.ne rfl, hc.ne rfl, hc.ne rfl⟩ _) h
  | chgTimeout => exact onDev_part (part_chgTimeout ⟨hc.ne rfl, hc.ne rfl, hc.ne rfl, hc.ne rfl⟩) h
  | pkbFaultClear => exact onDev_part (part_faultClear ⟨hc.ne rfl, hc.ne rfl, hc.ne rfl, hc.ne rfl⟩ _) h
  | packSample => exact onPower_part (part_packSample ⟨hc.ne rfl, hc.ne rfl, hc.ne rfl, hc.ne rfl, hc.ne rfl⟩ _) h
  | estimatorUpdate => exact onDev_part (part_estimatorUpdate ⟨hc.ne rfl, hc.ne rfl, hc.ne rfl⟩) h
  | restPoint => exact onDev_part (part_restPoint (hc.ne rfl) _) h
  | restDue => exact onDev_part (part_restDue ⟨hc.ne rfl, hc.ne rfl, hc.ne rfl⟩) h
  | restWindowExpiry => exact part_execRestWindowExpiry (hc.ne rfl) h
  | probePulse => exact part_execProbePulse (hc.ne rfl) h
  | probePulseEnd => exact onDev_part (part_probeEnd (hc.ne rfl) _ _ _) h
  | learnPhaseEnd => exact onDev_part (part_learnPhaseEnd ⟨hc.ne rfl, hc.ne rfl, hc.ne rfl, hc.ne rfl⟩) h
  | admissionRecompute => exact part_execAdmissionRecompute ⟨hc.ne rfl, hc.ne rfl, hc.ne rfl⟩ h
  | holdDataArrived => exact onDev_part (part_holdArrived (hc.ne rfl) _) h
  | holdDeadlineExpiry => exact onDev_part (part_holdExpiry (hc.ne rfl) _) h
  | wearStateStore => exact part_execWearStateStore h
  | stagingRecordStart => exact part_execStagingRecordStart h
  | recordCountedWritten => exact part_execRecordCountedWritten ⟨hc.ne rfl, hc.ne rfl⟩ h
  | programFail => exact onDev_part (part_programFail ⟨hc.ne rfl, hc.ne rfl⟩ _) h
  | targetDead => exact onDev_part (part_targetDead ⟨hc.ne rfl, hc.ne rfl, hc.ne rfl⟩ _ _ _) h
  | logCleaning => exact onDev_part (part_logClean (hc.ne rfl) _) h
  | eraseComplete => exact part_execEraseComplete (hc.ne rfl) h
  | scrubRead => exact onDev_part (part_scrubRead (hc.ne rfl) _ _ _ _) h
  | cellFailure =>
    have hq : q ≠ .int ∧ q ≠ .enc ∧ q ≠ .est := ⟨hc.ne rfl, hc.ne rfl, hc.ne rfl⟩
    exact onDev_part (fun _ => by simp [hq]) h
  | cipherPipeFault => exact onDev_part (part_pipeFault ⟨hc.ne rfl, hc.ne rfl⟩ _ _) h
  | crossSave => exact onDev_part (part_crossSave ⟨hc.ne rfl, hc.ne rfl, hc.ne rfl⟩ _ _) h
  | fence => exact onDev_part (part_fence ⟨hc.ne rfl, hc.ne rfl, hc.ne rfl⟩ _ _) h
  | dramUncorrectable => exact onDev_part (part_uncorrectable ⟨hc.ne rfl, hc.ne rfl, hc.ne rfl⟩ _ _) h
  | retrainTimer => exact part_execRetrainTimer h
  | zqTimer => exact part_execZqTimer h
  | flashDramPrepared => exact onDev_part (part_flashPrepared (hc.ne rfl)) h
  | dataStreamed => exact onDevReading_part (fun m d => part_dataStreamed (hc.ne rfl) m d) h
  | dramPlaced =>
    exact onPower_part (part_dramPlaced ⟨hc.ne rfl, hc.ne rfl, hc.ne rfl, hc.ne rfl, hc.ne rfl, hc.ne rfl⟩) h
  | flashQuiesced => exact onDev_part (part_flashQuiesced ⟨hc.ne rfl, hc.ne rfl⟩) h
  | intListsWritten => exact onDev_part (part_intLists (hc.ne rfl)) h
  | statePreserved => exact part_execStatePreserved (hc.ne rfl) h
  | selfRefreshEntered => exact onBoth_part (part_selfRefresh (hc.ne rfl)) h
  | logicPoweredDown => exact part_execLogicPoweredDown ⟨hc.ne rfl, hc.ne rfl, hc.ne rfl, hc.ne rfl⟩ h
  | granuleReloaded => exact onBoth_part (part_granuleReloaded (hc.ne rfl) _) h
  | twinSelected => exact onDev_part (part_twinSelected ⟨hc.ne rfl, hc.ne rfl⟩) h
  | modulesTrained => exact onDev_part (part_modulesTrained ⟨hc.ne rfl, hc.ne rfl, hc.ne rfl, hc.ne rfl⟩ _) h
  | flashReady => exact onDev_part (part_flashReady (hc.ne rfl)) h
  | playbillWritten => exact part_execPlaybillWritten ⟨hc.ne rfl, hc.ne rfl⟩ h
  | imageLocated => exact onBoth_part (part_imageLocated ⟨hc.ne rfl, hc.ne rfl⟩) h
  | headersScanned => exact onDev_part (part_headersScanned (hc.ne rfl)) h
  | winnersChosen => exact onDev_part (part_winnersChosen (hc.ne rfl)) h
  | functionRestored => exact onBoth_part (part_restoreFn (hc.ne rfl) _) h
  | blockRestored => exact onDev_part (part_blockRestored (hc.ne rfl) _) h
  | encoreComplete => exact onDev_part (part_encoreComplete ⟨hc.ne rfl, hc.ne rfl⟩) h
  | mergeComplete => exact onDev_part (part_mergeComplete (hc.ne rfl)) h
  | reconcileTimeout => exact onDev_part (part_reconcileTimeout (hc.ne rfl)) h
  | orderStoreWritten => exact onDev_part (part_orderStoreWritten ⟨hc.ne rfl, hc.ne rfl⟩) h
  | rehearsalComplete => exact onDev_part (part_rehComplete ⟨hc.ne rfl, hc.ne rfl⟩) h
  | rehearsalPendingStart => exact part_execRehearsalPendingStart (hc.ne rfl) h
  | hold => exact onDev_part (part_holdStart (hc.ne rfl) _) h
  | commit => exact onDev_part (part_commitStart ⟨hc.ne rfl, hc.ne rfl⟩ _) h
  | release => exact onBoth_part (part_releaseStart ⟨hc.ne rfl, hc.ne rfl⟩ _) h
  | read => exact onDevReading_part (fun m d => part_readStart (hc.ne rfl) _ m d) h
  | orderRead => exact onDev_part (part_orderRead (hc.ne rfl) _) h
  | keyErase => exact onBoth_part (part_keyErase (hc.ne rfl) _) h
  | rehearse => exact onDev_part (part_rehearse (hc.ne rfl) _) h
  | plannedCurtain => exact onDev_part (part_plannedCurtain ⟨hc.ne rfl, hc.ne rfl, hc.ne rfl⟩ _) h
  | fnReset => exact onDev_part (part_fnReset (hc.ne rfl) _) h
  | packParamLoad => exact onDev_part (part_packParamLoad (hc.ne rfl) _ _) h
  | packParamCommit => exact onDev_part (part_packParamCommit (hc.ne rfl) _) h
  | packParamRead => exact onDev_part (part_packParamRead (hc.ne rfl) _) h
  | learnStart => exact onDev_part (part_learnStart ⟨hc.ne rfl, hc.ne rfl⟩ _) h
  | serviceEnter => exact onDev_part (part_serviceEnter ⟨hc.ne rfl, hc.ne rfl⟩ _) h
  | serviceExit => exact onDev_part (part_serviceExit ⟨hc.ne rfl, hc.ne rfl, hc.ne rfl, hc.ne rfl, hc.ne rfl⟩ _) h
  | twinWrite => exact onDev_part (part_romTwinWrite (hc.ne rfl) _ _) h
  | twinSelect => exact onDev_part (part_romTwinSelect (hc.ne rfl) _) h
  | descriptorFetch => exact onDev_part (part_fetchOne (hc.ne rfl) _ _) h
  | ringEnWrite => exact onDev_part (part_ringEnWrite (hc.ne rfl) _ _ _ _) h
  | fncCtlReset => exact part_execFncCtlReset (hc.ne rfl) h
  | functionDisable => exact onDev_part (part_disableFn (hc.ne rfl) _ _) h
  | functionEnable => exact onDev_part (part_enableFn (hc.ne rfl) _ _) h
  | flip => exact part_execFlip h
  | spwThresh => exact onDev_part (part_spwThresh (hc.ne rfl) _) h
  | ebyteReset => exact onDev_part (part_ebyteReset ⟨hc.ne rfl, hc.ne rfl, hc.ne rfl, hc.ne rfl⟩) h
  | wrapLock => exact part_execWrapLock h
  | wrapKeyTimeout => exact part_execWrapKeyTimeout h
  | learnAbort => exact onDev_part (part_endLearning (hc.ne rfl) _) h
  | drcMapNext => exact part_execDrcMapNext h
  | registerWrite =>
    exact onDev_part (part_registerWrite ⟨hc.ne rfl, hc.ne rfl, hc.ne rfl, hc.ne rfl, hc.ne rfl, hc.ne rfl⟩ _) h
  | lowHalfRead => exact onDev_part (part_hostRead (hc.ne rfl) _) h
  | endpointReset => exact onDev_part (part_endpointReset (hc.ne rfl) _) h
  | linkTrained => exact onDev_part (part_linkTrained ⟨hc.ne rfl, hc.ne rfl, hc.ne rfl, hc.ne rfl⟩ _ _) h
  | hostLoss => exact onDev_part (part_hostLoss ⟨hc.ne rfl, hc.ne rfl, hc.ne rfl⟩) h
  | windowWrite => exact onBoth_part (part_windowWrite (hc.ne rfl) _ _ _ _) h
  | windowRead => exact onDevReading_part (fun m d => part_windowRead (hc.ne rfl) _ _ _ m d) h
  | hostReadCompletion => exact onBoth_part (part_readCompletion _ _ _) h
  | harkaPortLost => exact onDev_part (fun _ => part_tracingTime _ _ (part_portLost (hc.ne rfl) _)) h
  | cue => exact part_execCue (hc.ne rfl) h
  | join =>
    exact onDev_part (fun _ => part_arrive _ _ _ _
      fun _ => part_overTree _ _ _ fun _ => part_tracingTime _ _ (part_joinFrame _ _ _)) h
  | assign =>
    exact onDev_part (fun _ => part_arrive _ _ _ _
      fun _ => part_overTree _ _ _ fun _ => part_tracingTime _ _ (part_assignFrame _ _)) h
  | status =>
    have hq : q ≠ .est := hc.ne rfl
    exact onDev_part (fun _ => by simp [hq]) h
  | statusSend => exact part_execStatusSend (hc.ne rfl) h
  | rehSlot =>
    have hq : q ≠ .est := hc.ne rfl
    exact onDev_part (fun _ => by simp [hq]) h
  | reconSummary =>
    exact onDev_part (fun _ => part_receive _ _ _ _ _
      fun _ => part_tracingTime _ _ (part_takeSummary (hc.ne rfl) _ _)) h
  | reconResult =>
    have hq : q ≠ .enc := hc.ne rfl
    exact onDev_part (fun _ => by simp [hq]) h
  | reconDone =>
    have hq : q ≠ .enc := hc.ne rfl
    exact onDev_part (fun _ => by simp [hq]) h
  | ackTimeout => exact onDev_part (part_ackTimeout (hc.ne rfl) _ _) h
  | xferData =>
    have hq : q ≠ .svc := hc.ne rfl
    exact onDev_part (fun _ => by simp [hq]) h
  | xferClose =>
    exact onDev_part (fun _ => part_arrive _ _ _ _
      fun _ => part_overTree _ _ _ fun _ => part_routed _ _ _ _ _ (part_closeFrame (hc.ne rfl) _ _ _)) h
  | xferAbort =>
    have hq : q ≠ .svc := hc.ne rfl
    exact onDev_part (fun _ => by simp [hq]) h
  | takeover => exact onDev_part (fun _ => part_tracingTime _ _ (part_takeover (hc.ne rfl))) h
  | indexRebuildDone => exact onDev_part (part_rebuildDone (hc.ne rfl) _ _) h
  | cipherRequestDone => exact part_execCipherRequestDone h
  | wrapNear => exact part_execWrapNear h
  | ppsOutEdge => exact onDev_part (part_ppsOutEdge (hc.ne rfl)) h
  | vin12BelowGood => exact onPower_part (part_belowGood ⟨hc.ne rfl, hc.ne rfl, hc.ne rfl⟩ _) h
  | vaux3Return => exact onDev_part (part_vaux3Return (hc.ne rfl)) h
  | perstNRelease => exact part_execPerstNRelease (hc.ne rfl) h
  | packSeated => exact onDev_part (part_packSeated ⟨hc.ne rfl, hc.ne rfl⟩) h
  | rehSlotTimeout => exact part_execRehSlotTimeout (hc.ne rfl) h
  | keyVaultWritten => exact onDev_part (part_vaultWritten ⟨hc.ne rfl, hc.ne rfl⟩ _) h
  | _ => exact onDev_part (fun _ => by simp) h

/-! ### What stands over a command -/

theorem devOnly_of_next {d : Dev} {s t : State} (h : Host.Outcome.next { s with dev := d } = (.next t : Answer)) :
    s.devOnly t := by
  rw [← Host.Outcome.next.inj h]
  exact ⟨rfl, rfl⟩

/-- A command outside `touchesDram` changes the device only. -/
theorem exec_devOnly {c : Instr} {s t : State} (hc : touchesDram c = false) (h : exec c s = .next t) :
    s.devOnly t := by
  cases c with
  | failRelease | warnRelease | mainSupplyGood => exact devOnly_of_next (onDev_of_rated h)
  | hostReadCompletion | release | windowWrite | selfRefreshEntered | granuleReloaded | imageLocated
  | functionRestored | keyErase | failAssert | sealHoldExpiry | packCollapse | packSurpriseRemoval | packSample
  | chipFatalFault | mgmtWatchdogExpiry | dramPlaced | vin12BelowGood => cases hc
  | _ => exact devOnly_of_next h

theorem onBoth_pending {f : Dev × List Host.Cell → Dev × List Host.Cell} {s t : State} (h : onBoth f s = .next t) :
    t.pending = s.pending := by rw [onBoth_inv h]

/-- No command touches the queue behind it. -/
theorem exec_pending {c : Instr} {s t : State} (h : exec c s = .next t) : t.pending = s.pending := by
  cases hc : touchesDram c with
  | false => exact (exec_devOnly hc h).2
  | true =>
    cases c with
    | hostReadCompletion | release | windowWrite | selfRefreshEntered | granuleReloaded | imageLocated
    | functionRestored | keyErase => exact onBoth_pending h
    | failAssert | sealHoldExpiry | packCollapse | packSurpriseRemoval | packSample
    | chipFatalFault | mgmtWatchdogExpiry | dramPlaced | vin12BelowGood => exact (onPower_dev h).2
    | _ => cases hc

/-- Settles O3: only `onBoth` and `onPower` write the cache DRAM, and no shape of a meaning writes the queue. -/
theorem queueAndDramFrames : Obligations.QueueAndDramFrames :=
  ⟨fun _ _ _ h => exec_pending h, fun _ _ _ hc h a => congrArg (memRead · a) (exec_devOnly hc h).1⟩

theorem readLatch_keptBy {c : Instr} (hr : ∀ r, c ≠ .lowHalfRead r) (hm : ∀ mv, c ≠ .mainSupplyGood mv) :
    Part.readLatch.KeptBy c := by
  simp only [Part.KeptBy, Part.writtenBy]

theorem fetch_keptBy {c : Instr} (hf : ∀ e g, c ≠ .descriptorFetch e g) (hm : ∀ mv, c ≠ .mainSupplyGood mv) :
    Part.fetch.KeptBy c := by
  simp only [Part.KeptBy, Part.writtenBy]

theorem settings_keptBy {c : Instr} (hw : ∀ w, c ≠ .registerWrite w) (hm : ∀ mv, c ≠ .mainSupplyGood mv) :
    Part.settings.KeptBy c := by
  simp only [Part.KeptBy, Part.writtenBy]

/-- Settles O9: each clause is `exec_part` for the part that it names. -/
theorem boardAndRecordFrames : Obligations.BoardAndRecordFrames := by
  intro c s t h
  refine ⟨fun hc => exec_part (q := .board) hc h, fun hc => exec_part (q := .rom) hc h,
    fun hc => exec_part (q := .enc) hc h, fun hc => exec_part (q := .svc) hc h,
    fun hr hm => exec_part (q := .readLatch) (readLatch_keptBy hr hm) h, fun hf hm => ?_, fun hw hm => ?_⟩
  · have hp : (t.dev.nextHandle, t.dev.wrrFn) = (s.dev.nextHandle, s.dev.wrrFn) :=
      exec_part (q := .fetch) (fetch_keptBy hf hm) h
    simpa using hp
  · have hp : (t.dev.stgCtl, t.dev.stgWear, t.dev.stgScrub, t.dev.stgCompact, t.dev.stgReserve)
        = (s.dev.stgCtl, s.dev.stgWear, s.dev.stgScrub, s.dev.stgCompact, s.dev.stgReserve) :=
      exec_part (q := .settings) (settings_keptBy hw hm) h
    simpa using hp

end Sys2Proof.Machine
end

section
/-!
PROOFS. The stamps of the ordering point, and what a commit and a mode change stamp (O27).
-/

namespace Sys2Proof.Machine

/-! ### Stamps (R28) -/

theorem Tmb.ht_le_closeCycle (t : Tmb) : t.ht ≤ t.closeCycle.ht := by
  have h : t.ht ≤ t.ht - t.slot + max t.span t.slot := by omega
  simp only [Tmb.closeCycle]
  split
  · exact h
  · exact h

@[simp] theorem Tmb.closeCycle_slot (t : Tmb) : t.closeCycle.slot = 0 := by
  simp only [Tmb.closeCycle]
  split <;> rfl

@[simp] theorem Tmb.closeCycle_epochId (t : Tmb) : t.closeCycle.epochId = t.epochId := by
  simp only [Tmb.closeCycle]
  split <;> rfl

/-- HT is past a stamp from then on. -/
theorem Tmb.ht_lt_accept (t : Tmb) : t.ht < t.accept.ht := by
  simp only [Tmb.accept]
  split
  · exact (Nat.lt_succ_self t.ht).trans_le (Tmb.ht_le_closeCycle { t with ht := t.ht + 1, slot := t.slot + 1 })
  · exact Nat.lt_succ_self t.ht

/-- A cycle gives four stamps at most: the fourth ends it. -/
theorem Tmb.accept_slot_lt (t : Tmb) : t.accept.slot < 4 := by
  simp only [Tmb.accept]
  split
  · simp
  · next h => simp only at h ⊢; omega

@[simp] theorem Tmb.accept_epochId (t : Tmb) : t.accept.epochId = t.epochId := by
  simp only [Tmb.accept]
  split
  · simp
  · rfl

/-! ### The class of an uncertainty (Table 3.2) -/

/-- `classFrom u n k` is the first of the `n` classes from `k` on whose bound reaches `u`, or 15. -/
theorem classFrom_first (u n k : Nat) :
    (classFrom u n k = 15 ∧ ∀ j, k ≤ j → j < k + n → 8 * 4 ^ j < u)
    ∨ (k ≤ classFrom u n k ∧ classFrom u n k < k + n ∧ u ≤ 8 * 4 ^ classFrom u n k
        ∧ ∀ j, k ≤ j → j < classFrom u n k → 8 * 4 ^ j < u) := by
  induction n generalizing k with
  | zero => exact .inl ⟨rfl, fun j _ _ => by omega⟩
  | succ n ih =>
    rw [classFrom]
    split
    · next hu => exact .inr ⟨Nat.le_refl k, by omega, hu, fun j _ _ => by omega⟩
    · next hu =>
      have at_k : 8 * 4 ^ k < u := Nat.lt_of_not_le hu
      have from_k {b : Nat} (h : ∀ j, k + 1 ≤ j → j < b → 8 * 4 ^ j < u) (j : Nat) (hj : k ≤ j)
          (hb : j < b) : 8 * 4 ^ j < u := by
        obtain rfl | hk := Nat.eq_or_lt_of_le hj
        · exact at_k
        · exact h j hk hb
      obtain ⟨h15, hj⟩ | ⟨hk, hn, hc, hj⟩ := ih (k + 1)
      · exact .inl ⟨h15, from_k (fun j h h' => hj j h (by omega))⟩
      · exact .inr ⟨by omega, by omega, hc, from_k hj⟩

/-- The class found for a bound is the first that reaches it. -/
theorem classFrom_spec (u : Nat) : classFrom u 15 0 ≤ 15
    ∧ (classFrom u 15 0 < 15 → u ≤ 8 * 4 ^ classFrom u 15 0)
    ∧ (∀ k, k < classFrom u 15 0 → 8 * 4 ^ k < u) := by
  obtain ⟨h15, hj⟩ | ⟨-, hn, hc, hj⟩ := classFrom_first u 15 0
  · exact ⟨h15.le, fun h => absurd h15 (Nat.ne_of_lt h), fun k hk => hj k (Nat.zero_le k) (by omega)⟩
  · exact ⟨by omega, fun _ => hc, fun k => hj k (Nat.zero_le k)⟩

/-! ### Mode changes (R33) -/

/-- A mode change sets the record of the mode, and besides only reports. -/
theorem reports_transition (m : Mode) (c : Nat) (d : Dev) :
    Dev.Reports { d with
      chp := { d.chp with mode := m, prev := d.chp.mode, cause := c, seq := (d.chp.seq + 1) % 256,
                          modeHt := d.tmb.ht } } (transition m c d) :=
  (reports_trace ..).trans (reports_postEvent ..)

/-! ### The index follows the extents -/

/-- The device without its index: what an update of the index leaves alone. -/
def Dev.unindexed (d : Dev) : Dev := { d with fns := [], idx := {} }

theorem unindexed_updateYield (d : Dev) : (updateYield d).unindexed = d.unindexed := rfl

theorem unindexed_insertEntry (d : Dev) (x : Extent) : (insertEntry d x).unindexed = d.unindexed := by
  unfold insertEntry
  split
  · rfl
  · split <;> rfl

theorem unindexed_insertEntries (xs : List Extent) (d : Dev) :
    (xs.foldl insertEntry d).unindexed = d.unindexed := by
  induction xs generalizing d with
  | nil => rfl
  | cons x xs ih => rw [List.foldl_cons, ih, unindexed_insertEntry]

theorem unindexed_syncIndex (d : Dev) : (syncIndex d).unindexed = d.unindexed :=
  (unindexed_updateYield _).trans (unindexed_insertEntries ..)

/-- What `syncIndex` leaves alone: any function of the device without its index. -/
theorem syncIndex_keep {α : Type} (f : Dev → α) (hf : ∀ d, f d.unindexed = f d) (d : Dev) :
    f (syncIndex d) = f d := by
  rw [← hf (syncIndex d), unindexed_syncIndex, hf d]

theorem prune_keep {α : Type} (f : Dev → α) (hf : ∀ d, f d.unindexed = f d)
    (hx : ∀ d xs, f { d with exts := xs } = f d) (d : Dev) : f (prune d) = f d :=
  (syncIndex_keep f hf _).trans (hx ..)

theorem prune_exts (d : Dev) : (prune d).exts = d.exts.filter (fun x => x.legacy || (ownPages d x) ≠ []) :=
  syncIndex_keep Dev.exts (fun _ => rfl) _

/-! ### Pages -/

/-- An update of pages leaves everything else alone. -/
theorem updPages_keep {α : Type} (f : Dev → α) (hf : ∀ d ps, f { d with pages := ps } = f d) (ps : List Nat)
    (g : Page → Page) (d : Dev) : f (updPages ps g d) = f d := by
  unfold updPages
  induction ps generalizing d with
  | nil => rfl
  | cons p ps ih => exact (ih _).trans (hf d _)

/-- Each page of a list set to one value. -/
theorem getPage_updPages_const (ps : List Nat) (v : Page) (d : Dev) (p : Nat) :
    getPage (updPages ps (fun _ => v) d) p = if p ∈ ps then v else getPage d p := by
  unfold updPages
  induction ps generalizing d with
  | nil => rfl
  | cons k ps ih =>
    rw [List.foldl_cons, ih, getPage_updPage]
    by_cases hp : p ∈ ps
    · simp [hp]
    · simp [hp, eq_comm]

theorem pageOf_mem_pagesOf {a n : Nat} (h : n ≠ 0) : pageOf a ∈ pagesOf a n :=
  List.mem_map.mpr ⟨0, List.mem_range.mpr (Nat.pos_of_ne_zero h), rfl⟩

/-! ### The end of a descriptor -/

theorem finish_descs (x : Desc) (st r b c y h : Nat) (d : Dev) :
    (finish x st r b c y h d).descs = d.descs.filter (fun y => y.handle ≠ x.handle) :=
  ((reports_deliver ..).after ((reports_countStatus ..).after (reports_countFn ..))).descs_eq

/-- A descriptor that ends is there no more. -/
theorem findDesc_finish (x : Desc) (st r b c y h : Nat) (d : Dev) :
    findDesc (finish x st r b c y h d) x.handle = none := by
  rw [findDesc, finish_descs, List.find?_eq_none]
  intro y hy
  simpa using (List.mem_filter.mp hy).2

/-! ### Commits (R1, R28, R53, R77) -/

/-- The extent of a commit. -/
def commitExtent (x : Desc) (d : Dev) : Extent :=
  { eid := d.nextEid, fn := x.fn, tag := x.entry.tag, caddr := x.entry.caddr, pages := x.entry.pages, ht := d.tmb.ht
    cls := commitClass d, seq := x.seq, hidx := d.hrk.index, epochId := d.tmb.accept.epochId }

/-- A page that a commit holds, not staged yet. -/
def committedPage (x : Desc) (d : Dev) : Page := { kind := .held, eid := d.nextEid, fn := x.fn, unstaged := true }

/-- The pages of a commit's range held under the next extent, at the stamp's time base. -/
def holdPages (x : Desc) (d : Dev) : Dev :=
  updPages (pagesOf x.entry.caddr x.entry.pages) (fun _ => committedPage x d) { d with tmb := d.tmb.accept }

/-- The device of a commit before its descriptor ends: its pages held, its extent entered, those left without a
page gone, and the epoch marked. -/
def entered (x : Desc) (d : Dev) : Dev :=
  let e := holdPages x d
  prune { e with
    exts := e.exts ++ [commitExtent x d], nextEid := d.nextEid + 1
    tmb := { e.tmb with epochCommitted := true, bootCommit := true } }

theorem holdPages_keep {α : Type} (f : Dev → α) (hf : ∀ d ps, f { d with pages := ps } = f d) (x : Desc)
    (d : Dev) : f (holdPages x d) = f { d with tmb := d.tmb.accept } :=
  updPages_keep f hf ..

theorem getPage_holdPages (x : Desc) (d : Dev) (p : Nat) :
    getPage (holdPages x d) p
      = if p ∈ pagesOf x.entry.caddr x.entry.pages then committedPage x d else getPage d p :=
  getPage_updPages_const ..

/-- A commit ends its descriptor on the device with its pages and extent entered. -/
theorem commitHold_eq (x : Desc) (d : Dev) :
    commitHold x none d = countFn x.fn 7 x.bytesLen (finish x stSuccess 0 0 (if x.waited then 1 else 0)
      (if x.waited then max 1 (usBetween x.readyHt d.tmb.ht) else 0) d.tmb.ht (entered x d)) := rfl

theorem answers_commitHold (x : Desc) (d : Dev) : (entered x d).Answers (commitHold x none d) := by
  rw [commitHold_eq]
  exact (answers_finish ..).trans (reports_countFn ..).answers

theorem findDesc_commitHold (x : Desc) (d : Dev) : findDesc (commitHold x none d) x.handle = none := by
  rw [commitHold_eq, findDesc, (reports_countFn ..).descs_eq]
  exact findDesc_finish ..

theorem getPage_entered (x : Desc) (d : Dev) (p : Nat) :
    getPage (entered x d) p
      = if p ∈ pagesOf x.entry.caddr x.entry.pages then committedPage x d else getPage d p :=
  (prune_keep (getPage · p) (fun _ => rfl) (fun _ _ => rfl) _).trans (getPage_holdPages ..)

theorem getPage_commitHold (x : Desc) (d : Dev) (p : Nat) :
    getPage (commitHold x none d) p
      = if p ∈ pagesOf x.entry.caddr x.entry.pages then committedPage x d else getPage d p :=
  ((answers_commitHold x d).keep (getPage · p) (fun _ => rfl)).trans (getPage_entered ..)

theorem commitHold_tmb (x : Desc) (d : Dev) :
    (commitHold x none d).tmb = { d.tmb.accept with epochCommitted := true, bootCommit := true } := by
  have hp : (holdPages x d).tmb = d.tmb.accept := holdPages_keep Dev.tmb (fun _ _ => rfl) x d
  rw [(answers_commitHold x d).tmb_eq, ← hp]
  exact prune_keep Dev.tmb (fun _ => rfl) (fun _ _ => rfl) _

theorem commitHold_nextEid (x : Desc) (d : Dev) : (commitHold x none d).nextEid = d.nextEid + 1 :=
  (answers_commitHold x d).nextEid_eq.trans (prune_keep Dev.nextEid (fun _ => rfl) (fun _ _ => rfl) _)

theorem commitHold_chp (x : Desc) (d : Dev) : (commitHold x none d).chp = d.chp :=
  (answers_commitHold x d).chp_eq.trans
    ((prune_keep Dev.chp (fun _ => rfl) (fun _ _ => rfl) _).trans (holdPages_keep Dev.chp (fun _ _ => rfl) x d))

/-- The extent of a commit with pages stays in the index: it owns the first page of its range. -/
theorem commitExtent_mem (x : Desc) (d : Dev) (h : x.entry.pages ≠ 0) :
    commitExtent x d ∈ (commitHold x none d).exts := by
  have hp : pageOf x.entry.caddr ∈ pagesOf x.entry.caddr x.entry.pages := pageOf_mem_pagesOf h
  rw [(answers_commitHold x d).exts_eq, entered, prune_exts]
  refine List.mem_filter.mpr ⟨List.mem_append_right _ (List.mem_singleton_self _), ?_⟩
  have owned : pageOf x.entry.caddr ∈ ownPages (holdPages x d) (commitExtent x d) := by
    refine List.mem_filter.mpr ⟨hp, ?_⟩
    rw [getPage_holdPages, if_pos hp]
    simp [committedPage, commitExtent]
  rw [Bool.or_eq_true, decide_eq_true_eq]
  exact .inr (List.ne_nil_of_mem owned)

/-- Settles O27: the pages, the extent and the time base that a commit leaves, and the stamp and the class on
their own. -/
theorem stampedCommits : Obligations.StampedCommits := by
  refine ⟨fun x d => ⟨fun p hp => ?_, fun p hp => ?_, ?_, ?_, fun h => ?_, commitHold_nextEid x d,
      findDesc_commitHold x d, commitHold_chp x d⟩,
    reports_transition, fun d => ⟨rfl, Tmb.ht_lt_accept d.tmb, Tmb.accept_slot_lt d.tmb, rfl⟩, classFrom_spec⟩
  · rw [getPage_commitHold, if_pos hp]
    rfl
  · rw [getPage_commitHold, if_neg hp]
  · rw [commitHold_tmb]
    exact Tmb.ht_lt_accept d.tmb
  · rw [commitHold_tmb]
  · exact ⟨commitExtent x d, commitExtent_mem x d h, rfl, rfl, rfl, rfl, rfl, Tmb.accept_epochId _⟩

end Sys2Proof.Machine
end

section
/-!
PROOFS. Register reads: a read of the counter of incoming TLPs counts itself first (O60).
-/

namespace Sys2Proof.Machine

/-- The counter of incoming TLPs after one more of them (Table 20.3). -/
theorem read64_obsCnt_zero_count (d : Dev) :
    read64 (.obsCnt 0) (count 0 1 d) = (read64 (.obsCnt 0) d + 1) % 2 ^ 64 := by
  simp [read64, count]

/-- A read of a lower half over the link: its TLP is counted, and then the register is read. -/
theorem hostRead_lowHalf {d : Dev} (h : linkUp d = true) (r : Reg64) :
    hostRead (.lowHalf r) d = lowHalf r (count 0 1 d) := by
  simp [hostRead, h]

/-- Refutes O60: a read of a lower half is said to answer the register as it stood before the command, but the read
is a TLP in, and counter 0 of OBS_CNT counts it before it is returned (R349). With the link up and the counter at
0, the read answers 1. -/
theorem not_registersAndObservation : ¬ Obligations.RegistersAndObservation := by
  intro h
  obtain ⟨-, -, -, -, -, -, -, -, lowHalfRead, -⟩ := h
  obtain ⟨t, ht, -, -, answer, -⟩ :=
    lowHalfRead (.obsCnt 0) { dev := { ept := { link := .l0 } } } rfl (by simp)
  rw [onDev_inv ht, hostRead_lowHalf rfl] at answer
  have read_one : leBytes 4 1 = leBytes 4 0 := by
    simpa [lowHalf, emit, read64_obsCnt_zero_count, read64, count, Tab.get] using answer
  exact absurd read_one (by decide)

end Sys2Proof.Machine
end

section
/-!
PROOFS. The canonical form of the cache DRAM (R16, R17): every operation that writes the cache DRAM keeps it, and so
does every step (O5); what a read gives after a write of bytes and after a clear (O7).
-/

namespace Sys2Proof.Machine

/-- A fold over the cache DRAM keeps the form that each of its steps keeps. -/
theorem memory_wf_foldl {α : Type} {f : List Host.Cell → α → List Host.Cell}
    (hf : ∀ n a, Memory.wf n → Memory.wf (f n a)) (l : List α) {m : List Host.Cell} (h : Memory.wf m) :
    Memory.wf (l.foldl f m) :=
  l.foldlRecOn f h fun n hn a _ => hf n a hn

/-- `memory_wf_foldl` for a fold that carries the device beside the cache DRAM. -/
theorem memory_wf_foldl_snd {α : Type} {f : Dev × List Host.Cell → α → Dev × List Host.Cell}
    (hf : ∀ r a, Memory.wf r.2 → Memory.wf (f r a).2) (l : List α) {r : Dev × List Host.Cell} (h : Memory.wf r.2) :
    Memory.wf (l.foldl f r).2 :=
  l.foldlRecOn (motive := fun r => Memory.wf r.2) f h fun n hn a _ => hf n a hn

/-- An operation on the device and the cache DRAM keeps the form where each of its two branches does. -/
theorem memory_wf_ite_snd {c : Prop} [Decidable c] {a b : Dev × List Host.Cell} (ha : Memory.wf a.2)
    (hb : Memory.wf b.2) : Memory.wf (if c then a else b).2 := by
  split
  · exact ha
  · exact hb

/-- Pages are cleared one after another. -/
theorem memory_wf_clearPages (ps : List Nat) {m : List Host.Cell} (h : Memory.wf m) :
    Memory.wf (ps.foldl (fun m p => memClear m (pageAddr p) pageBytes) m) :=
  memory_wf_foldl (fun n _ hn => memClear_wf n _ _ hn) ps h

/-- A page is cleared, and then its record's content or what the flash senses is written over it. -/
theorem memory_wf_replacePage (c : Prop) [Decidable c] (p : Nat) (bs : List Byte) (cs : List Host.Cell)
    {m : List Host.Cell} (h : Memory.wf m) :
    Memory.wf (if c then memWriteBytes (memClear m (pageAddr p) pageBytes) (pageAddr p) bs
      else memOverlay (memClear m (pageAddr p) pageBytes) cs) := by
  have cleared := memClear_wf m (pageAddr p) pageBytes h
  split
  · exact memWriteBytes_wf _ _ _ cleared
  · exact memOverlay_wf _ _ cleared

/-! ### The operations that write the cache DRAM -/

theorem readCompletion_wf (t : Nat) (st : CplStatus) (data : List Byte) (p : Dev × List Host.Cell)
    (h : Memory.wf p.2) : Memory.wf (readCompletion t st data p).2 := by
  obtain ⟨d, m⟩ := p
  unfold readCompletion
  dsimp only
  split
  · exact h
  refine memory_wf_ite_snd h (memory_wf_ite_snd h (memory_wf_ite_snd h ?_))
  split
  · exact memory_wf_ite_snd h (memWriteBytes_wf _ _ _ h)
  · split <;> exact h

theorem windowWrite_wf (f off : Nat) (data : List Byte) (poisoned : Bool) (p : Dev × List Host.Cell)
    (h : Memory.wf p.2) : Memory.wf (windowWrite f off data poisoned p).2 := by
  obtain ⟨d, m⟩ := p
  refine memory_wf_ite_snd h (memory_wf_ite_snd h ?_)
  dsimp only
  split
  · exact h
  · exact memory_wf_ite_snd h (memory_wf_ite_snd h (memWriteBytes_wf _ _ _ h))

theorem releaseStart_wf (n : Nat) (p : Dev × List Host.Cell) (h : Memory.wf p.2) :
    Memory.wf (releaseStart n p).2 := by
  unfold releaseStart
  dsimp only
  split
  · exact h
  split
  · exact h
  split
  · exact h
  · exact memory_wf_clearPages _ h

theorem dropFn_wf (s f : Nat) (p : Dev × List Host.Cell) (h : Memory.wf p.2) : Memory.wf (dropFn s f p).2 :=
  memory_wf_clearPages _ h

theorem keyErase_wf (n : Nat) (p : Dev × List Host.Cell) (h : Memory.wf p.2) : Memory.wf (keyErase n p).2 := by
  obtain ⟨d, m⟩ := p
  unfold keyErase
  dsimp only
  split
  · exact h
  · next x e _ =>
    refine memory_wf_ite_snd h (memory_wf_ite_snd h (memory_wf_ite_snd h (memory_wf_ite_snd h ?_)))
    dsimp only
    exact dropFn_wf _ _ (e, m) h

theorem selfRefresh_wf (p : Dev × List Host.Cell) (h : Memory.wf p.2) : Memory.wf (selfRefresh p).2 := by
  exact memory_wf_ite_snd h (memory_wf_filter _ _ h)

theorem imageLocated_wf (p : Dev × List Host.Cell) (h : Memory.wf p.2) : Memory.wf (imageLocated p).2 := by
  exact memory_wf_ite_snd h (memory_wf_ite_snd h memory_wf_nil)

theorem reloadPage_wf (e : Nat × Page) (p : Dev × List Host.Cell) (h : Memory.wf p.2) :
    Memory.wf (reloadPage e p).2 := by
  simp only [reloadPage]
  split
  · exact h
  · exact memory_wf_replacePage _ _ _ _ h

theorem reloadPages_wf (ps : List (Nat × Page)) (p : Dev × List Host.Cell) (h : Memory.wf p.2) :
    Memory.wf (ps.foldl (fun p e => reloadPage e p) p).2 :=
  memory_wf_foldl_snd (fun r e hr => reloadPage_wf e r hr) ps h

theorem serveHeld_wf (t : HeldTlp) (p : Dev × List Host.Cell) (h : Memory.wf p.2) :
    Memory.wf (serveHeld t p).2 := by
  simp only [serveHeld]
  split
  · exact h
  · exact memWriteBytes_wf _ _ _ h

theorem granuleReloaded_wf (g : Nat) (p : Dev × List Host.Cell) (h : Memory.wf p.2) :
    Memory.wf (granuleReloaded g p).2 := by
  unfold granuleReloaded
  dsimp only
  split
  · exact h
  · exact memory_wf_foldl_snd (fun r t hr => serveHeld_wf t r hr) _ (reloadPages_wf _ _ h)

theorem writeUnack_wf (id : Nat) (p : Dev × List Host.Cell) (h : Memory.wf p.2) :
    Memory.wf (writeUnack id p).2 := by
  simp only [writeUnack]
  split
  · exact h
  · refine memory_wf_foldl (fun n page hn => ?_) _ h
    have cleared := memClear_wf n (pageAddr page) pageBytes hn
    split
    · exact memOverlay_wf _ _ cleared
    · exact memWriteBytes_wf _ _ _ cleared

theorem restoreFn_wf (f : Nat) (p : Dev × List Host.Cell) (h : Memory.wf p.2) : Memory.wf (restoreFn f p).2 := by
  unfold restoreFn
  dsimp only
  split
  · exact h
  · exact memory_wf_foldl_snd (fun r id hr => writeUnack_wf id r hr) _ (reloadPages_wf _ _ h)

/-! ### Every step (O5) -/

theorem onBoth_keeps_inv {f : Dev × List Host.Cell → Dev × List Host.Cell} {s t : State}
    (hf : ∀ p, Memory.wf p.2 → Memory.wf (f p).2) (h : onBoth f s = .next t) (hi : s.Inv) : t.Inv := by
  rw [onBoth_inv h]
  exact hf (s.dev, s.dram) hi

/-- A command that can take the power of the cache DRAM leaves it as it was, or empty. -/
theorem onPower_keeps_inv {f : Dev → Dev} {s t : State} (h : onPower f s = .next t) (hi : s.Inv) : t.Inv := by
  unfold onPower at h
  dsimp only at h
  split at h
  · rw [← Host.Outcome.next.inj h]
    exact memory_wf_nil
  · rw [← Host.Outcome.next.inj h]
    exact hi

/-- Every command keeps the canonical form of the cache DRAM. -/
theorem exec_keeps_inv {c : Instr} {s t : State} (h : exec c s = .next t) (hi : s.Inv) : t.Inv := by
  cases hc : touchesDram c with
  | false =>
    obtain ⟨hdram, -⟩ := exec_devOnly hc h
    rw [State.Inv, hdram]
    exact hi
  | true =>
    cases c with
    | hostReadCompletion => exact onBoth_keeps_inv (readCompletion_wf _ _ _) h hi
    | release => exact onBoth_keeps_inv (releaseStart_wf _) h hi
    | windowWrite => exact onBoth_keeps_inv (windowWrite_wf _ _ _ _) h hi
    | selfRefreshEntered => exact onBoth_keeps_inv selfRefresh_wf h hi
    | granuleReloaded => exact onBoth_keeps_inv (granuleReloaded_wf _) h hi
    | imageLocated => exact onBoth_keeps_inv imageLocated_wf h hi
    | functionRestored => exact onBoth_keeps_inv (restoreFn_wf _) h hi
    | keyErase => exact onBoth_keeps_inv (keyErase_wf _) h hi
    | failAssert | sealHoldExpiry | packCollapse | packSurpriseRemoval | packSample
    | chipFatalFault | mgmtWatchdogExpiry | dramPlaced | vin12BelowGood => exact onPower_keeps_inv h hi
    | _ => cases hc

/-- Settles O5: a cycle of the time base writes no cache DRAM, and each command keeps its form. -/
theorem stepKeepsDramForm : Obligations.StepKeepsDramForm := by
  intro s t hi h
  unfold step at h
  split at h
  · rw [← Host.Outcome.next.inj h]
    exact hi
  · exact exec_keeps_inv h hi

/-! ### Reads after a write and after a clear (O7) -/

/-- Settles O7: a write of bytes reads back within its range, and a cleared range reads zero. -/
theorem dramReads : Obligations.DramReads := by
  refine ⟨fun m a b bs hm => ?_, fun m a b n _ => memRead_memClear m a n b⟩
  rw [memRead_memWriteBytes bs m a b hm]
  split
  · next hb => exact List.getD_eq_getElem _ _ (by omega)
  · rfl

end Sys2Proof.Machine
end

section
/-!
PROOFS. What the device's own work leaves alone beside the parts of O8 and O9: the mode, the curtain's marks, pages,
cells, poisoned lines, what stands of the flash image, and how each block stands. A facet is one of them, and a frame
says which facets an operation keeps.
-/

namespace Sys2Proof.Machine

/-- The modes between which rows 16 to 19 of Table 2.3, and the end of a rehearsal, move a device count as one. -/
def Mode.ground : Mode → Mode
  | .armed | .derated | .writeThrough | .rehearsal => .armed
  | m => m

/-- What of a record being staged O24 speaks of: its identifier, whether it counts written, and its unit. -/
abbrev Rec.stageKey (r : Rec) : Nat × Bool × Nat × Nat × Nat := (r.id, r.written, r.cell, r.target, r.position)

/-- The records of kind STAGE among some records, by `Rec.stageKey`. -/
def stagedOf (rs : List Rec) : List (Nat × Bool × Nat × Nat × Nat) :=
  (rs.filter (fun r => r.kind = .stage)).map Rec.stageKey

/-- What a frame speaks of: the board; the mode with its cause and marks whole, or of it the class of the mode, the
failed islands and HALT; a curtain's FAULT and PROTECTIVE; pages, cells, poisoned lines; the flash image whole, or of
it the retired units, the journalled intents, the segments of ports and the staging records; and of every block
whether it is fenced, its data path stopped, its save crossed, its pipes working, and its uncorrectable lines. -/
inductive Facet
  | board | chp | mode | fatal | halt | marks | pages | cells | poison | flash | retired | intents | segments | staged
  | fenced | path | cross | pipes | ecc
  deriving DecidableEq

/-- What a facet holds. -/
@[reducible] def Facet.Content : Facet → Type
  | .board => Board
  | .chp => Chp
  | .mode => Mode
  | .fatal => List Nat
  | .halt => Bool
  | .marks => Bool × Bool
  | .pages => Tab Page
  | .cells => Tab CellSt
  | .poison => List Nat
  | .flash => Flash
  | .retired | .intents => List (Nat × Nat × Nat)
  | .segments => List ((Nat × Nat × Nat × Nat) × Tab Byte)
  | .staged => List (Nat × Bool × Nat × Nat × Nat)
  | .fenced | .path | .cross => Nat → Bool
  | .pipes => Nat → Bool × Bool
  | .ecc => Nat → Nat

/-- A facet of the components that hold it. -/
def Facet.pick (board : Board) (chp : Chp) (cur : Curtain) (pages : Tab Page) (blk : Tab Blk) (cells : Tab CellSt)
    (flash : Flash) (drc : Drc) : (q : Facet) → q.Content
  | .board => board
  | .chp => chp
  | .mode => chp.mode.ground
  | .fatal => chp.fatalIslands
  | .halt => chp.halt
  | .marks => (cur.faultFlag, cur.protectiveFlag)
  | .pages => pages
  | .cells => cells
  | .poison => drc.poison
  | .flash => flash
  | .retired => flash.retired
  | .intents => flash.intents
  | .segments => flash.segments
  | .staged => stagedOf flash.records
  | .fenced => fun b => (Tab.get {} blk b).fenced
  | .path => fun b => (Tab.get {} blk b).pathFailed
  | .cross => fun b => (Tab.get {} blk b).crossSave
  | .pipes => fun b => ((Tab.get {} blk b).pipe0Ok, (Tab.get {} blk b).pipe1Ok)
  | .ecc => fun b => (Tab.get {} blk b).eccUncorrected

/-- One facet of the device. -/
def Dev.facet (d : Dev) (q : Facet) : q.Content :=
  Facet.pick d.board d.chp d.cur d.pages d.blk d.cells d.flash d.drc q

@[simp] theorem Dev.facet_mk (q : Facet) (board : Board) (pins : Pins) (chp : Chp) (tmb : Tmb) (spw : Spw)
    (cur : Curtain) (int : Intermission) (adm : Adm) (pages : Tab Page) (exts : List Extent) (blk : Tab Blk)
    (cells : Tab CellSt) (flash : Flash) (stgCtl stgWear stgScrub stgCompact stgReserve : W32) (err : Err)
    (obs : Obs) (fns : Tab FnSt) (mrg : Mrg) (descs : List Desc) (ept : Ept) (cip : Cip) (idx : Idx) (drc : Drc)
    (enc : Enc) (reh : Reh) (svc : Svc) (rom : Rom) (hrk : Hrk) (est : Est) (pkb : Pkb)
    (halfLatch : List (Reg × W32)) (readLatch : List (Reg64 × W32)) (freeCtr nextHandle nextEid wrrFn : Nat)
    (outbox : List Out) :
    (Dev.mk board pins chp tmb spw cur int adm pages exts blk cells flash stgCtl stgWear stgScrub stgCompact
      stgReserve err obs fns mrg descs ept cip idx drc enc reh svc rom hrk est pkb halfLatch readLatch freeCtr
      nextHandle nextEid wrrFn outbox).facet q = Facet.pick board chp cur pages blk cells flash drc q := rfl

/-- Components that differ from the device's in other facets alone give the device's facet; the board, which none of
the operations framed here writes, names the device. -/
@[simp] theorem Facet.pick_facet {q : Facet} {d : Dev} {chp : Chp} {cur : Curtain} {pages : Tab Page} {blk : Tab Blk}
    {cells : Tab CellSt} {flash : Flash} {drc : Drc}
    (hchp : q ≠ .chp ∨ chp = d.chp) (hmode : q ≠ .mode ∨ chp.mode.ground = d.chp.mode.ground)
    (hfatal : q ≠ .fatal ∨ chp.fatalIslands = d.chp.fatalIslands) (hhalt : q ≠ .halt ∨ chp.halt = d.chp.halt)
    (hmarks : q ≠ .marks ∨ cur.faultFlag = d.cur.faultFlag ∧ cur.protectiveFlag = d.cur.protectiveFlag)
    (hpages : q ≠ .pages ∨ pages = d.pages) (hcells : q ≠ .cells ∨ cells = d.cells)
    (hpoison : q ≠ .poison ∨ drc.poison = d.drc.poison)
    (hflash : q ≠ .flash ∨ flash = d.flash) (hretired : q ≠ .retired ∨ flash.retired = d.flash.retired)
    (hintents : q ≠ .intents ∨ flash.intents = d.flash.intents)
    (hsegments : q ≠ .segments ∨ flash.segments = d.flash.segments)
    (hstaged : q ≠ .staged ∨ stagedOf flash.records = stagedOf d.flash.records)
    (hfenced : q ≠ .fenced ∨ ∀ j, (Tab.get {} blk j).fenced = (Tab.get {} d.blk j).fenced)
    (hpath : q ≠ .path ∨ ∀ j, (Tab.get {} blk j).pathFailed = (Tab.get {} d.blk j).pathFailed)
    (hcross : q ≠ .cross ∨ ∀ j, (Tab.get {} blk j).crossSave = (Tab.get {} d.blk j).crossSave)
    (hpipes : q ≠ .pipes ∨ ∀ j, (Tab.get {} blk j).pipe0Ok = (Tab.get {} d.blk j).pipe0Ok
      ∧ (Tab.get {} blk j).pipe1Ok = (Tab.get {} d.blk j).pipe1Ok)
    (hecc : q ≠ .ecc ∨ ∀ j, (Tab.get {} blk j).eccUncorrected = (Tab.get {} d.blk j).eccUncorrected) :
    Facet.pick d.board chp cur pages blk cells flash drc q = d.facet q := by
  cases q <;> simp_all [Facet.pick, Dev.facet]

/-- What the reports write holds no facet. -/
theorem Dev.Reports.facet_eq {q : Facet} {a b : Dev} (h : a.Reports b) : b.facet q = a.facet q :=
  h.keep (Dev.facet · q) (fun _ => rfl)

theorem Dev.Answers.facet_eq {q : Facet} {a b : Dev} (h : a.Answers b) : b.facet q = a.facet q :=
  h.keep (Dev.facet · q) (fun _ => rfl)

/-! ### What a facet says -/

theorem Mode.eq_of_ground {m k : Mode} (hk : k ≠ .armed) (h : m.ground = k) : m = k := by
  cases m <;> simp_all [Mode.ground]

end Sys2Proof.Machine
end

section
/-!
PROOFS. The frames of the operations that a recomputation calls, and of the faults of cells, blocks and records: which
facets each keeps. They stand in the model's order, so that each proof rests on the frames of the operations called.
-/

namespace Sys2Proof.Machine

variable {q : Facet}

@[simp] theorem facet_ite (c : Prop) [Decidable c] (a b : Dev) :
    (if c then a else b).facet q = if c then a.facet q else b.facet q := apply_ite (Dev.facet · q) ..

/-- Frames fold: a fold keeps a facet that each of its steps keeps. -/
@[simp] theorem facet_foldl {α : Type} {f : Dev → α → Dev} (hf : ∀ e a, (f e a).facet q = e.facet q) (l : List α)
    (d : Dev) : (l.foldl f d).facet q = d.facet q := by
  induction l generalizing d with
  | nil => rfl
  | cons a l ih => rw [List.foldl_cons, ih, hf]

/-! ### Updates of one entry -/

@[simp] theorem facet_updBlk {b : Nat} {f : Blk → Blk} {d : Dev}
    (hfenced : q ≠ .fenced ∨ ∀ k, (f k).fenced = k.fenced) (hpath : q ≠ .path ∨ ∀ k, (f k).pathFailed = k.pathFailed)
    (hcross : q ≠ .cross ∨ ∀ k, (f k).crossSave = k.crossSave)
    (hpipes : q ≠ .pipes ∨ ∀ k, (f k).pipe0Ok = k.pipe0Ok ∧ (f k).pipe1Ok = k.pipe1Ok)
    (hecc : q ≠ .ecc ∨ ∀ k, (f k).eccUncorrected = k.eccUncorrected) : (updBlk b f d).facet q = d.facet q := by
  have kept {α : Type} (g : Blk → α) (h : ∀ k, g (f k) = g k) (j : Nat) :
      g (Tab.get {} (updBlk b f d).blk j) = g (Tab.get {} d.blk j) := by
    show g (getBlk (updBlk b f d) j) = g (getBlk d j)
    rw [getBlk_updBlk]
    split
    · next hj => rw [h, hj]
    · rfl
  exact Facet.pick_facet (d := d) (.inr rfl) (.inr rfl) (.inr rfl) (.inr rfl) (.inr ⟨rfl, rfl⟩) (.inr rfl)
    (.inr rfl) (.inr rfl) (.inr rfl) (.inr rfl) (.inr rfl) (.inr rfl) (.inr rfl) (hfenced.imp_right (kept _))
    (hpath.imp_right (kept _)) (hcross.imp_right (kept _))
    (hpipes.imp_right fun h j => ⟨kept _ (fun k => (h k).1) j, kept _ (fun k => (h k).2) j⟩)
    (hecc.imp_right (kept _))

@[simp] theorem facet_updCell (hq : q ≠ .cells) (c : Nat) (f : CellSt → CellSt) (d : Dev) :
    (updCell c f d).facet q = d.facet q := by
  simp [updCell, hq]

@[simp] theorem facet_updFn (f : Nat) (g : FnSt → FnSt) (d : Dev) : (updFn f g d).facet q = d.facet q := rfl

@[simp] theorem facet_updPage (hq : q ≠ .pages) (p : Nat) (g : Page → Page) (d : Dev) :
    (updPage p g d).facet q = d.facet q := by
  simp [updPage, hq]

@[simp] theorem facet_updPages (hq : q ≠ .pages) (ps : List Nat) (g : Page → Page) (d : Dev) :
    (updPages ps g d).facet q = d.facet q := by
  simp [updPages, hq]

@[simp] theorem facet_updSlot (s : Nat) (g : Slot → Slot) (d : Dev) : (updSlot s g d).facet q = d.facet q := rfl

@[simp] theorem facet_updDesc (h : Nat) (g : Desc → Desc) (d : Dev) : (updDesc h g d).facet q = d.facet q := rfl

@[simp] theorem facet_dropDesc (h : Nat) (d : Dev) : (dropDesc h d).facet q = d.facet q := rfl

/-! ### Stamps, reports and answers -/

@[simp] theorem facet_stamp (d : Dev) : (stamp d).2.facet q = d.facet q := rfl

@[simp] theorem facet_fresh (d : Dev) : (fresh d).2.facet q = d.facet q := rfl

@[simp] theorem facet_countFn (f k v : Nat) (d : Dev) : (countFn f k v d).facet q = d.facet q :=
  (reports_countFn ..).facet_eq

@[simp] theorem facet_countBlk (b k v : Nat) (d : Dev) : (countBlk b k v d).facet q = d.facet q :=
  (reports_countBlk ..).facet_eq

@[simp] theorem facet_countCell (c k v : Nat) (d : Dev) : (countCell c k v d).facet q = d.facet q :=
  (reports_countCell ..).facet_eq

@[simp] theorem facet_countChip (k v : Nat) (d : Dev) : (countChip k v d).facet q = d.facet q :=
  (reports_countChip ..).facet_eq

@[simp] theorem facet_emit (o : Out) (d : Dev) : (emit o d).facet q = d.facet q :=
  (reports_emit ..).facet_eq

@[simp] theorem facet_trace (type island a b : Nat) (d : Dev) : (trace type island a b d).facet q = d.facet q :=
  (reports_trace ..).facet_eq

@[simp] theorem facet_postEvent (type fn : Nat) (payload : List Nat) (d : Dev) :
    (postEvent type fn payload d).facet q = d.facet q :=
  (reports_postEvent ..).facet_eq

@[simp] theorem facet_raiseFault (i : FaultInfo) (d : Dev) : (raiseFault i d).facet q = d.facet q :=
  (reports_raiseFault ..).facet_eq

@[simp] theorem facet_finish (x : Desc) (status result bytes cls delay ht : Nat) (d : Dev) :
    (finish x status result bytes cls delay ht d).facet q = d.facet q :=
  (answers_finish ..).facet_eq

@[simp] theorem facet_endWith (x : Desc) (status result bytes : Nat) (d : Dev) :
    (endWith x status result bytes d).facet q = d.facet q :=
  (answers_endWith ..).facet_eq

@[simp] theorem facet_refuse (x : Desc) (status : Nat) (d : Dev) : (refuse x status d).facet q = d.facet q :=
  (answers_refuse ..).facet_eq

/-- A transition writes the mode; the class of modes stands where both modes are of one. -/
@[simp] theorem facet_transition (hq : q ≠ .chp) {m : Mode} {cause : Nat} {d : Dev}
    (hm : q ≠ .mode ∨ m.ground = d.chp.mode.ground) : (transition m cause d).facet q = d.facet q := by
  simp [transition, hq, hm]

/-! ### The image: room, records, journals, lists -/

@[simp] theorem facet_updUnit (hq : q ≠ .flash) (c t pos : Nat) (g : FUnit → FUnit) (d : Dev) :
    (updUnit c t pos g d).facet q = d.facet q := by
  simp [updUnit, hq]

@[simp] theorem facet_openAt (b p : Nat) (d : Dev) : (openAt b p d).facet q = d.facet q := by
  simp [openAt]

theorem facet_openStripe {b : Nat} {d e : Dev} (he : openStripe b d = some e) : e.facet q = d.facet q := by
  unfold openStripe at he
  split at he
  · rw [← Option.some.inj he, facet_openAt]
  · cases he

@[simp] theorem facet_openUnit (hq : q ≠ .flash) (c t pos : Nat) (d : Dev) :
    (openUnit c t pos d).facet q = d.facet q := by
  unfold openUnit
  split <;> simp [hq]

@[simp] theorem facet_barUnits (hq : q ≠ .flash) (b pos hl : Nat) (d : Dev) :
    (barUnits b pos hl d).facet q = d.facet q := by
  simp [barUnits, hq]

theorem facet_roomAt (hq : q ≠ .flash) {b pos id segs hl : Nat} {cells : List Nat} {ok : Nat × Nat → Bool} {d e : Dev}
    {r : Nat × Nat × Nat × Nat} (he : roomAt b pos id segs hl cells ok d = some (r, e)) : e.facet q = d.facet q := by
  unfold roomAt at he
  simp only at he
  split at he
  · cases he
  · cases Option.some.inj he
    simp [hq]

theorem facet_takeRoomOn (hq : q ≠ .flash) {cells : List Nat} {ok : Nat × Nat → Bool} {b id bytes hl : Nat}
    {d e : Dev} {r : Nat × Nat × Nat × Nat} (he : takeRoomOn cells ok b id bytes hl d = some (r, e)) :
    e.facet q = d.facet q := by
  unfold takeRoomOn at he
  simp only at he
  split at he
  · next hr =>
    cases Option.some.inj he
    split at hr
    · exact facet_roomAt hq hr
    · cases hr
  · split at he
    · next ho => exact (facet_roomAt hq he).trans (facet_openStripe ho)
    · cases he

theorem facet_takeRoom (hq : q ≠ .flash) {b id bytes hl : Nat} {d e : Dev} {r : Nat × Nat × Nat × Nat}
    (he : takeRoom b id bytes hl d = some (r, e)) : e.facet q = d.facet q :=
  facet_takeRoomOn hq he

@[simp] theorem facet_debtEvent (b : Nat) (d : Dev) : (debtEvent b d).facet q = d.facet q := by
  simp [debtEvent]

@[simp] theorem facet_drawCredit (b n : Nat) (d : Dev) : (drawCredit b n d).facet q = d.facet q := by
  simp [drawCredit]

@[simp] theorem facet_newId (b : Nat) (d : Dev) : (newId b d).2.facet q = d.facet q := by
  simp [newId]

theorem stagedOf_append_of_ne {rs : List Rec} {r : Rec} (h : r.kind ≠ .stage) :
    stagedOf (rs ++ [r]) = stagedOf rs := by
  simp [stagedOf, h]

@[simp] theorem facet_addRec {r : Rec} (hq : q ≠ .flash) (hr : q ≠ .staged ∨ r.kind ≠ .stage) (d : Dev) :
    (addRec r d).facet q = d.facet q := by
  have hs : q ≠ .staged ∨ stagedOf (d.flash.records ++ [r]) = stagedOf d.flash.records :=
    hr.imp_right stagedOf_append_of_ne
  simp [addRec, hq, hs]

/-- A change of records that leaves their kinds and staging keys leaves the staging records. -/
theorem stagedOf_map {g : Rec → Rec} (hg : ∀ r, (g r).kind = r.kind ∧ (g r).stageKey = r.stageKey) (rs : List Rec) :
    stagedOf (rs.map g) = stagedOf rs := by
  induction rs with
  | nil => rfl
  | cons r rs ih =>
    obtain ⟨hk, hp⟩ := hg r
    simp only [stagedOf] at ih
    by_cases h : r.kind = .stage <;> simp [stagedOf, hk, h, hp, ih]

@[simp] theorem facet_updRec {g : Rec → Rec} (hq : q ≠ .flash)
    (hg : q ≠ .staged ∨ ∀ r, (g r).kind = r.kind ∧ (g r).stageKey = r.stageKey) (id : Nat) (d : Dev) :
    (updRec id g d).facet q = d.facet q := by
  have hs : q ≠ .staged ∨
      stagedOf (d.flash.records.map (fun r => if r.id = id then g r else r)) = stagedOf d.flash.records := by
    refine hg.imp_right fun h => stagedOf_map (fun r => ?_) _
    split
    · exact h r
    · exact ⟨rfl, rfl⟩
  simp [updRec, hq, hs]

@[simp] theorem facet_openJournal (hq : q ≠ .flash) (c u : Nat) (d : Dev) :
    (openJournal c u d).2.facet q = d.facet q := by
  simp [openJournal, hq]

@[simp] theorem facet_renewJournal (hq : q ≠ .flash) (c u : Nat) (full : Bool) (d : Dev) :
    (renewJournal c u full d).facet q = d.facet q := by
  simp [renewJournal, hq]

@[simp] theorem facet_journalAdd (hq : q ≠ .flash) (c : Nat) (avoid : Option Nat) (h : JHead) (d : Dev) :
    (journalAdd c avoid h d).2.facet q = d.facet q := by
  simp only [journalAdd]
  (repeat' split) <;> simp [hq]

@[simp] theorem facet_journalBoth (hq : q ≠ .flash) (c id : Nat) (d : Dev) :
    (journalBoth c id d).facet q = d.facet q := by
  simp [journalBoth, hq]

@[simp] theorem facet_closeUnits (hq : q ≠ .flash) (d : Dev) : (closeUnits d).facet q = d.facet q := by
  simp [closeUnits, hq]

@[simp] theorem facet_headOnly (hq : q ≠ .flash) {kind : RKind} (hk : q ≠ .staged ∨ kind ≠ .stage)
    (logB home fn : Nat) (runs : List Run) (ht ref : Nat) (written : Bool) (d : Dev) :
    (headOnly logB home kind fn runs ht ref written d).2.facet q = d.facet q := by
  simp [headOnly, hq, hk]

@[simp] theorem facet_headAs (hq : q ≠ .flash) (epochId hidx : Nat) (p : Nat × Dev) :
    (headAs epochId hidx p).facet q = p.2.facet q := by
  simp [headAs, hq]

@[simp] theorem facet_appendAnchor (hq : q ≠ .flash) (k : Book) (r : Rec) (d : Dev) :
    (appendAnchor k r d).facet q = d.facet q := by
  simp [appendAnchor, hq]

@[simp] theorem facet_updateYield (d : Dev) : (updateYield d).facet q = d.facet q := rfl

@[simp] theorem facet_placeEntry (x : Extent) (d : Dev) : (placeEntry x d).facet q = d.facet q := by
  simp [placeEntry]

@[simp] theorem facet_insertEntry (d : Dev) (x : Extent) : (insertEntry d x).facet q = d.facet q := by
  simp [insertEntry]

@[simp] theorem facet_syncIndex (d : Dev) : (syncIndex d).facet q = d.facet q := by
  simp [syncIndex]

@[simp] theorem facet_prune (d : Dev) : (prune d).facet q = d.facet q := by
  simp [prune]

@[simp] theorem facet_wipeSlot (s : Nat) (d : Dev) : (wipeSlot s d).facet q = d.facet q := by
  simp [wipeSlot]

@[simp] theorem facet_settleSlot (s : Nat) (d : Dev) : (settleSlot s d).facet q = d.facet q := by
  simp only [settleSlot]
  split <;> simp

@[simp] theorem facet_cipherDone (b id : Nat) (d : Dev) : (cipherDone b id d).facet q = d.facet q := by
  unfold cipherDone
  split <;> simp

@[simp] theorem facet_markStaged (hq : q ≠ .pages) (r : Rec) (d : Dev) : (markStaged r d).facet q = d.facet q := by
  refine facet_foldl (fun e run => ?_) _ _
  simp [hq]

@[simp] theorem facet_mark (hq : q ≠ .flash) {kind : RKind} (hk : q ≠ .staged ∨ kind ≠ .stage) (mask b : Nat)
    (d : Dev) : (mark kind mask b d).facet q = d.facet q := by
  unfold mark
  split <;> simp [hq, hk]

@[simp] theorem facet_exposeAll (hq : q ≠ .flash) (d : Dev) : (exposeAll d).facet q = d.facet q := by
  simp [exposeAll, hq]

@[simp] theorem facet_safeMark (hq : q ≠ .flash) (b : Nat) (d : Dev) : (safeMark b d).facet q = d.facet q := by
  simp [safeMark, hq]

@[simp] theorem facet_writePart (hq : q ≠ .flash) (lb : Nat) (l : CallList) (part : Nat × Nat) (d : Dev) :
    (writePart lb l part d).facet q = d.facet q := by
  unfold writePart
  simp only
  split
  · rfl
  · next ht => simp [facet_takeRoom hq ht, hq]

@[simp] theorem facet_writeEntries (hq : q ≠ .flash) (b trigger triggerHt : Nat) (entries : List ListEntry)
    (listed base : Nat) (d : Dev) :
    (writeEntries b trigger triggerHt entries listed base d).facet q = d.facet q := by
  unfold writeEntries
  split
  · rfl
  · simp [hq]

@[simp] theorem facet_writeList (hq : q ≠ .flash) (b trigger triggerHt : Nat) (unack : List ListEntry) (base : Nat)
    (d : Dev) : (writeList b trigger triggerHt unack base d).facet q = d.facet q := by
  simp [writeList, hq]

@[simp] theorem facet_writeLists47 (hq : q ≠ .flash) (trigger : Nat) (d : Dev) :
    (writeLists47 trigger d).facet q = d.facet q := by
  simp [writeLists47, hq]

/-! ### Budget and admission -/

@[simp] theorem facet_traceBudget (d : Dev) : (traceBudget d).facet q = d.facet q := by
  simp [traceBudget]

@[simp] theorem facet_recompute (d : Dev) : (recompute d).facet q = d.facet q := by
  simp [recompute]

@[simp] theorem facet_commitHold (hq : q ≠ .pages) (x : Desc) (record : Option Nat) (d : Dev) :
    (commitHold x record d).facet q = d.facet q := by
  simp [commitHold, hq]

@[simp] theorem facet_updateShortfall (d : Dev) : (updateShortfall d).facet q = d.facet q := by
  simp [updateShortfall]

@[simp] theorem facet_updateReclaim (d : Dev) : (updateReclaim d).facet q = d.facet q := by
  simp [updateReclaim]

@[simp] theorem facet_evaluate (hq : q ≠ .pages) (xs : List Desc) (k : Blocks) (d : Dev) :
    (evaluate xs k d).facet q = d.facet q := by
  induction xs generalizing k d with
  | nil => rfl
  | cons x xs ih =>
    simp only [evaluate]
    split
    · simp [ih]
    · split <;> simp [ih, hq]

@[simp] theorem facet_evaluateAll (hq : q ≠ .pages) (n : Nat) (d : Dev) :
    (evaluateAll n d).facet q = d.facet q := by
  induction n generalizing d with
  | zero => rfl
  | succ n ih => simp [evaluateAll, ih, hq]

@[simp] theorem facet_refuseWaiting (d : Dev) : (refuseWaiting d).facet q = d.facet q := by
  simp [refuseWaiting]

@[simp] theorem facet_evaluateWaiting (hq : q ≠ .pages) (d : Dev) :
    (evaluateWaiting d).facet q = d.facet q := by
  simp [evaluateWaiting, hq]

@[simp] theorem facet_updatePressure (d : Dev) : (updatePressure d).facet q = d.facet q := by
  simp [updatePressure]

@[simp] theorem facet_soilArea (hq : q ≠ .flash) (d : Dev) : (soilArea d).facet q = d.facet q := by
  simp [soilArea, hq]

/-- The test records that a rehearsal leaves behind are no staging records. -/
theorem stagedOf_dropTests (rs : List Rec) :
    stagedOf (rs.filter (fun r => !decide (r.kind = RKind.test) || r.written)) = stagedOf rs := by
  simp only [stagedOf, List.filter_filter]
  congr 2
  funext r
  cases r.kind <;> simp

@[simp] theorem facet_abortRehearsal (hq : q ≠ .flash) (answer : Bool) (d : Dev) :
    (abortRehearsal answer d).facet q = d.facet q := by
  simp only [abortRehearsal]
  (repeat' split) <;> simp [hq, stagedOf_dropTests]

@[simp] theorem facet_enterAdmitting (hq : q ≠ .chp ∧ q ≠ .flash) {m : Mode} {cause : Nat} {d : Dev}
    (hm : q ≠ .mode ∨ m.ground = d.chp.mode.ground) : (enterAdmitting m cause d).facet q = d.facet q := by
  simp [enterAdmitting, hq, hm]

@[simp] theorem facet_traceLearn (d : Dev) : (traceLearn d).facet q = d.facet q := by
  simp [traceLearn]

@[simp] theorem facet_endLearning (cause : Nat) (d : Dev) : (endLearning cause d).facet q = d.facet q := by
  simp [endLearning]

@[simp] theorem facet_floorTest (d : Dev) : (floorTest d).facet q = d.facet q := by
  simp [floorTest]

@[simp] theorem facet_countsChanged (hq : q ≠ .pages) (d : Dev) : (countsChanged d).facet q = d.facet q := by
  simp [countsChanged, hq]

@[simp] theorem facet_countGood (cadence : Bool) (d : Dev) : (countGood cadence d).facet q = d.facet q := rfl

/-! ### Changes of mode (R34): within one class -/

theorem Mode.ground_of_admits {m : Mode} (h : m.admits = true) : Mode.armed = m.ground := by
  cases m <;> simp_all [Mode.admits, Mode.ground]

@[simp] theorem facet_enterWriteThrough (hq : q ≠ .chp ∧ q ≠ .flash ∧ q ≠ .pages) {cause trigger : Nat} {d : Dev}
    (hm : q ≠ .mode ∨ Mode.armed = d.chp.mode.ground) : (enterWriteThrough cause trigger d).facet q = d.facet q := by
  have hchp : (abortRehearsal true d).chp = d.chp := facet_abortRehearsal (q := .chp) (by decide) true d
  simp [enterWriteThrough, hq, hchp, hm, show Mode.ground .writeThrough = .armed from rfl]

@[simp] theorem facet_modeRows (hq : q ≠ .chp ∧ q ≠ .flash ∧ q ≠ .pages) (d : Dev) :
    (modeRows d).facet q = d.facet q := by
  have armed : Mode.ground .armed = .armed := rfl
  have derated : Mode.ground .derated = .armed := rfl
  unfold modeRows
  split
  · next ha =>
    have hm := Mode.ground_of_admits ha
    (repeat' split) <;> simp [hq, ← hm, armed, derated]
  split
  · next hw =>
    have hm : Mode.armed = d.chp.mode.ground := by rw [hw]; rfl
    (repeat' split) <;> simp [hq, ← hm, armed, derated]
  · rfl

@[simp] theorem facet_reasonsChanged (hq : q ≠ .chp ∧ q ≠ .flash ∧ q ≠ .pages) (d : Dev) :
    (reasonsChanged d).facet q = d.facet q := by
  simp [reasonsChanged, hq]

@[simp] theorem facet_reevaluate (hq : q ≠ .chp ∧ q ≠ .flash ∧ q ≠ .pages) (cadence : Bool) (d : Dev) :
    (reevaluate cadence d).facet q = d.facet q := by
  simp [reevaluate, hq]

@[simp] theorem facet_recomputeNow (hq : q ≠ .chp ∧ q ≠ .flash ∧ q ≠ .pages) (d : Dev) :
    (recomputeNow d).facet q = d.facet q := by
  simp [recomputeNow, hq]

/-! ### Programs given up or issued again (R20) -/

/-- Records that go by their identifier: the others keep their staging keys. -/
@[simp] theorem facet_giveUp (hq : q ≠ .flash ∧ q ≠ .staged) (r : Rec) (d : Dev) :
    (giveUp r d).facet q = d.facet q := by
  simp only [giveUp]
  split <;> simp [hq]

theorem facet_reissueRoom (hq : q ≠ .flash) {r : Rec} {c t : Nat} {d e : Dev} {p : Nat × Nat × Nat × Nat}
    (he : reissueRoom r c t d = some (p, e)) : e.facet q = d.facet q := by
  obtain ⟨k, -, hk⟩ := List.exists_of_findSome?_eq_some he
  exact facet_takeRoomOn hq hk

@[simp] theorem facet_reissue (hq : q ≠ .flash ∧ q ≠ .staged) (id : Nat) (d : Dev) :
    (reissue id d).facet q = d.facet q := by
  have hc := @facet_drawCredit q
  unfold reissue
  generalize drawCredit = credit at hc ⊢
  revert credit
  refine keep_general ?_
  intro credit hc
  split
  · rfl
  split
  · split
    · next hr =>
      split at hr
      · simp [hc, facet_reissueRoom hq.1 hr, hq]
      · cases hr
    · simp [hq]
  split
  · simp [hq]
  split
  · next hr =>
    dsimp only
    split <;> split <;> simp [hc, facet_reissueRoom hq.1 hr, hq]
  · split <;> simp [hq]

/-! ### Erases -/

@[simp] theorem facet_eraseNow (hq : q ≠ .cells) (c t pos mode : Nat) (port : Bool) (d : Dev) :
    (eraseNow c t pos mode port d).facet q = d.facet q := by
  simp [eraseNow, hq]

@[simp] theorem facet_startErase (hq : q ≠ .cells ∧ q ≠ .flash ∧ q ≠ .intents) (c t pos mode : Nat) (port : Bool)
    (d : Dev) : (startErase c t pos mode port d).facet q = d.facet q := by
  simp [startErase, hq]

@[simp] theorem facet_resumeIntents (hq : q ≠ .cells) (b : Nat) (d : Dev) :
    (resumeIntents b d).facet q = d.facet q := by
  refine facet_foldl (fun e i => ?_) _ _
  split <;> simp [hq]

@[simp] theorem facet_stripeDone (hq : q ≠ .chp ∧ q ≠ .flash ∧ q ≠ .pages) (b pos : Nat) (d : Dev) :
    (stripeDone b pos d).facet q = d.facet q := by
  simp [stripeDone, hq]

@[simp] theorem facet_dropErases (hq : q ≠ .chp ∧ q ≠ .flash ∧ q ≠ .pages) (hc : q ≠ .cells) (hi : q ≠ .intents)
    (c : Nat) (t : Nat → Bool) (d : Dev) : (dropErases c t d).facet q = d.facet q := by
  simp [dropErases, hq, hc, hi]

/-! ### Faults of cells and blocks -/

@[simp] theorem facet_lostEarly (hq : q ≠ .pages) (lostRec : Nat → Bool) (d : Dev) :
    (lostEarly lostRec d).facet q = d.facet q := by
  simp [lostEarly, refreshStatus, hq]

@[simp] theorem facet_writeAmendment (hq : q ≠ .flash) (b : Nat) (d : Dev) :
    (writeAmendment b d).facet q = d.facet q := by
  unfold writeAmendment
  split <;> simp [hq]

@[simp] theorem facet_curtainFault (hq : q ≠ .marks) (d : Dev) : (curtainFault d).facet q = d.facet q := by
  simp [curtainFault, hq]

@[simp] theorem facet_returnPages (hq : q ≠ .pages) (lostRec : Nat → Bool) (d : Dev) :
    (returnPages lostRec d).facet q = d.facet q := by
  simp [returnPages, hq]

@[simp] theorem facet_loseRecords (hq : q ≠ .flash ∧ q ≠ .pages ∧ q ≠ .marks) (b : Nat) (lostRec : Nat → Bool)
    (d : Dev) : (loseRecords b lostRec d).facet q = d.facet q := by
  unfold loseRecords
  split <;> simp [hq]

/-- What a part's failure takes with it, beside what the failure itself changes. -/
theorem facet_loseUnread (hq : q ≠ .flash ∧ q ≠ .pages ∧ q ≠ .marks) (b : Nat) (f : Dev → Dev) (d : Dev) :
    (loseUnread b f d).facet q = (f d).facet q := by
  simp [loseUnread, hq]

@[simp] theorem facet_reissueStranded (hq : q ≠ .flash ∧ q ≠ .staged) (b : Nat) (d : Dev) :
    (reissueStranded b d).facet q = d.facet q := by
  simp [reissueStranded, hq]

@[simp] theorem facet_failPath (hq : q ≠ .flash ∧ q ≠ .staged) (hp : q ≠ .path ∧ q ≠ .marks) (b code : Nat)
    (d : Dev) : (failPath b code d).facet q = d.facet q := by
  simp [failPath, hq, hp]

@[simp] theorem facet_failCell (hq : q ≠ .chp ∧ q ≠ .flash ∧ q ≠ .pages)
    (hc : q ≠ .cells ∧ q ≠ .intents ∧ q ≠ .staged ∧ q ≠ .marks) (c : Nat) (d : Dev) :
    (failCell c d).facet q = d.facet q := by
  simp [failCell, facet_loseUnread, hq, hc]

@[simp] theorem facet_breakBlock (hq : q ≠ .chp ∧ q ≠ .flash ∧ q ≠ .pages)
    (hc : q ≠ .cells ∧ q ≠ .intents ∧ q ≠ .staged ∧ q ≠ .marks) (hp : q ≠ .pipes) (b : Nat) (c : BlockCause)
    (d : Dev) : (breakBlock b c d).facet q = d.facet q := by
  unfold breakBlock
  split <;> simp [hq, hc, hp]

/-! ### Fences -/

@[simp] theorem facet_lossNotes (hq : q ≠ .flash) (b : Nat) (own : Bool) (out : List Nat) (xs : List Extent) (d : Dev) :
    (lossNotes b own out xs d).facet q = d.facet q := by
  simp only [lossNotes]
  split <;> simp [hq]

@[simp] theorem facet_reportLost (d : Dev) (x : Extent) : (reportLost d x).facet q = d.facet q := by
  simp [reportLost]

@[simp] theorem facet_endFencedDescs (b : Nat) (d : Dev) : (endFencedDescs b d).facet q = d.facet q := by
  simp [endFencedDescs]

@[simp] theorem facet_loseUnsaved (hq : q ≠ .pages) (b : Nat) (d : Dev) :
    (loseUnsaved b d).facet q = d.facet q := by
  simp [loseUnsaved, hq]

@[simp] theorem facet_fenceBlock (hq : q ≠ .flash ∧ q ≠ .pages ∧ q ≠ .cells ∧ q ≠ .staged ∧ q ≠ .marks)
    (hf : q ≠ .fenced ∧ q ≠ .cross) (b code cause detail : Nat) (own : Bool) (out : List Nat) (d : Dev) :
    (fenceBlock b code cause detail own out d).facet q = d.facet q := by
  simp [fenceBlock, hq, hf]

@[simp] theorem facet_fenceWithPartner (hq : q ≠ .flash ∧ q ≠ .pages ∧ q ≠ .cells ∧ q ≠ .staged ∧ q ≠ .marks)
    (hf : q ≠ .fenced ∧ q ≠ .cross) (b : Nat) (own : Bool) (d : Dev) :
    (fenceWithPartner b own d).facet q = d.facet q := by
  simp [fenceWithPartner, hq, hf]

end Sys2Proof.Machine
end

section
/-!
PROOFS. The DRAM controllers: refresh and its multiplier, and uncorrectable lines (O42).
-/

namespace Sys2Proof.Machine

/-! ### Changes of blocks alone -/

/-- `e` is `d` with blocks changed and reports added. -/
def Dev.BlkOnly (d e : Dev) : Prop := Dev.Reports { d with blk := e.blk } e

theorem blkOnly_updBlk (b : Nat) (f : Blk → Blk) (d : Dev) : d.BlkOnly (updBlk b f d) := Dev.Reports.refl _

theorem Dev.Reports.blkOnly {d e : Dev} (h : d.Reports e) : d.BlkOnly e := by
  unfold Dev.BlkOnly
  rw [h.blk_eq]
  exact h

theorem Dev.BlkOnly.trans {d e a : Dev} (h : d.BlkOnly e) (g : e.BlkOnly a) : d.BlkOnly a :=
  ⟨g.bare.trans (congrArg (fun x : Dev => { x with blk := a.blk }) h.bare), fun f => (g.fns f).trans (h.fns f)⟩

theorem Dev.Reports.getBlk_eq {d e : Dev} (h : d.Reports e) (b : Nat) : getBlk e b = getBlk d b :=
  congrArg (fun t => Tab.get ({} : Blk) t b) h.blk_eq

theorem blkOnly_countBlk (b k v : Nat) (d : Dev) : d.BlkOnly (countBlk b k v d) := (reports_countBlk ..).blkOnly

theorem getBlk_countBlk (b k v j : Nat) (d : Dev) : getBlk (countBlk b k v d) j = getBlk d j := rfl

/-! ### Refresh (R303, R304) -/

/-- A refresh falls due: it uses a pull-in, adds a debt up to the limit, or is made at once. -/
def refreshBusy (b : Nat) (d : Dev) : Dev :=
  if 0 < (getBlk d b).pullIn then updBlk b (fun k => { k with pullIn := k.pullIn - 1 }) d
  else if (getBlk d b).refDebt < refreshLimit (getBlk d b) then
    updBlk b (fun k => { k with refDebt := k.refDebt + 1 }) d
  else countBlk b 16 1 (countBlk b 17 1 d)

theorem refreshDue_busy {b : Nat} {d : Dev} (h : channelOn d b = true) : refreshDue b false d = refreshBusy b d := by
  simp [refreshDue, refreshBusy, h]

theorem refreshDue_idle {b : Nat} {d : Dev} (h : channelOn d b = true) :
    refreshDue b true d = countBlk b 16 ((getBlk (refreshBusy b d) b).refDebt
        + (refreshLimit (getBlk d b) - (getBlk (refreshBusy b d) b).pullIn))
      (updBlk b (fun k => { k with refDebt := 0, pullIn := refreshLimit (getBlk d b) }) (refreshBusy b d)) := by
  simp [refreshDue, refreshBusy, h]

theorem blkOnly_refreshBusy (b : Nat) (d : Dev) : d.BlkOnly (refreshBusy b d) := by
  unfold refreshBusy
  split
  · exact blkOnly_updBlk ..
  split
  · exact blkOnly_updBlk ..
  · exact (blkOnly_countBlk ..).trans (blkOnly_countBlk ..)

theorem pullIn_refreshBusy (b : Nat) (d : Dev) :
    (getBlk (refreshBusy b d) b).pullIn = (getBlk d b).pullIn - 1 := by
  unfold refreshBusy
  split
  · simp
  split
  · simp only [getBlk_updBlk, if_true]
    omega
  · simp only [getBlk_countBlk]
    omega

theorem refDebt_refreshBusy (b : Nat) (d : Dev) :
    (getBlk (refreshBusy b d) b).refDebt = (if 0 < (getBlk d b).pullIn then (getBlk d b).refDebt
      else if (getBlk d b).refDebt < refreshLimit (getBlk d b) then (getBlk d b).refDebt + 1
      else (getBlk d b).refDebt) := by
  unfold refreshBusy
  split
  · simp
  split
  · simp
  · rfl

theorem getBlk_refreshDue_idle {b : Nat} {d : Dev} (h : channelOn d b = true) :
    (getBlk (refreshDue b true d) b).refDebt = 0
      ∧ (getBlk (refreshDue b true d) b).pullIn = refreshLimit (getBlk d b) := by
  rw [refreshDue_idle h]
  simp [getBlk_countBlk]

theorem blkOnly_refreshDue_idle {b : Nat} {d : Dev} (h : channelOn d b = true) :
    d.BlkOnly (refreshDue b true d) := by
  rw [refreshDue_idle h]
  exact (blkOnly_refreshBusy b d).trans ((blkOnly_updBlk ..).trans (blkOnly_countBlk ..))

/-- A rate above ×4 is reported (fault 0x0205). -/
def mr4Reported (b rate : Nat) (d : Dev) : Dev :=
  if rate ≤ 400 then d else raiseFault { code := 0x0205, level := 2, island := 64 + b, severity := 0 } d

theorem reports_mr4Reported (b rate : Nat) (d : Dev) : d.Reports (mr4Reported b rate d) := by
  unfold mr4Reported
  split
  · exact Dev.Reports.refl d
  · exact reports_raiseFault ..

theorem mr4Poll_same {b rate : Nat} {d : Dev} (h : channelOn d b = true) (hm : multOf rate = (getBlk d b).mult) :
    mr4Poll b rate d = mr4Reported b rate d := by
  simp [mr4Poll, mr4Reported, h, hm]

/-- A block at another refresh multiplier: its debt and its pull-ins are cut to the new limit (R304). -/
def withMult (b m : Nat) (d : Dev) : Dev :=
  updBlk b (fun k => { k with mult := m, refDebt := min k.refDebt (8 / m), pullIn := min k.pullIn (8 / m) }) d

theorem reports_mr4Poll_changed {b rate : Nat} {d : Dev} (h : channelOn d b = true)
    (hm : multOf rate ≠ (getBlk d b).mult) :
    (withMult b (multOf rate) (mr4Reported b rate d)).Reports (mr4Poll b rate d) := by
  rw [mr4Poll, if_neg (by simp [h])]
  dsimp only
  rw [if_neg hm]
  exact (reports_countBlk ..).trans (reports_trace ..)

theorem blkOnly_mr4Poll {b rate : Nat} {d : Dev} (h : channelOn d b = true) : d.BlkOnly (mr4Poll b rate d) := by
  by_cases hm : multOf rate = (getBlk d b).mult
  · rw [mr4Poll_same h hm]
    exact (reports_mr4Reported b rate d).blkOnly
  · exact (reports_mr4Reported b rate d).blkOnly.trans
      ((blkOnly_updBlk ..).trans (reports_mr4Poll_changed h hm).blkOnly)

theorem mult_mr4Poll {b rate : Nat} {d : Dev} (h : channelOn d b = true) :
    (getBlk (mr4Poll b rate d) b).mult = multOf rate := by
  by_cases hm : multOf rate = (getBlk d b).mult
  · rw [mr4Poll_same h hm, (reports_mr4Reported b rate d).getBlk_eq, hm]
  · rw [(reports_mr4Poll_changed h hm).getBlk_eq]
    simp [withMult]

theorem refDebt_mr4Poll_le {b rate : Nat} {d : Dev} (h : channelOn d b = true)
    (hm : multOf rate ≠ (getBlk d b).mult) : (getBlk (mr4Poll b rate d) b).refDebt ≤ 8 / multOf rate := by
  rw [(reports_mr4Poll_changed h hm).getBlk_eq]
  simp [withMult]

/-! ### Uncorrectable lines (R301) -/

/-- A fence of the block whose DRAM port has failed (R24). -/
theorem facet_fence_dramPort {q : Facet}
    (hq : q ≠ .chp ∧ q ≠ .flash ∧ q ≠ .pages ∧ q ≠ .cells ∧ q ≠ .staged ∧ q ≠ .marks)
    (hf : q ≠ .fenced ∧ q ≠ .cross ∧ q ≠ .path) (b : Nat) (d : Dev) : (fence b .dramPort d).facet q = d.facet q := by
  simp [fence, hq, hf]

theorem usable_updBlk (b : Nat) (f : Blk → Blk) (d : Dev) : usable (updBlk b f d) = usable d := rfl

section
variable {a p : Nat} {d : Dev} (hon : channelOn d (blockOf (a - a % 64)) = true)
  (hnew : d.drc.poison.contains (a - a % 64) = false) (hu : (a - a % 64) % blockSpan < usable d)
include hon hnew hu

/-- A line found anew joins the poisoned ones: nothing after its record touches them. -/
theorem poison_uncorrectable : (uncorrectable a p d).drc.poison = (a - a % 64) :: d.drc.poison := by
  show (uncorrectable a p d).facet .poison = _
  simp only [uncorrectable, hon, hnew, usable_updBlk, hu]
  simp [facet_fence_dramPort, Facet.pick]

theorem eccUncorrected_uncorrectable : (getBlk (uncorrectable a p d) (blockOf (a - a % 64))).eccUncorrected
      = satAdd 32 (getBlk d (blockOf (a - a % 64))).eccUncorrected 1 := by
  show (uncorrectable a p d).facet .ecc (blockOf (a - a % 64)) = _
  simp only [uncorrectable, hon, hnew, usable_updBlk, hu]
  simp [facet_fence_dramPort, Facet.pick, updBlk, getBlk]

end

theorem uncorrectable_of_poisoned {a p : Nat} {d : Dev} (h : d.drc.poison.contains (a - a % 64) = true) :
    uncorrectable a p d = d := by
  simp only [uncorrectable, h]
  simp

/-- A command of the device that changes nothing of it. -/
theorem onDev_idle {f : Dev → Dev} {s : State} (h : f s.dev = s.dev) : onDev f s = .next s := by
  rw [onDev, h]

/-- Settles O42. -/
theorem dramControllers : Obligations.DramControllers := by
  refine ⟨fun b s h => ?_, fun b s h => ?_, fun b r s h => ?_, fun a p s hon hnew hu => ?_, fun a p s h => ?_⟩
  · obtain ⟨t, ht, ho, hd⟩ := onDev_next (refreshDue b true) s
    obtain ⟨debt, pulled⟩ := getBlk_refreshDue_idle h
    refine ⟨t, ht, ho, ?_⟩
    rw [hd]
    exact ⟨debt, pulled, blkOnly_refreshDue_idle h⟩
  · obtain ⟨t, ht, ho, hd⟩ := onDev_next (refreshDue b false) s
    rw [refreshDue_busy h] at hd
    refine ⟨t, ht, ho, ?_⟩
    rw [hd]
    exact ⟨pullIn_refreshBusy .., refDebt_refreshBusy .., blkOnly_refreshBusy ..⟩
  · obtain ⟨t, ht, ho, hd⟩ := onDev_next (mr4Poll b r) s
    refine ⟨t, ht, ho, ?_⟩
    rw [hd]
    refine ⟨mult_mr4Poll h, fun hm => ?_, blkOnly_mr4Poll h⟩
    rw [mult_mr4Poll h] at hm ⊢
    exact refDebt_mr4Poll_le h hm.symm
  · obtain ⟨t, ht, ho, hd⟩ := onDev_next (uncorrectable a p) s
    refine ⟨t, ht, ho, ?_⟩
    rw [hd]
    exact ⟨poison_uncorrectable hon hnew hu, eccUncorrected_uncorrectable hon hnew hu⟩
  · exact onDev_idle (uncorrectable_of_poisoned h)

end Sys2Proof.Machine
end

section
/-!
PROOFS. A cell's failure and a target's death (R18, R20, R97): what stands of the cells afterwards (O40).
-/

namespace Sys2Proof.Machine

/-- A mode outside a class of several is read off the class. -/
theorem Mode.eq_iff_of_ground {m n k : Mode} (h : m.ground = n.ground) (hk : k ≠ .armed) (hg : k.ground = k) :
    m = k ↔ n = k := by
  constructor
  · rintro rfl
    exact eq_of_ground hk (h.symm.trans hg)
  · rintro rfl
    exact eq_of_ground hk (h.trans hg)

/-- Whether a block's channel takes commands rests on the board, the class of the mode and the fences. -/
theorem blockOn_eq_of_facets {d e : Dev} (hboard : e.facet .board = d.facet .board)
    (hmode : e.facet .mode = d.facet .mode) (hfenced : e.facet .fenced = d.facet .fenced) (b : Nat) :
    blockOn e b = blockOn d b := by
  have board : e.board = d.board := hboard
  have fenced : (getBlk e b).fenced = (getBlk d b).fenced := congrFun hfenced b
  have mode (k : Mode) (hk : k ≠ .armed) (hg : k.ground = k) : e.chp.mode = k ↔ d.chp.mode = k :=
    Mode.eq_iff_of_ground hmode hk hg
  simp only [blockOn, populated, orderingPowered, board, fenced, ne_eq, mode .dark nofun rfl,
    mode .intermission nofun rfl, mode .sealed nofun rfl, mode .boot nofun rfl, mode .encore nofun rfl,
    mode .reconcile nofun rfl]

theorem getCell_eq_of_cells {d e : Dev} (h : e.facet .cells = d.facet .cells) (j : Nat) :
    getCell e j = getCell d j := by
  have cells : e.cells = d.cells := h
  simp [getCell, cells]

/-- A cell that has stopped: it works no more, its port is idle and disarmed, its erases are gone. -/
def CellSt.stopped (k : CellSt) : CellSt :=
  { k with failed := true, port := .idle, arm := .disarmed, left := 0, erases := [] }

@[simp] theorem getCell_dropErases (c : Nat) (t : Nat → Bool) (d : Dev) (j : Nat) :
    getCell (dropErases c t d) j = if c = j
      then { getCell d c with erases := (getCell d c).erases.filter (fun e => !t e.1) } else getCell d j := by
  have kept : ∀ (is : List (Nat × Nat × Nat)) (e : Dev),
      (is.foldl (fun d i => stripeDone (c / 8) i.2.2 d) e).facet .cells = e.facet .cells := by simp
  exact (getCell_eq_of_cells (kept _ _) j).trans (getCell_updCell ..)

@[simp] theorem getCell_loseUnread (b : Nat) (f : Dev → Dev) (d : Dev) (j : Nat) :
    getCell (loseUnread b f d) j = getCell (f d) j :=
  getCell_eq_of_cells (facet_loseUnread (by decide) b f d) j

@[simp] theorem getCell_reissueStranded (b : Nat) (d : Dev) (j : Nat) :
    getCell (reissueStranded b d) j = getCell d j :=
  getCell_eq_of_cells (facet_reissueStranded (by decide) b d) j

@[simp] theorem getCell_recomputeNow (d : Dev) (j : Nat) : getCell (recomputeNow d) j = getCell d j :=
  getCell_eq_of_cells (facet_recomputeNow (by decide) d) j

@[simp] theorem getCell_failPath (b code : Nat) (d : Dev) (j : Nat) : getCell (failPath b code d) j = getCell d j :=
  getCell_eq_of_cells (facet_failPath (by decide) (by decide) b code d) j

@[simp] theorem getCell_curtainFault (d : Dev) (j : Nat) : getCell (curtainFault d) j = getCell d j :=
  getCell_eq_of_cells (facet_curtainFault (by decide) d) j

@[simp] theorem getCell_raiseFault (i : FaultInfo) (d : Dev) (j : Nat) : getCell (raiseFault i d) j = getCell d j :=
  getCell_eq_of_cells (facet_raiseFault i d) j

@[simp] theorem getCell_failCell (c : Nat) (d : Dev) (j : Nat) :
    getCell (failCell c d) j = if c = j then (getCell d c).stopped else getCell d j := by
  simp only [failCell, getCell_reissueStranded, getCell_dropErases, getCell_loseUnread, getCell_updCell]
  split <;> simp [CellSt.stopped]

/-! ### A cell's failure -/

theorem getCell_cellStops {c code : Nat} {d : Dev} (hon : blockOn d (c / 8) = true)
    (hc : (getCell d c).failed = false) (j : Nat) :
    getCell (cellStops c code d) j = if c = j then (getCell d c).stopped else getCell d j := by
  rw [cellStops, if_neg (by simp [hon, hc])]
  simp only [apply_ite recomputeNow, apply_ite (getCell · j), getCell_recomputeNow, getCell_failPath,
    getCell_failCell, getCell_raiseFault, ite_self]

/-- A block's working cells once one cell has failed. -/
theorem workingCells_of_stopped {d e : Dev} {c : Nat}
    (h : ∀ j, getCell e j = if c = j then (getCell d c).stopped else getCell d j) (b : Nat) :
    workingCells e b = (workingCells d b).filter (fun q => q ≠ c) := by
  simp only [workingCells, List.filter_filter]
  refine List.filter_congr fun j _ => ?_
  by_cases hj : c = j
  · simp [h, hj, CellSt.stopped]
  · simp [h, hj, Ne.symm hj]

/-! ### A target's death -/

/-- A dead target and what its death takes with it, before it is settled whether its cell stops. -/
def targetGone (c n : Nat) (sensable : Bool) (d : Dev) : Dev :=
  let d := updCell c (fun k => { k with deadTargets := n :: k.deadTargets }) d
  let d := raiseFault {
    code := 0x0105, level := 1, island := c, severity := 1, target := n, detail := targetMask d c } (curtainFault d)
  reissueStranded (c / 8) (dropErases c (· = n) (if sensable then d
    else loseUnread (c / 8) (updCell c (fun k => { k with unsensed := n :: k.unsensed })) d))

/-- What is asked of the cell of a dead target. -/
theorem getCell_targetGone (c n : Nat) (b : Bool) (d : Dev) :
    (getCell (targetGone c n b d) c).deadTargets = n :: (getCell d c).deadTargets
      ∧ (getCell (targetGone c n b d) c).failed = (getCell d c).failed
      ∧ (getCell (targetGone c n b d) c).erases = Tab.drop (getCell d c).erases n := by
  cases b <;> simp [targetGone, Tab.drop]

theorem blockOn_targetGone (c n : Nat) (b : Bool) (d : Dev) (j : Nat) :
    blockOn (targetGone c n b d) j = blockOn d j := by
  have kept {q : Facet}
      (hq : q ≠ .flash ∧ q ≠ .staged ∧ q ≠ .chp ∧ q ≠ .pages ∧ q ≠ .cells ∧ q ≠ .intents ∧ q ≠ .marks) :
      (targetGone c n b d).facet q = d.facet q := by
    cases b <;> simp [targetGone, facet_loseUnread, hq]
  exact blockOn_eq_of_facets (kept (by decide)) (kept (by decide)) (kept (by decide)) j

theorem targetDead_eq {c n : Nat} {b : Bool} {d : Dev} (hon : blockOn d (c / 8) = true)
    (hc : (getCell d c).failed = false) (hn : (getCell d c).deadTargets.contains n = false) (h8 : n < 8) :
    targetDead c n b d = if 6 ≤ (getCell d c).deadTargets.length then cellStops c 0x010A (targetGone c n b d)
      else recomputeNow (targetGone c n b d) := by
  obtain ⟨dead, -, -⟩ := getCell_targetGone c n b d
  have count : 8 < (getCell (targetGone c n b d) c).deadTargets.length + 2 ↔ 6 ≤ (getCell d c).deadTargets.length := by
    rw [dead, List.length_cons]
    omega
  have guard : ¬ (!blockOn d (c / 8) || (getCell d c).failed || (getCell d c).deadTargets.contains n || 8 ≤ n) := by
    simp only [hon, hc, hn]
    simpa using h8
  rw [targetDead, if_neg guard]
  exact if_congr count rfl rfl

/-- Settles O40. -/
theorem cellFaults : Obligations.CellFaults := by
  refine ⟨fun c k s hon hc => ?_, fun c n b s hon hc hn h8 => ?_⟩
  · obtain ⟨t, ht, ho, hd⟩ := onDev_next (cellStops c (cellCode k)) s
    have cell := getCell_cellStops (code := cellCode k) hon hc
    rw [← hd] at cell
    exact ⟨t, ht, ho, by simp [cell, CellSt.stopped], by simp [cell, CellSt.stopped], workingCells_of_stopped cell _⟩
  · obtain ⟨t, ht, ho, hd⟩ := onDev_next (targetDead c n b) s
    obtain ⟨dead, failed, erases⟩ := getCell_targetGone c n b s.dev
    have on : blockOn (targetGone c n b s.dev) (c / 8) = true := (blockOn_targetGone ..).trans hon
    rw [targetDead_eq hon hc hn h8] at hd
    refine ⟨t, ht, ho, ?_⟩
    rw [hd]
    by_cases h6 : 6 ≤ (getCell s.dev c).deadTargets.length
    · have stops := getCell_cellStops (code := 0x010A) on (failed.trans hc) c
      rw [if_pos rfl] at stops
      simp [h6, stops, CellSt.stopped, dead]
    · simp [h6, dead, failed, erases, hc]

end Sys2Proof.Machine
end

section
/-!
PROOFS. Faults of a block (R21, R23, R24, R284, R338): its pipes, its data path, its partner's save, its fence (O41).
-/

namespace Sys2Proof.Machine

theorem populated_of_blockOn {d : Dev} {b : Nat} (h : blockOn d b = true) : populated d b = true := by
  simp only [blockOn, Bool.and_eq_true] at h
  exact h.1.1

theorem populated_eq_of_board {d e : Dev} (h : e.facet .board = d.facet .board) (b : Nat) :
    populated e b = populated d b := by
  have board : e.board = d.board := h
  simp [populated, board]

/-! ### Pipes and the data path -/

theorem pipes_eq_of_facet {d e : Dev} (h : e.facet .pipes = d.facet .pipes) (b : Nat) :
    (getBlk e b).pipe0Ok = (getBlk d b).pipe0Ok ∧ (getBlk e b).pipe1Ok = (getBlk d b).pipe1Ok :=
  Prod.ext_iff.mp (congrFun h b)

theorem pathFailed_eq_of_facet {d e : Dev} (h : e.facet .path = d.facet .path) (b : Nat) :
    (getBlk e b).pathFailed = (getBlk d b).pathFailed := congrFun h b

theorem pathFailed_failPath (b code : Nat) (d : Dev) : (getBlk (failPath b code d) b).pathFailed = true := by
  unfold failPath
  split
  · assumption
  · next h =>
    refine (pathFailed_eq_of_facet (d := updBlk b (fun k => { k with pathFailed := true }) d) ?_ b).trans ?_ <;> simp

/-- A pipe that fails, marked so. -/
def pipeDown (b p : Nat) (d : Dev) : Dev :=
  updBlk b (fun k => if p = 0 then { k with pipe0Ok := false } else { k with pipe1Ok := false }) d

section
variable {q : Facet} {b p : Nat} {d : Dev} (hq : q ≠ .chp ∧ q ≠ .flash ∧ q ≠ .pages) (hon : blockOn d b = true)
include hq hon

theorem facet_pipeFault_first (hp : p < 2) (h0 : (getBlk d b).pipe0Ok = true) (h1 : (getBlk d b).pipe1Ok = true) :
    (pipeFault b p d).facet q = (pipeDown b p d).facet q := by
  have hp' : ¬ 2 ≤ p := by omega
  simp only [pipeFault, pipeDown, hon, h0, h1, hp']
  generalize updBlk b _ d = e
  simp [hq]

theorem facet_pipeFault_second (h0 : (getBlk d b).pipe0Ok = true) (h1 : (getBlk d b).pipe1Ok = false) :
    (pipeFault b 0 d).facet q = (failPath b 0x0206 (pipeDown b 0 d)).facet q := by
  simp [pipeFault, pipeDown, hon, h0, h1, hq]

end

section
variable {b p : Nat} {d : Dev} (hon : blockOn d b = true)
include hon

theorem pipes_pipeFault_first (hp : p < 2) (h0 : (getBlk d b).pipe0Ok = true) (h1 : (getBlk d b).pipe1Ok = true) :
    (getBlk (pipeFault b p d) b).pipe0Ok = decide (p ≠ 0) ∧ (getBlk (pipeFault b p d) b).pipe1Ok = decide (p = 0) := by
  obtain ⟨pipe0, pipe1⟩ := pipes_eq_of_facet (facet_pipeFault_first (q := .pipes) (by decide) hon hp h0 h1) b
  rw [pipe0, pipe1]
  by_cases h : p = 0 <;> simp [pipeDown, h, h0, h1]

theorem pathFailed_pipeFault_first (hp : p < 2) (h0 : (getBlk d b).pipe0Ok = true) (h1 : (getBlk d b).pipe1Ok = true) :
    (getBlk (pipeFault b p d) b).pathFailed = (getBlk d b).pathFailed := by
  rw [pathFailed_eq_of_facet (facet_pipeFault_first (q := .path) (by decide) hon hp h0 h1) b]
  by_cases h : p = 0 <;> simp [pipeDown, h]

theorem pipe0Ok_pipeFault_second (h0 : (getBlk d b).pipe0Ok = true) (h1 : (getBlk d b).pipe1Ok = false) :
    (getBlk (pipeFault b 0 d) b).pipe0Ok = false := by
  have kept := facet_failPath (q := .pipes) (by decide) (by decide) b 0x0206 (pipeDown b 0 d)
  rw [(pipes_eq_of_facet ((facet_pipeFault_second (by decide) hon h0 h1).trans kept) b).1]
  simp [pipeDown]

theorem pathFailed_pipeFault_second (h0 : (getBlk d b).pipe0Ok = true) (h1 : (getBlk d b).pipe1Ok = false) :
    (getBlk (pipeFault b 0 d) b).pathFailed = true := by
  rw [pathFailed_eq_of_facet (facet_pipeFault_second (by decide) hon h0 h1) b]
  exact pathFailed_failPath ..

end

/-! ### Fences -/

theorem facet_fencing (b : Nat) (d : Dev) :
    (updBlk b (fun k => { k with fenced := true, crossSave := false }) d).facet .fenced
      = Function.update (d.facet .fenced) b true := by
  funext j
  show (getBlk (updBlk ..) j).fenced = _
  by_cases hj : b = j
  · simp [hj]
  · simp only [getBlk_updBlk, hj, if_false, Function.update_of_ne (Ne.symm hj)]
    rfl

/-- A fence at work on a block fences that block and no other. -/
theorem facet_fenceBlock_fenced {b code cause detail : Nat} {own : Bool} {out : List Nat} {d : Dev}
    (hp : populated d b = true) :
    (fenceBlock b code cause detail own out d).facet .fenced = Function.update (d.facet .fenced) b true := by
  unfold fenceBlock
  split
  · next h =>
    have hf : (getBlk d b).fenced = true := by simpa [hp] using h
    exact (Function.update_eq_self_iff.mpr hf.symm).symm
  · next h =>
    simp [facet_fencing]

theorem populated_fenceBlock (b code cause detail : Nat) (own : Bool) (out : List Nat) (d : Dev) (j : Nat) :
    populated (fenceBlock b code cause detail own out d) j = populated d j :=
  populated_eq_of_board (facet_fenceBlock (q := .board) (by decide) (by decide) ..) j

theorem fenced_eq_of_facet {d e : Dev} (h : e.facet .fenced = d.facet .fenced) (b : Nat) :
    (getBlk e b).fenced = (getBlk d b).fenced := congrFun h b

/-- A fence fences its block. -/
theorem fenced_fenceBlock_same {b code cause detail : Nat} {own : Bool} {out : List Nat} {d : Dev}
    (hp : populated d b = true) : (getBlk (fenceBlock b code cause detail own out d) b).fenced = true :=
  (congrFun (facet_fenceBlock_fenced hp) b).trans (Function.update_self ..)

/-- A fence leaves a fenced block fenced. -/
theorem fenced_fenceBlock_other {b code cause detail j : Nat} {own : Bool} {out : List Nat} {d : Dev}
    (hp : populated d b = true) (hj : (getBlk d j).fenced = true) :
    (getBlk (fenceBlock b code cause detail own out d) j).fenced = true := by
  refine (congrFun (facet_fenceBlock_fenced hp) j).trans ?_
  by_cases h : j = b
  · rw [h, Function.update_self]
  · rw [Function.update_of_ne h]
    exact hj

theorem fenced_fenceWithPartner {b : Nat} {own : Bool} {d : Dev} (hp : populated d b = true) :
    (getBlk (fenceWithPartner b own d) b).fenced = true := by
  simp only [fenceWithPartner]
  split
  · next h =>
    have hpartner : populated d (partner b) = true := by
      simp only [Bool.and_eq_true] at h
      exact h.1.1
    split
    · refine (fenced_eq_of_facet (facet_updBlk ?_ ?_ ?_ ?_ ?_) b).trans (fenced_fenceBlock_same hp) <;> simp
    · exact fenced_fenceBlock_other ((populated_fenceBlock ..).trans hpartner) (fenced_fenceBlock_same hp)
  · exact fenced_fenceBlock_same hp

theorem fenced_fenceRegion {b code : Nat} {own : Bool} {d : Dev} (hp : populated d b = true)
    (hf : (getBlk d b).fenced = false) : (getBlk (fenceRegion (b / 2) code own d) b).fenced = true := by
  have hb : b ∈ [2 * (b / 2), 2 * (b / 2) + 1].filter (fun b => populated d b && !(getBlk d b).fenced) := by
    have : b = 2 * (b / 2) ∨ b = 2 * (b / 2) + 1 := by omega
    simp [hp, hf, this]
  have two := List.length_filter_le (fun b => populated d b && !(getBlk d b).fenced) [2 * (b / 2), 2 * (b / 2) + 1]
  have able : ∀ j ∈ [2 * (b / 2), 2 * (b / 2) + 1].filter (fun b => populated d b && !(getBlk d b).fenced),
      populated d j = true := fun j hj => by simp_all
  unfold fenceRegion
  generalize [2 * (b / 2), 2 * (b / 2) + 1].filter (fun b => populated d b && !(getBlk d b).fenced) = bs at hb two able ⊢
  match bs, hb, two, able with
  | [i], hb, _, able =>
    obtain rfl := List.mem_singleton.mp hb
    exact fenced_fenceBlock_same hp
  | [i, j], hb, _, able =>
    have hi := able i (by simp)
    have hj := (populated_fenceBlock i code 0xFFFFFFFF (d.err.seqNext + 1) own [i, j] d j).trans (able j (by simp))
    obtain rfl | rfl : b = i ∨ b = j := by simpa using hb
    · exact fenced_fenceBlock_other hj (fenced_fenceBlock_same hi)
    · exact fenced_fenceBlock_same hj

/-! ### A fence for want of a partner -/

/-- A block's data path as a fault of the path leaves it. -/
def pathDown (b : Nat) (k : BlockCause) (d : Dev) : Dev := failPath b (blockCode k) (breakBlock b k d)

@[simp] theorem facet_pathDown {q : Facet} (hq : q ≠ .chp ∧ q ≠ .flash ∧ q ≠ .pages)
    (hc : q ≠ .cells ∧ q ≠ .intents ∧ q ≠ .staged ∧ q ≠ .marks) (hp : q ≠ .pipes ∧ q ≠ .path) (b : Nat) (k : BlockCause)
    (d : Dev) : (pathDown b k d).facet q = d.facet q := by
  simp [pathDown, hq, hc, hp]

theorem mode_pathDown (b : Nat) (k : BlockCause) (d : Dev) :
    (pathDown b k d).chp.mode = .curtain ↔ d.chp.mode = .curtain :=
  Mode.eq_iff_of_ground (facet_pathDown (q := .mode) (by decide) (by decide) (by decide) b k d) nofun rfl

theorem fence_noPartner {b : Nat} {k : BlockCause} {d : Dev} (hon : blockOn d b = true) (ho : blkOut d b = false)
    (hp : usablePartner d (partner b) = false) :
    fence b (.noPartner k) d = if d.chp.mode = .curtain
      then recomputeNow (updBlk (partner b) (fun k => { k with crossSave := false }) (curtainFault (pathDown b k d)))
      else recomputeNow (fenceWithPartner b (k ≠ .noCell) (pathDown b k d)) := by
  rw [fence, if_neg (by simp [hon, ho])]
  simp only [hp, Bool.false_eq_true, if_false]
  exact if_congr (mode_pathDown b k d) rfl rfl

theorem faultFlag_curtainFault {d : Dev} (h : d.chp.mode = .curtain) : (curtainFault d).cur.faultFlag = true := by
  simp [curtainFault, h]

theorem faultFlag_fence_noPartner {b : Nat} {k : BlockCause} {d : Dev} (hon : blockOn d b = true)
    (ho : blkOut d b = false) (hp : usablePartner d (partner b) = false) (hm : d.chp.mode = .curtain) :
    (fence b (.noPartner k) d).cur.faultFlag = true := by
  rw [fence_noPartner hon ho hp, if_pos hm]
  have kept := facet_recomputeNow (q := .marks) (by decide)
    (updBlk (partner b) (fun k => { k with crossSave := false }) (curtainFault (pathDown b k d)))
  exact (congrArg Prod.fst kept).trans (faultFlag_curtainFault ((mode_pathDown b k d).mpr hm))

theorem fenced_recomputeNow (d : Dev) (b : Nat) : (getBlk (recomputeNow d) b).fenced = (getBlk d b).fenced :=
  fenced_eq_of_facet (facet_recomputeNow (by decide) d) b

theorem fenced_fence_noPartner {b : Nat} {k : BlockCause} {d : Dev} (hon : blockOn d b = true)
    (ho : blkOut d b = false) (hp : usablePartner d (partner b) = false) (hm : d.chp.mode ≠ .curtain) :
    (getBlk (fence b (.noPartner k) d) b).fenced = true := by
  rw [fence_noPartner hon ho hp, if_neg hm, fenced_recomputeNow]
  refine fenced_fenceWithPartner ((populated_eq_of_board ?_ b).trans (populated_of_blockOn hon))
  exact facet_pathDown (by decide) (by decide) (by decide) b k d

/-- The faults that fence a block at once. -/
theorem fenced_fence {b : Nat} {c : FenceCause} {d : Dev} (hon : blockOn d b = true) (ho : blkOut d b = false)
    (hc : c = .dramPort ∨ c = .fabric ∨ c = .powerDomain) : (getBlk (fence b c d) b).fenced = true := by
  have hp := populated_of_blockOn hon
  have hf : (getBlk d b).fenced = false := by
    simp only [blkOut, Bool.or_eq_false_iff] at ho
    exact ho.1
  have guard : ¬ (!blockOn d b || blkOut d b) := by simp [hon, ho]
  obtain rfl | rfl | rfl := hc <;> rw [fence, if_neg guard]
  · refine (fenced_recomputeNow ..).trans (fenced_fenceWithPartner ((populated_eq_of_board ?_ b).trans hp))
    simp
  · exact (fenced_recomputeNow ..).trans (fenced_fenceRegion hp hf)
  · exact (fenced_recomputeNow ..).trans (fenced_fenceRegion hp hf)

/-! ### A save crossed to the partner -/

theorem facet_crossSave {q : Facet} (hq : q ≠ .chp ∧ q ≠ .flash ∧ q ≠ .pages) {b : Nat} {k : BlockCause} {d : Dev}
    (hon : blockOn d b = true) (ho : blkOut d b = false) (hc : (getBlk d b).crossSave = false)
    (hp : usablePartner d (partner b) = true) (hport : (getBlk d b).portOk = true) :
    (crossSave b k d).facet q = (updBlk b (fun k => { k with crossSave := true }) (raiseFault {
      code := 0x0301, level := 3, island := 72 + b / 2, severity := 1,
      cause := lastSeq (pathDown b k d) (64 + b) } (pathDown b k d))).facet q := by
  rw [crossSave, if_neg (by simp [hon, ho, hc, hp, hport])]
  exact facet_recomputeNow hq _

section
variable {b : Nat} {k : BlockCause} {d : Dev} (hon : blockOn d b = true) (ho : blkOut d b = false)
  (hc : (getBlk d b).crossSave = false) (hp : usablePartner d (partner b) = true) (hport : (getBlk d b).portOk = true)
include hon ho hc hp hport

theorem crossSave_crossSave : (getBlk (crossSave b k d) b).crossSave = true := by
  refine (congrFun (facet_crossSave (q := .cross) (by decide) hon ho hc hp hport) b).trans ?_
  show (getBlk (updBlk ..) b).crossSave = true
  simp

theorem pathFailed_crossSave : (getBlk (crossSave b k d) b).pathFailed = true := by
  refine (pathFailed_eq_of_facet ((facet_crossSave (q := .path) (by decide) hon ho hc hp hport).trans ?_) b).trans
    (pathFailed_failPath b (blockCode k) (breakBlock b k d))
  exact (facet_updBlk (by simp) (by simp) (by simp) (by simp) (by simp)).trans (facet_raiseFault ..)

end

/-- Settles O41. -/
theorem blockFaults : Obligations.BlockFaults := by
  refine ⟨fun b p s hon hp h0 h1 => ?_, fun b s hon h0 h1 => ?_, fun b k s hon ho hc hp hport => ?_,
    fun b c s hon ho hc => ?_, fun b k s hon ho hp => ?_⟩
  · obtain ⟨t, ht, hs, hd⟩ := onDev_next (pipeFault b p) s
    obtain ⟨pipe0, pipe1⟩ := pipes_pipeFault_first hon hp h0 h1
    exact ⟨t, ht, hs, hd ▸ pipe0, hd ▸ pipe1, hd ▸ pathFailed_pipeFault_first hon hp h0 h1⟩
  · obtain ⟨t, ht, hs, hd⟩ := onDev_next (pipeFault b 0) s
    exact ⟨t, ht, hs, hd ▸ pipe0Ok_pipeFault_second hon h0 h1, hd ▸ pathFailed_pipeFault_second hon h0 h1⟩
  · obtain ⟨t, ht, hs, hd⟩ := onDev_next (crossSave b k) s
    exact ⟨t, ht, hs, hd ▸ crossSave_crossSave hon ho hc hp hport, hd ▸ pathFailed_crossSave hon ho hc hp hport⟩
  · obtain ⟨t, ht, hs, hd⟩ := onDev_next (fence b c) s
    exact ⟨t, ht, hs, hd ▸ fenced_fence hon ho hc⟩
  · obtain ⟨t, ht, hs, hd⟩ := onDev_next (fence b (.noPartner k)) s
    exact ⟨t, ht, hs, hd ▸ faultFlag_fence_noPartner hon ho hp,
      hd ▸ fenced_fence_noPartner hon ho hp⟩

end Sys2Proof.Machine
end

section
/-!
PROOFS. The fatal fault of a chip island (R25, R340): a protective curtain with HALT, or what the mode makes of it
(O12).
-/

namespace Sys2Proof.Machine

/-! ### The mode and the curtain's marks: what keeps them -/

/-- The facets of the mode and of a curtain's marks, but for the mode's component whole. -/
def Facet.ofMode (q : Facet) : Prop := q = .mode ∨ q = .fatal ∨ q = .halt ∨ q = .marks

theorem Facet.ofMode.ne {q : Facet} (h : q.ofMode) : q ≠ .chp ∧ q ≠ .pages ∧ q ≠ .cells ∧ q ≠ .poison ∧ q ≠ .flash
    ∧ q ≠ .retired ∧ q ≠ .intents ∧ q ≠ .segments ∧ q ≠ .staged ∧ q ≠ .fenced ∧ q ≠ .path ∧ q ≠ .cross ∧ q ≠ .pipes
    ∧ q ≠ .ecc := by
  obtain rfl | rfl | rfl | rfl := h <;> simp

variable {q : Facet}

theorem facet_countPort (p k v : Nat) (d : Dev) : (countPort p k v d).facet q = d.facet q :=
  (reports_countPort ..).facet_eq

theorem facet_restartTime (d : Dev) : (restartTime d).facet q = d.facet q := by
  unfold restartTime awaitResponses
  (repeat' split) <;> rfl

theorem facet_leaveSelfRefresh (hq : q.ofMode) (d : Dev) : (leaveSelfRefresh d).facet q = d.facet q := by
  simp [leaveSelfRefresh, hq.ne]

theorem facet_abandonTraining (hq : q.ofMode) (d : Dev) : (abandonTraining d).facet q = d.facet q := by
  simp [abandonTraining, hq.ne]

@[simp] theorem facet_putSegment (hq : q ≠ .flash ∧ q ≠ .segments) (c : Nat) (a : W64) (w : Tab Byte) (d : Dev) :
    (putSegment c a w d).facet q = d.facet q := by
  simp [putSegment, hq]

@[simp] theorem facet_putTlc (hq : q ≠ .flash ∧ q ≠ .segments ∧ q ≠ .cells) (c : Nat) (a : W64) (d : Dev) :
    (putTlc c a d).facet q = d.facet q := by
  simp [putTlc, hq]

theorem facet_finishPrograms (hq : q ≠ .flash ∧ q ≠ .segments ∧ q ≠ .cells) (d : Dev) :
    (finishPrograms d).facet q = d.facet q := by
  simp [finishPrograms, hq]

theorem facet_abandonPorts (hq : q ≠ .flash ∧ q ≠ .segments ∧ q ≠ .cells) (all : Bool) (d : Dev) :
    (abandonPorts all d).facet q = d.facet q := by
  simp [abandonPorts, facet_finishPrograms, hq]

theorem facet_abandonCompaction (hq : q ≠ .flash ∧ q ≠ .staged) (d : Dev) :
    (abandonCompaction d).facet q = d.facet q := by
  simp [abandonCompaction, hq]

theorem facet_milestone (m : Nat) (d : Dev) : (milestone m d).facet q = d.facet q := by
  simp [milestone]

theorem facet_refuseAll (d : Dev) : (refuseAll d).facet q = d.facet q := by
  simp [refuseAll]

theorem facet_cutHost (d : Dev) : (cutHost d).facet q = d.facet q := rfl

theorem facet_abandonLink (keepCpls : Bool) (d : Dev) : (abandonLink keepCpls d).facet q = d.facet q := by
  simp [abandonLink]

/-! ### A curtain starts -/

/-- A curtain before its change of mode: what is under way ends. -/
def curtainCalm (k : CurtainKind) (d : Dev) : Dev :=
  let d := abandonPorts (!k.planned) (abandonTraining (endLearning 1 (abortRehearsal k.linkKept d)))
  let d := abandonCompaction { d with est := { d.est with probing := false, shareMa := 0 } }
  let d := match findDesc d d.svc.entering with
    | some x => if k.linkKept then endWith x stMode 0 0 d else dropDesc x.handle d
    | none => d
  { d with svc := { d.svc with entering := 0, drain := false } }

/-- A curtain's change of mode, and its marks. -/
def curtainMarked (k : CurtainKind) (d : Dev) : Dev :=
  let ht := d.tmb.ht
  let d := transition .curtain k.cause d
  updateReclaim { d with
    cur := { ({} : Curtain) with
      linkKept := k.linkKept, after := k.after
      plannedFlag := k.planned, protectiveFlag := k.protective, seqNo := (d.cur.seqNo + 1) % 256
      failHt := ht, energyAtFail := d.est.eCons, handle := k.handle, listedB := listedNow d }
    chp := { d.chp with
      planned := k.planned
      halt := d.chp.halt || k.protective || (k.planned && (k.after = 0 || k.after = 3)) } }

/-- A curtain's first milestones. -/
def curtainRun (k : CurtainKind) (d : Dev) : Dev :=
  let d := countChip 13 1 (milestone 1 d)
  let d := if d.spw.onPack then milestone 2 d else d
  recomputeNow (if k.linkKept then milestone 3 (refuseAll d)
    else milestone 4 (abandonLink false (milestone 3 (cutHost d))))

theorem startCurtain_eq (k : CurtainKind) (d : Dev) :
    startCurtain k d = curtainRun k (curtainMarked k (curtainCalm k d)) := rfl

theorem facet_curtainCalm (hq : q.ofMode) (k : CurtainKind) (d : Dev) : (curtainCalm k d).facet q = d.facet q := by
  simp only [curtainCalm]
  split <;> simp [facet_abandonCompaction, facet_abandonPorts, facet_abandonTraining, hq.ne, hq]

theorem facet_curtainRun (hq : q.ofMode) (k : CurtainKind) (d : Dev) : (curtainRun k d).facet q = d.facet q := by
  simp [curtainRun, facet_milestone, facet_refuseAll, facet_cutHost, facet_abandonLink, hq.ne]

theorem facet_curtainMarked_fatal (k : CurtainKind) (d : Dev) :
    (curtainMarked k d).facet .fatal = d.facet .fatal := by
  have noted := facet_transition (q := .fatal) (m := .curtain) (cause := k.cause) (d := d) nofun (.inl nofun)
  exact (facet_updateReclaim _).trans noted

theorem facet_transition_mode (m : Mode) (cause : Nat) (d : Dev) :
    (transition m cause d).facet .mode = m.ground :=
  (reports_transition m cause d).facet_eq

theorem facet_curtainMarked_mode (k : CurtainKind) (d : Dev) : (curtainMarked k d).facet .mode = .curtain :=
  (facet_updateReclaim _).trans (facet_transition_mode .curtain k.cause d)

theorem facet_curtainMarked_marks (k : CurtainKind) (d : Dev) :
    (curtainMarked k d).facet .marks = (false, k.protective) :=
  facet_updateReclaim _

theorem facet_curtainMarked_halt {k : CurtainKind} (hk : k.protective = true) (d : Dev) :
    (curtainMarked k d).facet .halt = true := by
  refine (facet_updateReclaim _).trans ?_
  show (_ || k.protective || _) = true
  simp [hk]

/-- What a protective curtain has at its start. -/
theorem protective_startCurtain {k : CurtainKind} (hk : k.protective = true) (d : Dev) :
    (startCurtain k d).chp.mode = .curtain ∧ (startCurtain k d).cur.protectiveFlag = true
      ∧ (startCurtain k d).chp.halt = true ∧ (startCurtain k d).chp.fatalIslands = d.chp.fatalIslands := by
  have run {q : Facet} (hq : q.ofMode) :
      (startCurtain k d).facet q = (curtainMarked k (curtainCalm k d)).facet q := by
    rw [startCurtain_eq, facet_curtainRun hq]
  have mode := (run (.inl rfl)).trans (facet_curtainMarked_mode ..)
  have fatal := (run (.inr (.inl rfl))).trans
    ((facet_curtainMarked_fatal ..).trans (facet_curtainCalm (.inr (.inl rfl)) k d))
  have halt := (run (.inr (.inr (.inl rfl)))).trans (facet_curtainMarked_halt hk _)
  have marks := (run (.inr (.inr (.inr rfl)))).trans (facet_curtainMarked_marks ..)
  exact ⟨Mode.eq_of_ground nofun mode, (congrArg Prod.snd marks).trans hk, halt, fatal⟩

/-! ### The device goes dark, or on as a curtain: the failed islands stay known -/

theorem facet_abortSource (d : Dev) : (abortSource d).facet q = d.facet q := by
  simp [abortSource, sendFrame, sendOn, newFrame, putFrame, facet_countPort]

theorem facet_tornDirs (hq : q ≠ .flash) (d : Dev) : (tornDirs d).facet q = d.facet q := by
  refine facet_foldl (fun e u => ?_) _ _
  simp [hq]

theorem facet_stopTime (d : Dev) : (stopTime d).facet q = d.facet q := by
  unfold stopTime
  split <;> rfl

theorem facet_checkRetention (d : Dev) : (checkRetention d).facet q = d.facet q := by
  unfold checkRetention
  split <;> rfl

theorem facet_goDark_fatal (d : Dev) : (goDark d).facet .fatal = d.facet .fatal :=
  calc (goDark d).facet .fatal
    _ = (stopTime (tornDirs (abortSource d))).facet .fatal := facet_checkRetention _
    _ = d.facet .fatal := (facet_stopTime _).trans ((facet_tornDirs (q := .fatal) nofun _).trans (facet_abortSource d))

theorem facet_intToCurtain_fatal (cause exit : Nat) (d : Dev) :
    (intToCurtain cause exit d).facet .fatal = d.facet .fatal :=
  calc (intToCurtain cause exit d).facet .fatal
    _ = (transition .curtain cause (leaveSelfRefresh (restartTime d))).facet .fatal :=
      facet_recomputeNow (by decide) _
    _ = (leaveSelfRefresh (restartTime d)).facet .fatal := facet_transition (q := .fatal) nofun (.inl nofun)
    _ = d.facet .fatal := (facet_leaveSelfRefresh (by simp [Facet.ofMode]) _).trans (facet_restartTime d)

theorem facet_marginTest_fatal (d : Dev) : (marginTest d).facet .fatal = d.facet .fatal := by
  unfold marginTest
  simp [facet_intToCurtain_fatal]

/-! ### The fault -/

/-- A fatal fault reported and noted, before what the mode makes of it. -/
def fatalNoted (i : Nat) (d : Dev) : Dev :=
  let d := raiseFault { code := 0x0408, level := 4, island := i, severity := 4 } (cutEndpoint i d)
  { d with chp := { d.chp with fatalIslands := i :: d.chp.fatalIslands } }

theorem chp_fatalNoted (i : Nat) (d : Dev) :
    (fatalNoted i d).chp = { d.chp with fatalIslands := i :: d.chp.fatalIslands } := by
  have kept : (raiseFault { code := 0x0408, level := 4, island := i, severity := 4 } (cutEndpoint i d)).chp
      = d.chp := by
    refine (facet_raiseFault (q := .chp) _ _).trans ?_
    unfold cutEndpoint
    split <;> rfl
  simp [fatalNoted, kept]

/-- What the fault of an island that SEALED powers takes with it (R37): the cache DRAM, and the pack's switch. -/
def fatalSealed (i : Nat) (d : Dev) : Dev :=
  if i ≠ 80 ∧ i ≠ 83 then d
  else
    let d := loseDram { d with chp := { d.chp with halt := true } }
    let d := if i = 80 then { d with pkb := { d.pkb with switchClosed := false } } else d
    if i = 80 ∧ !d.spw.good then goDark (transition .dark 0x0D d) else d

/-- What a chip island's fault makes of the device, once it is noted (R37, R128, R340). -/
def fatalInMode (i : Nat) (d : Dev) : Dev :=
  match d.chp.mode with
  | .curtain => fatalInCurtain i d
  | .boot => { d with chp := { d.chp with fatalBoot := true, cause := 0x1A } }
  | .sealed => fatalSealed i d
  | .intermission => if i = 80 then marginTest d else d
  | _ =>
    let d := if i = 80 then { d with pkb := { d.pkb with switchClosed := true } } else d
    startCurtain { cause := 0x07, linkKept := i ≠ 76 && linkUp d, protective := true } d

theorem chipFatal_of_on {i : Nat} {d : Dev} (h : chipIslandOn d i = true) :
    chipFatal i d = fatalInMode i (fatalNoted i d) := by
  rw [chipFatal, if_neg (by simp [h])]
  rfl

theorem chipFatal_of_off {i : Nat} {d : Dev} (h : chipIslandOn d i = false) : chipFatal i d = d := by
  rw [chipFatal, if_pos (by simp [h])]

/-- A curtain in progress becomes a protective one; its mode and the failed islands stand. -/
theorem protective_fatalInCurtain (i : Nat) (d : Dev) :
    (fatalInCurtain i d).chp.mode = d.chp.mode ∧ (fatalInCurtain i d).cur.protectiveFlag = true
      ∧ (fatalInCurtain i d).chp.halt = true ∧ (fatalInCurtain i d).chp.fatalIslands = d.chp.fatalIslands := by
  unfold fatalInCurtain
  dsimp only
  split
  · have chp (e : Dev) : (abandonLink false e).chp = e.chp := facet_abandonLink (q := .chp) false e
    have marks (e : Dev) : (abandonLink false e).cur.protectiveFlag = e.cur.protectiveFlag :=
      congrArg Prod.snd (facet_abandonLink (q := .marks) false e)
    simp [chp, marks]
  · split <;> exact ⟨rfl, rfl, rfl, rfl⟩

theorem fatalIslands_fatalSealed (i : Nat) (d : Dev) : (fatalSealed i d).chp.fatalIslands = d.chp.fatalIslands := by
  have kept (c : Prop) [Decidable c] (e : Dev) :
      (if c then goDark (transition .dark 0x0D e) else e).chp.fatalIslands = e.chp.fatalIslands := by
    split
    · exact (facet_goDark_fatal _).trans (facet_transition (q := .fatal) nofun (.inl nofun))
    · rfl
  unfold fatalSealed
  split
  · rfl
  · refine (kept ..).trans ?_
    split <;> rfl

/-- Nowhere does the fault lose a failed island. -/
theorem fatalIslands_fatalInMode (i : Nat) (d : Dev) :
    (fatalInMode i d).chp.fatalIslands = d.chp.fatalIslands := by
  unfold fatalInMode
  split
  · exact (protective_fatalInCurtain i d).2.2.2
  · rfl
  · exact fatalIslands_fatalSealed i d
  · split
    · exact facet_marginTest_fatal d
    · rfl
  · refine (protective_startCurtain rfl _).2.2.2.trans ?_
    split <;> rfl

/-- In BOOT the fault is noted for the boot. -/
theorem fatalInMode_boot {i : Nat} {d : Dev} (h : d.chp.mode = .boot) :
    fatalInMode i d = { d with chp := { d.chp with fatalBoot := true, cause := 0x1A } } := by
  simp [fatalInMode, h]

/-- In CURTAIN, and in a mode that it can leave for one, the fault makes a protective curtain with HALT. -/
theorem protective_fatalInMode {i : Nat} {d : Dev} (hb : d.chp.mode ≠ .boot) (hs : d.chp.mode ≠ .sealed)
    (hi : d.chp.mode ≠ .intermission) : (fatalInMode i d).chp.mode = .curtain
      ∧ (fatalInMode i d).cur.protectiveFlag = true ∧ (fatalInMode i d).chp.halt = true := by
  unfold fatalInMode
  split
  · next hm =>
    obtain ⟨mode, marks, halt, -⟩ := protective_fatalInCurtain i d
    exact ⟨mode.trans hm, marks, halt⟩
  · next hm => exact absurd hm hb
  · next hm => exact absurd hm hs
  · next hm => exact absurd hm hi
  · obtain ⟨mode, marks, halt, -⟩ := protective_startCurtain (k := { cause := 0x07, linkKept := _, protective := true })
      rfl _
    exact ⟨mode, marks, halt⟩

theorem mode_fatalSealed {i : Nat} (hi : i ≠ 80) (d : Dev) : (fatalSealed i d).chp.mode = d.chp.mode := by
  simp only [fatalSealed, hi, false_and, if_false]
  split <;> rfl

/-- In SEALED and INTERMISSION the mode stands, but for the power island's fault. -/
theorem mode_fatalInMode {i : Nat} {d : Dev} (hi : i ≠ 80)
    (hm : d.chp.mode = .sealed ∨ d.chp.mode = .intermission) : (fatalInMode i d).chp.mode = d.chp.mode := by
  obtain h | h := hm
  · rw [show fatalInMode i d = fatalSealed i d by simp [fatalInMode, h]]
    exact mode_fatalSealed hi d
  · simp [fatalInMode, h, hi]

/-- The islands that Table 1.6 has off cannot fail. -/
theorem chipIslandOn_eq_false {i : Nat} {d : Dev} (h : d.chp.mode = .dark ∨ i < 76 ∨ 83 < i
    ∨ d.chp.mode = .sealed ∧ i ≠ 80 ∧ i ≠ 83) : chipIslandOn d i = false := by
  obtain h | h | h | ⟨h, h80, h83⟩ := h
  · simp [chipIslandOn, h]
  · simp [chipIslandOn, Nat.not_le.mpr h]
  · simp [chipIslandOn, Nat.not_le.mpr h]
  · simp [chipIslandOn, h, h80, h83]

/-- The management core is on wherever its watchdog runs. -/
theorem chipIslandOn_core {d : Dev} (hd : d.chp.mode ≠ .dark) (hs : d.chp.mode ≠ .sealed) :
    chipIslandOn d 79 = true := by
  unfold chipIslandOn
  split <;> simp_all

theorem onPower_next (f : Dev → Dev) (s : State) :
    ∃ t, onPower f s = .next t ∧ t.pending = s.pending ∧ t.dev = f s.dev := by
  unfold onPower
  dsimp only
  split <;> exact ⟨_, rfl, rfl, rfl⟩

/-- Settles O12. -/
theorem chipFatalRows : Obligations.ChipFatalRows := by
  refine ⟨fun i s hon => ?_, fun i s hoff => ?_, fun i s h => chipIslandOn_eq_false h, fun s hd hb hs hi => ?_⟩
  · obtain ⟨t, ht, hp, hdev⟩ := onPower_next (chipFatal i) s
    have chp := chp_fatalNoted i s.dev
    have mode : (fatalNoted i s.dev).chp.mode = s.dev.chp.mode := by rw [chp]
    rw [chipFatal_of_on hon] at hdev
    refine ⟨t, ht, hp, ?_⟩
    rw [hdev, fatalIslands_fatalInMode, chp]
    refine ⟨by simp, fun hb hs hi => ?_, fun h => ?_, fun h h80 => ?_, fun h h80 => ?_⟩
    · exact protective_fatalInMode (mode ▸ hb) (mode ▸ hs) (mode ▸ hi)
    · rw [fatalInMode_boot (mode.trans h)]
      exact ⟨mode.trans h, rfl⟩
    · exact (mode_fatalInMode h80 (.inl (mode.trans h))).trans (mode.trans h)
    · exact (mode_fatalInMode h80 (.inr (mode.trans h))).trans (mode.trans h)
  · show onPower (chipFatal i) s = .next s
    simp [onPower, chipFatal_of_off hoff]
  · obtain ⟨t, ht, hp, hdev⟩ := onPower_next (chipFatal 79) s
    have chp := chp_fatalNoted 79 s.dev
    have mode : (fatalNoted 79 s.dev).chp.mode = s.dev.chp.mode := by rw [chp]
    rw [chipFatal_of_on (chipIslandOn_core hd hs)] at hdev
    obtain ⟨curtain, marks, halt⟩ := protective_fatalInMode (i := 79) (mode ▸ hb) (mode ▸ hs) (mode ▸ hi)
    refine ⟨t, ht, ht, hdev ▸ curtain, hdev ▸ marks, hdev ▸ halt, ?_⟩
    rw [hdev, fatalIslands_fatalInMode, chp]

end Sys2Proof.Machine
end

section
/-!
PROOFS. Erases: their end, their suspension and their resumption (R19, R321, R323, R324; O26).
-/

namespace Sys2Proof.Machine

/-! ### Changes of cells alone -/

/-- `e` is `d` with cells changed and reports added. -/
def Dev.CellsOnly (d e : Dev) : Prop := Dev.Reports { d with cells := e.cells } e

theorem Dev.Reports.cellsOnly {d e : Dev} {cells : Tab CellSt} (h : Dev.Reports { d with cells } e) :
    d.CellsOnly e := by
  have kept : e.cells = cells := h.cells_eq
  unfold Dev.CellsOnly
  rw [kept]
  exact h

@[simp] theorem getCell_trace (type island a b : Nat) (d : Dev) (j : Nat) :
    getCell (trace type island a b d) j = getCell d j := getCell_eq_of_cells (facet_trace ..) j

@[simp] theorem getCell_countCell (c k v : Nat) (d : Dev) (j : Nat) :
    getCell (countCell c k v d) j = getCell d j := getCell_eq_of_cells (facet_countCell ..) j

/-! ### Erases that start -/

/-- A cell without its erases: what the start of an erase leaves alone. -/
def CellSt.sansErases (k : CellSt) : CellSt := { k with erases := [] }

theorem sansErases_eraseNow (c t pos mode : Nat) (port : Bool) (d : Dev) (j : Nat) :
    (getCell (eraseNow c t pos mode port d) j).sansErases = (getCell d j).sansErases := by
  simp only [eraseNow, getCell_trace, getCell_updCell]
  split
  · next h => rw [h]; rfl
  · rfl

theorem sansErases_resumeIntents (b : Nat) (d : Dev) (j : Nat) :
    (getCell (resumeIntents b d) j).sansErases = (getCell d j).sansErases := by
  unfold resumeIntents
  generalize (waitingIntents d b).reverse = is
  induction is generalizing d with
  | nil => rfl
  | cons i is ih =>
    rw [List.foldl_cons, ih]
    split
    · rfl
    · exact sansErases_eraseNow ..

/-- Under WARN no erase that waits starts (R105). -/
theorem resumeIntents_warn {b : Nat} {d : Dev} (h : d.spw.warn = true) : resumeIntents b d = d := by
  simp [resumeIntents, waitingIntents, h]

theorem sansErases_startErase (c t pos mode : Nat) (port : Bool) (d : Dev) (j : Nat) :
    (getCell (startErase c t pos mode port d) j).sansErases = (getCell d j).sansErases := by
  unfold startErase
  dsimp only
  split
  · rfl
  · exact sansErases_eraseNow ..

/-! ### The end of an erase -/

/-- A cell whose erase of target `k` has ended. -/
def CellSt.eraseEnded (k : Nat) (e : Erase) (q : CellSt) : CellSt :=
  { q with
    erases := Tab.drop q.erases k
    port := if e.port then .done else q.port
    result := if e.port then 1 else q.result }

/-- What the end of an erase takes with it, before what waited for it goes on. -/
def eraseEnded (c k : Nat) (e : Erase) (d : Dev) : Dev :=
  let d := updCell c (CellSt.eraseEnded k e) d
  let d := clearUnit c k e.unit { d with flash := { d.flash with
    intents := d.flash.intents.filter (fun i => i ≠ (c, k, e.unit)) } }
  let d := if e.port && e.unit < 328 then
      { d with flash := { d.flash with foreign := (c, k, e.unit) :: d.flash.foreign } }
    else d
  trace 0x3004 c (c + k * 256 + e.unit * 65536) 3000 (countCell c 2 1 d)

/-- Erases that waited go on, where the mode lets them. -/
def eraseNext (b : Nat) (d : Dev) : Dev :=
  if orderingPowered d && d.chp.mode ≠ .curtain then resumeIntents b d else d

section
variable {c k : Nat} {e : Nat × Erase} {d : Dev}

theorem eraseComplete_eq (hp : portPresent d c = true) (he : (getCell d c).erases.find? (fun e => e.1 = k) = some e)
    (hs : e.2.suspended = false) :
    eraseComplete c k d = stripeDone (c / 8) e.2.unit (eraseNext (c / 8) (eraseEnded c k e.2 d)) := by
  simp only [eraseComplete, hp, if_true, he, hs]
  rfl

end

/-- An erase that is absent, suspended or out of reach ends nothing. -/
theorem eraseComplete_idle {c k : Nat} {d : Dev} (h : portPresent d c = false
    ∨ (getCell d c).erases.find? (fun e => e.1 = k) = none
    ∨ ∃ e, (getCell d c).erases.find? (fun e => e.1 = k) = some e ∧ e.2.suspended = true) :
    eraseComplete c k d = d := by
  obtain h | h | ⟨e, h, hs⟩ := h
  · simp [eraseComplete, h]
  · cases hp : portPresent d c <;> simp [eraseComplete, h, hp]
  · cases hp : portPresent d c <;> simp [eraseComplete, h, hp, hs]

section
variable (c k : Nat) (e : Erase) (d : Dev)

theorem facet_eraseEnded_intents :
    (eraseEnded c k e d).facet .intents = d.flash.intents.filter (fun i => i ≠ (c, k, e.unit)) := by
  refine (facet_trace ..).trans ((facet_countCell ..).trans ?_)
  split <;> rfl

theorem facet_eraseEnded_segments :
    (eraseEnded c k e d).facet .segments = d.flash.segments.filter
      (fun x => !(x.1.1 = c && x.1.2.1 = k && x.1.2.2.1 = e.unit)) := by
  refine (facet_trace ..).trans ((facet_countCell ..).trans ?_)
  split <;> rfl

theorem getCell_eraseEnded : getCell (eraseEnded c k e d) c = (getCell d c).eraseEnded k e := by
  refine (getCell_trace ..).trans ((getCell_countCell ..).trans ?_)
  split <;> exact (getCell_updCell c (CellSt.eraseEnded k e) d c).trans (if_pos rfl)

theorem spw_eraseEnded : (eraseEnded c k e d).spw = d.spw := by
  unfold eraseEnded
  refine (reports_trace ..).spw_eq.trans ((reports_countCell ..).spw_eq.trans ?_)
  split <;> rfl

end

theorem facet_eraseNext {q : Facet} (hq : q ≠ .cells) (b : Nat) (d : Dev) : (eraseNext b d).facet q = d.facet q := by
  simp [eraseNext, hq]

theorem sansErases_eraseNext (b : Nat) (d : Dev) (j : Nat) :
    (getCell (eraseNext b d) j).sansErases = (getCell d j).sansErases := by
  unfold eraseNext
  split
  · exact sansErases_resumeIntents ..
  · rfl

theorem eraseNext_warn {b : Nat} {d : Dev} (h : d.spw.warn = true) : eraseNext b d = d := by
  simp [eraseNext, resumeIntents_warn h]

theorem getCell_stripeDone (b pos : Nat) (d : Dev) (j : Nat) : getCell (stripeDone b pos d) j = getCell d j :=
  getCell_eq_of_cells (facet_stripeDone (by decide) b pos d) j

section
variable {c k : Nat} {e : Nat × Erase} {d : Dev} (hp : portPresent d c = true)
  (he : (getCell d c).erases.find? (fun e => e.1 = k) = some e) (hs : e.2.suspended = false)
include hp he hs

theorem facet_eraseComplete {q : Facet} (hq : q ≠ .chp ∧ q ≠ .flash ∧ q ≠ .pages) (hc : q ≠ .cells) :
    (eraseComplete c k d).facet q = (eraseEnded c k e.2 d).facet q := by
  rw [eraseComplete_eq hp he hs, facet_stripeDone hq, facet_eraseNext hc]

theorem intents_eraseComplete :
    (eraseComplete c k d).flash.intents = d.flash.intents.filter (fun i => i ≠ (c, k, e.2.unit)) :=
  (facet_eraseComplete hp he hs (q := .intents) (by decide) nofun).trans (facet_eraseEnded_intents ..)

theorem segments_eraseComplete : (eraseComplete c k d).flash.segments = d.flash.segments.filter
    (fun x => !(x.1.1 = c && x.1.2.1 = k && x.1.2.2.1 = e.2.unit)) :=
  (facet_eraseComplete hp he hs (q := .segments) (by decide) nofun).trans (facet_eraseEnded_segments ..)

/-- The port of the cell, as the end of an erase leaves it. -/
theorem port_eraseComplete : (getCell (eraseComplete c k d) c).port = (if e.2.port then .done else (getCell d c).port)
    ∧ (getCell (eraseComplete c k d) c).result = (if e.2.port then 1 else (getCell d c).result) := by
  have cell := sansErases_eraseNext (c / 8) (eraseEnded c k e.2 d) c
  rw [getCell_eraseEnded] at cell
  rw [eraseComplete_eq hp he hs, getCell_stripeDone]
  exact ⟨congrArg CellSt.port cell, congrArg CellSt.result cell⟩

theorem erases_eraseComplete_warn (hw : d.spw.warn = true) :
    (getCell (eraseComplete c k d) c).erases = Tab.drop (getCell d c).erases k := by
  have hw' : (eraseEnded c k e.2 d).spw.warn = true := by rw [spw_eraseEnded, hw]
  rw [eraseComplete_eq hp he hs, getCell_stripeDone, eraseNext_warn hw', getCell_eraseEnded, CellSt.eraseEnded]

end

/-! ### What a port had queued behind an erase -/

/-- A queued erase starts once nothing holds it (R321). -/
def portNext (c : Nat) (d : Dev) : Dev :=
  let k := getCell d c
  if portPresent d c && k.port = .queued && k.op = 0x20 && !portWaits d c k.op k.addr then portBegin c d else d

theorem portNext_idle {c : Nat} {d : Dev} (h : portPresent d c = false ∨ (getCell d c).port ≠ .queued
    ∨ (getCell d c).op ≠ 0x20) : portNext c d = d := by
  obtain h | h | h := h <;> simp [portNext, h]

theorem portNext_begins {c : Nat} {d : Dev} (hp : portPresent d c = true) (hq : (getCell d c).port = .queued)
    (hop : (getCell d c).op = 0x20) (hw : portWaits d c 0x20 (getCell d c).addr = false) :
    portNext c d = portBegin c d := by
  simp [portNext, hp, hq, hop, hw]

theorem portNext_warn {c : Nat} {d : Dev} (h : d.spw.warn = true) : portNext c d = d := by
  refine if_neg ?_
  rintro hgo
  simp only [Bool.and_eq_true, decide_eq_true_eq] at hgo
  obtain ⟨⟨-, hop⟩, hwait⟩ := hgo
  simp [portWaits, hop, h] at hwait

theorem facet_portNext {q : Facet} (hc : q ≠ .cells) (hq : q ≠ .flash ∧ q ≠ .intents) (c : Nat) (d : Dev) :
    (portNext c d).facet q = d.facet q := by
  simp [portNext, portBegin, portDone, hc, hq]

theorem port_portBegin {c : Nat} {d : Dev} (hop : (getCell d c).op = 0x20)
    (hr : startResult d c 0x20 (getCell d c).addr = 0) : (getCell (portBegin c d) c).port = .executing := by
  have cell := sansErases_startErase c (aTarget (getCell d c).addr) (unitName (aUnit (getCell d c).addr))
    (aMode (getCell d c).addr) true (updCell c (fun k => { k with port := .executing }) d) c
  simp only [portBegin, hop, hr]
  refine (congrArg CellSt.port cell).trans ?_
  simp [CellSt.sansErases]

/-! ### Suspension and resumption -/

theorem find?_updErase (k : Nat) (g : Erase → Erase) (es : Tab Erase) :
    (es.map (fun e => if e.1 = k then (e.1, g e.2) else e)).find? (fun e => e.1 = k)
      = (es.find? (fun e => e.1 = k)).map (fun e => (e.1, g e.2)) := by
  induction es with
  | nil => rfl
  | cons e es ih => by_cases h : e.1 = k <;> simp [h, ih]

theorem eraseOf_updErase {c k : Nat} {g : Erase → Erase} {d : Dev} {e : Erase} (h : eraseOf d c k = some e) :
    eraseOf (updErase c k g d) c k = some (g e) := by
  obtain ⟨p, hp, rfl⟩ := Option.map_eq_some_iff.mp h
  rw [eraseOf, updErase, getCell_updCell, if_pos rfl, find?_updErase, hp]
  rfl

theorem eraseOf_eq_of_cells {d e : Dev} (h : e.facet .cells = d.facet .cells) (c k : Nat) :
    eraseOf e c k = eraseOf d c k := by
  rw [eraseOf, getCell_eq_of_cells h, eraseOf]

section
variable {c k us : Nat} {w : Bool} {e : Erase} {d : Dev} (he : eraseOf d c k = some e)
include he

theorem eraseSuspend_eq (hp : portPresent d c = true) (hs : e.suspended = false) (hw : readWaits d c k w = true)
    (hus : 500 ≤ us) (h5 : e.suspends < 5) (h3 : e.progressUs + us < 3000) :
    eraseSuspend c k us w d = trace 0x3002 c (c + k * 256 + e.unit * 65536) (e.progressUs + us) (countCell c 3 1
      (updErase c k (fun e => { e with
        suspended := true, suspends := e.suspends + 1, suspendReads := 0, progressUs := e.progressUs + us }) d)) := by
  have guard : ¬ (e.suspended || !portPresent d c || !readWaits d c k w || us < 500 || 5 ≤ e.suspends
      || 3000 ≤ e.progressUs + us) := by
    simp only [hs, hp, hw, Bool.or_eq_true, decide_eq_true_eq]
    simp only [Bool.not_true, Bool.false_eq_true, or_self, false_or]
    omega
  simp only [eraseSuspend, he]
  exact if_neg guard

theorem eraseSuspend_idle (h : portPresent d c = false ∨ e.suspended = true ∨ readWaits d c k w = false ∨ us < 500
    ∨ 5 ≤ e.suspends ∨ 3000 ≤ e.progressUs + us) : eraseSuspend c k us w d = d := by
  simp only [eraseSuspend, he]
  refine if_pos ?_
  simp only [Bool.or_eq_true, decide_eq_true_eq, Bool.not_eq_true']
  tauto

theorem eraseResume_eq (hp : portPresent d c = true) (hs : e.suspended = true) (hf : e.frozen = false)
    (hm : d.chp.mode ≠ .curtain) (hr : readWaits d c k w = false ∨ 2000 ≤ us ∨ 64 ≤ e.suspendReads) :
    eraseResume c k us w d = trace 0x3003 c (c + k * 256 + e.unit * 65536) e.progressUs
      (updErase c k (fun e => { e with suspended := false }) d) := by
  have guard : ¬ (!e.suspended || e.frozen || !portPresent d c || d.chp.mode = .curtain
      || (readWaits d c k w && us < 2000 && e.suspendReads < 64)) := by
    simp only [hs, hp, hf, hm, Bool.or_eq_true, Bool.and_eq_true, decide_eq_true_eq]
    simp only [Bool.not_true, Bool.false_eq_true, or_self, false_or]
    rintro ⟨⟨hw, hu⟩, hn⟩
    rw [hw] at hr
    simp only [Bool.true_eq_false, false_or] at hr
    omega
  simp only [eraseResume, he]
  exact if_neg guard

theorem eraseResume_idle (h : portPresent d c = false ∨ e.suspended = false ∨ e.frozen = true ∨ d.chp.mode = .curtain
    ∨ (readWaits d c k w = true ∧ us < 2000 ∧ e.suspendReads < 64)) : eraseResume c k us w d = d := by
  simp only [eraseResume, he]
  refine if_pos ?_
  simp only [Bool.or_eq_true, Bool.and_eq_true, decide_eq_true_eq, Bool.not_eq_true']
  tauto

end

/-- Settles O26. -/
theorem erases : Obligations.Erases := by
  refine ⟨fun c k s e hp he hs => ?_, fun c k s h => ?_, fun c k s e he hs h => ?_, fun c k s hp he hq hop hw hr => ?_,
    fun c k us w s e he hs hp hw hus h5 h3 => ?_, fun c k us w s e he h => ?_,
    fun c k us w s e he hs hp hf hm hr => ?_, fun c k us w s e he h => ?_, fun c k us w s he => ?_⟩
  · obtain ⟨t, ht, ho, hd⟩ := onDev_next (fun d => portNext c (eraseComplete c k d)) s
    obtain ⟨port, result⟩ := port_eraseComplete hp he hs
    have unqueued (hq : (getCell (eraseComplete c k s.dev) c).port ≠ .queued) : t.dev = eraseComplete c k s.dev :=
      hd.trans (portNext_idle (.inr (.inl hq)))
    refine ⟨t, ht, ho, fun hq => ?_, fun x hx => ?_, fun hw => ?_, fun hport => ?_⟩
    · rw [unqueued, intents_eraseComplete hp he hs]
      rw [port]
      split
      · nofun
      · exact hq
    · have kept : t.dev.flash.segments = (eraseComplete c k s.dev).flash.segments :=
        hd ▸ facet_portNext (q := .segments) nofun (by decide) c _
      rw [kept, segments_eraseComplete hp he hs] at hx
      have other := (List.mem_filter.mp hx).2
      rintro ⟨hcell, htarget, hunit⟩
      simp [hcell, htarget, hunit] at other
    · have hw' : (eraseComplete c k s.dev).spw.warn = true :=
        (congrArg Spw.warn (part_eraseComplete (q := .spw) nofun c k s.dev)).trans hw
      rw [hd.trans (portNext_warn hw'), erases_eraseComplete_warn hp he hs hw]
    · rw [unqueued (by rw [port, if_pos hport]; nofun), port, result, if_pos hport, if_pos hport]
      exact ⟨rfl, rfl⟩
  · refine onDev_idle (f := fun d => portNext c (eraseComplete c k d)) ?_
    obtain h | ⟨h, hidle⟩ := h
    · rw [eraseComplete_idle (.inl h), portNext_idle (.inl h)]
    · rw [eraseComplete_idle (.inr (.inl h)), portNext_idle (.inr hidle)]
  · refine onDev_idle (f := fun d => portNext c (eraseComplete c k d)) ?_
    rw [eraseComplete_idle (.inr (.inr ⟨e, he, hs⟩)), portNext_idle (.inr h)]
  · obtain ⟨t, ht, ho, hd⟩ := onDev_next (fun d => portNext c (eraseComplete c k d)) s
    refine ⟨t, ht, ho, ?_⟩
    rw [hd, eraseComplete_idle (.inr (.inl he)), portNext_begins hp hq hop hw]
    exact port_portBegin hop hr
  · obtain ⟨t, ht, ho, hd⟩ := onDev_next (eraseSuspend c k us w) s
    refine ⟨t, ht, ho, ?_⟩
    rw [hd, eraseSuspend_eq he hp hs hw hus h5 h3]
    exact ⟨(eraseOf_eq_of_cells ((facet_trace ..).trans (facet_countCell ..)) c k).trans (eraseOf_updErase he),
      ((reports_countCell ..).trans (reports_trace ..)).cellsOnly⟩
  · exact onDev_idle (eraseSuspend_idle he h)
  · obtain ⟨t, ht, ho, hd⟩ := onDev_next (eraseResume c k us w) s
    refine ⟨t, ht, ho, ?_⟩
    rw [hd, eraseResume_eq he hp hs hf hm hr]
    exact ⟨(eraseOf_eq_of_cells (facet_trace ..) c k).trans (eraseOf_updErase he), (reports_trace ..).cellsOnly⟩
  · exact onDev_idle (eraseResume_idle he h)
  · exact ⟨onDev_idle (f := eraseSuspend c k us w) (by simp [eraseSuspend, he]),
      onDev_idle (f := eraseResume c k us w) (by simp [eraseResume, he])⟩

end Sys2Proof.Machine
end

section
/-!
PROOFS. The records of the flash image: what leaves them as they are, what adds to them; and the start of a staging
record (R87, R88).
-/

namespace Sys2Proof.Machine

/-! ### Operations that leave the records as they are -/

theorem Dev.records_eq_of_flash {d e : Dev} (h : e.facet .flash = d.facet .flash) : e.flash.records = d.flash.records :=
  congrArg Flash.records h

theorem Dev.pages_eq_of_facet {d e : Dev} (h : e.facet .pages = d.facet .pages) : e.pages = d.pages := h

@[simp] theorem records_openUnit (c t pos : Nat) (d : Dev) : (openUnit c t pos d).flash.records = d.flash.records := by
  unfold openUnit
  split <;> rfl

@[simp] theorem records_journalAdd (c : Nat) (avoid : Option Nat) (h : JHead) (d : Dev) :
    (journalAdd c avoid h d).2.flash.records = d.flash.records := by
  have renewed (u : Nat) (full : Bool) : (renewJournal c u full d).flash.records = d.flash.records := by
    unfold renewJournal
    dsimp only
    split <;> rfl
  simp only [journalAdd]
  split
  · exact renewed ..
  · split <;> rfl

@[simp] theorem records_journalBoth (c id : Nat) (d : Dev) : (journalBoth c id d).flash.records = d.flash.records := by
  simp [journalBoth]

@[simp] theorem records_closeUnits (d : Dev) : (closeUnits d).flash.records = d.flash.records := rfl

/-- What a place of a record must be for a body to go there: no program has failed in its unit. -/
def Dev.standing (d : Dev) (p : Nat × Nat × Nat × Nat) : Prop := (p.1, p.2.1, p.2.2.1) ∉ d.flash.retired

theorem standing_of_unitFits {d : Dev} {pos segs hl : Nat} {u : Nat × Nat} (h : unitFits d pos segs hl u = true) :
    (u.1, u.2, pos) ∉ d.flash.retired := by
  intro hr
  simp only [unitFits, Bool.and_eq_true, decide_eq_true_eq, unitFree, unitOpen] at h
  obtain ⟨⟨hle, hne⟩, -⟩ := h
  simp [hr] at hle
  exact hne hle

section
variable {b pos id segs hl : Nat} {cells : List Nat} {ok : Nat × Nat → Bool} {d e : Dev}
  {p : Nat × Nat × Nat × Nat}

theorem roomAt_spec (h : roomAt b pos id segs hl cells ok d = some (p, e)) :
    e.flash.records = d.flash.records ∧ d.standing p := by
  unfold roomAt at h
  simp only at h
  split at h
  · cases h
  · next c t hu =>
    cases Option.some.inj h
    have fits : unitFits (barUnits b pos hl d) pos segs hl (c, t) = true := by
      have found := List.find?_some hu
      simp only [Bool.and_eq_true] at found
      exact found.2
    exact ⟨records_openUnit .., standing_of_unitFits fits⟩

theorem openStripe_flash (h : openStripe b d = some e) : e.flash = d.flash := by
  unfold openStripe at h
  split at h
  · rw [← Option.some.inj h]
    rfl
  · cases h

/-- Room taken leaves the records, and is in a unit that no program has failed in. -/
theorem takeRoomOn_spec {bytes : Nat} (h : takeRoomOn cells ok b id bytes hl d = some (p, e)) :
    e.flash.records = d.flash.records ∧ d.standing p := by
  unfold takeRoomOn at h
  simp only at h
  split at h
  · next hr =>
    cases Option.some.inj h
    split at hr
    · exact roomAt_spec hr
    · cases hr
  · split at h
    · next ho =>
      have flash := openStripe_flash ho
      obtain ⟨records, standing⟩ := roomAt_spec h
      rw [Dev.standing, flash] at standing
      exact ⟨records.trans (congrArg Flash.records flash), standing⟩
    · cases h

end

/-! ### The start of a record -/

section
variable (lb bytes : Nat) (r : Rec) (d : Dev)

theorem records_recordStarted :
    (countBlk lb 11 1 (drawCredit lb bytes (addRec r d))).flash.records = d.flash.records ++ [r] :=
  Dev.records_eq_of_flash ((facet_countBlk lb 11 1 _).trans (facet_drawCredit lb bytes (addRec r d)))

theorem pages_recordStarted : (countBlk lb 11 1 (drawCredit lb bytes (addRec r d))).pages = d.pages :=
  Dev.pages_eq_of_facet ((facet_countBlk lb 11 1 _).trans (facet_drawCredit lb bytes (addRec r d)))

end

section
variable {m : List Host.Cell} {b f handle id : Nat} {kind : RKind} {runs : List Run} {amend : Bool} {origin : Nat × Nat}
  {d e : Dev} (h : startRecord m b kind f runs amend handle origin d = some (id, e))
include h

/-- What the start of a record does, in the order in which it does it: the records and the pages stand until the new
record is added. -/
theorem startRecord_eq : ∃ (lb bytes : Nat) (r : Rec) (a : Dev),
    e = countBlk lb 11 1 (drawCredit lb bytes (addRec r a)) ∧ a.flash.records = d.flash.records ∧ a.pages = d.pages
      ∧ r.written = false ∧ r.kind = kind ∧ r.fn = f ∧ r.home = b ∧ r.id = id := by
  unfold startRecord at h
  dsimp only at h
  split at h
  · next hroom =>
    cases Option.some.inj h
    obtain ⟨records, -⟩ := takeRoomOn_spec hroom
    have pages := Dev.pages_eq_of_facet (facet_takeRoom (q := .pages) nofun hroom)
    exact ⟨_, _, _, _, rfl, records, pages, rfl, rfl, rfl, rfl, rfl⟩
  · cases h

/-- The record that starts: one more, unwritten, of the flow it is started for; every page stands. -/
theorem startRecord_spec : ∃ r, e.flash.records = d.flash.records ++ [r] ∧ e.pages = d.pages
    ∧ r.written = false ∧ r.kind = kind ∧ r.fn = f ∧ r.home = b ∧ r.id = id := by
  obtain ⟨lb, bytes, r, a, rfl, records, pages, stands⟩ := startRecord_eq h
  rw [records_recordStarted, pages_recordStarted, records, pages]
  exact ⟨r, rfl, rfl, stands⟩

end

/-! ### The start of a staging record -/

/-- What STAGING_RECORD_START does to the device, over the cache DRAM `m`. -/
def stagingNext (b : Nat) (m : List Host.Cell) (d : Dev) : Dev :=
  if streams d ∧ !d.cur.stopped ∧ (saveBlocks d).contains b then
    (match streamNext m b d with
     | some (_, d) => d
     | none => d)
  else stagingStart b m d

theorem stagingNext_of_ne {b : Nat} {m : List Host.Cell} {d : Dev} (h : d.chp.mode ≠ .curtain) :
    stagingNext b m d = stagingStart b m d := by
  have off : streams d = false := by simp [streams, h]
  simp [stagingNext, off]

theorem stagingStart_idle {b : Nat} {m : List Host.Cell} {d : Dev} (h : canStage d b = false) :
    stagingStart b m d = d := by
  simp [stagingStart, h]

section
variable {b : Nat} {m : List Host.Cell} {d : Dev} (hm : d.chp.mode.admits = true ∨ d.chp.mode = .service)
include hm

theorem stagingStart_eq (hs : canStage d b = true) :
    stagingStart b m d = stageHeld m b .stage (stagingOrder (updateShortfall d) b) (updateShortfall d) := by
  have runs : stagingRuns d = true := by
    obtain h | h := hm <;> simp [stagingRuns, h]
  have chp : (updateShortfall d).chp = d.chp := facet_updateShortfall (q := .chp) d
  have mode : (updateShortfall d).chp.mode ≠ .writeThrough := by
    rw [chp]
    rintro h
    simp [h, Mode.admits] at hm
  simp [stagingStart, runs, hs, mode]

theorem mode_ne_curtain_of_staging : d.chp.mode ≠ .curtain := by
  rintro h
  simp [h, Mode.admits] at hm

end

theorem stageHeld_eq {m : List Host.Cell} {b id : Nat} {kind : RKind} {xs rest : List Extent} {x : Extent} {d e : Dev}
    (hx : xs.filter (fun y => !inFlight d y && (encryptSlot d y.fn).isSome) = x :: rest)
    (h : startRecord m b kind x.fn
      ((sortBy Extent.ht (packPrefix d x.fn (x.hidx, x.epochId) (4 * mib) (x :: rest))).flatMap
        (fun y => runsOf y (ownUnstaged d y) false 0)) false 0 (x.hidx, x.epochId) d = some (id, e)) :
    stageHeld m b kind xs d = e := by
  simp only [stageHeld, hx, h]

end Sys2Proof.Machine
end

section
/-!
PROOFS. A record counts written (R20, R77): its head, and the pages that it stages.
-/

namespace Sys2Proof.Machine

/-! ### Records found by their identifier -/

theorem findRec_updRec_same {id : Nat} {g : Rec → Rec} (hg : ∀ r, (g r).id = r.id) (d : Dev) :
    findRec (updRec id g d) id = (findRec d id).map g := by
  show (d.flash.records.map _).find? _ = (d.flash.records.find? _).map g
  induction d.flash.records with
  | nil => rfl
  | cons r rs ih => by_cases h : r.id = id <;> simp [h, hg, ih]

theorem id_of_findRec {d : Dev} {id : Nat} {r : Rec} (h : findRec d id = some r) : r.id = id := by
  simpa using List.find?_some h

theorem findRec_eq_of_records {d e : Dev} (h : e.flash.records = d.flash.records) (id : Nat) :
    findRec e id = findRec d id := congrArg (List.find? fun r : Rec => r.id = id) h

/-- Records added behind the others change no record that is found. -/
theorem findRec_of_append {d e : Dev} {rs : List Rec} {id : Nat} {q : Rec}
    (h : e.flash.records = d.flash.records ++ rs) (hq : findRec d id = some q) : findRec e id = some q := by
  have found : d.flash.records.find? (fun r => r.id = id) = some q := hq
  rw [findRec, h, List.find?_append, found, Option.some_or]

/-! ### The parts of a record's count -/

/-- A WRITE_THROUGH hold whose record counts written is committed, or ends. -/
def holdEnded (r : Rec) (d : Dev) : Dev := if r.handle = 0 then d else wtCommit r d

/-- In WRITE_THROUGH, blocks with nothing unstaged are marked safe. -/
def markedSafe (d : Dev) : Dev :=
  if d.chp.mode = .writeThrough then (blockList d).foldl (fun d b => safeMark b d) d else d

section
variable {id : Nat} {r : Rec} {d : Dev} (hr : findRec d id = some r)
include hr

theorem recordWritten_eq (hw : r.written = false) (hp : placeWorks d r.cell r.target = true ∨ r.bytes = 0) :
    recordWritten id d =
      countsChanged (markedSafe (noteWritten id (holdEnded r (curtainSaved r (countWritten r d))))) := by
  have guard : ¬ (!placeWorks d r.cell r.target && r.bytes ≠ 0) := by
    obtain h | h := hp <;> simp [h]
  simp only [recordWritten, hr, hw, Bool.false_eq_true, if_false]
  rw [if_neg guard]
  rfl

theorem recordWritten_stranded (hw : r.written = false) (hb : r.bytes ≠ 0)
    (hp : placeWorks d r.cell r.target = false) : recordWritten id d = d := by
  simp [recordWritten, hr, hw, hb, hp]

theorem recordWritten_moved {p : Nat × Nat × Nat × Nat} (hw : r.written = true) (hm : r.moving = some p)
    (hpos : p.2.2.1 < 200) (hp : placeWorks d p.1 p.2.1 = true) :
    recordWritten id d = countsChanged (copyWritten r p d) := by
  simp [recordWritten, hr, hw, hm, hpos, hp]

theorem recordWritten_again (hw : r.written = true) (hm : r.moving = none) : recordWritten id d = d := by
  simp [recordWritten, hr, hw, hm]

end

theorem recordWritten_absent {id : Nat} {d : Dev} (h : findRec d id = none) : recordWritten id d = d := by
  simp [recordWritten, h]

/-- SERVICE is not entered where nothing waits for it. -/
theorem serviceReady_idle {d : Dev} (h : d.svc.entering = 0) : serviceReady d = d := by
  simp [serviceReady, h]

/-! ### The mode stands -/

theorem facet_curtainSaved {q : Facet} (r : Rec) (d : Dev) : (curtainSaved r d).facet q = d.facet q := by
  unfold curtainSaved
  split
  · split <;> simp
  · split <;> simp
  · rfl
  · rfl

theorem facet_noteWritten {q : Facet} (id : Nat) (d : Dev) : (noteWritten id d).facet q = d.facet q := by
  refine facet_foldl (fun e x => ?_) _ _
  dsimp only
  split <;> simp

theorem facet_holdEnded_chp (r : Rec) (d : Dev) : (holdEnded r d).facet .chp = d.facet .chp := by
  unfold holdEnded wtCommit emptyRecord
  split
  · rfl
  · split
    · split
      · simp
      · split <;> simp
    · simp

theorem facet_markedSafe_chp (d : Dev) : (markedSafe d).facet .chp = d.facet .chp := by
  simp [markedSafe]

theorem facet_countWritten_chp (r : Rec) (d : Dev) : (countWritten r d).facet .chp = d.facet .chp := by
  simp [countWritten]

/-! ### The record -/

/-- Record `id` counts written since `ht`. -/
def Dev.countedAt (id ht : Nat) (d : Dev) : Prop := ∃ q, findRec d id = some q ∧ q.written = true ∧ q.writeHt = ht

theorem countedAt_of_append {id ht : Nat} {d e : Dev} {rs : List Rec} (h : e.flash.records = d.flash.records ++ rs)
    (hd : d.countedAt id ht) : e.countedAt id ht := by
  obtain ⟨q, hq, stands⟩ := hd
  exact ⟨q, findRec_of_append h hq, stands⟩

theorem countedAt_of_flash {id ht : Nat} {d e : Dev} (h : e.facet .flash = d.facet .flash) (hd : d.countedAt id ht) :
    e.countedAt id ht :=
  countedAt_of_append (rs := []) (by rw [List.append_nil]; exact Dev.records_eq_of_flash h) hd

theorem countedAt_updRec {id ht : Nat} {g : Rec → Rec} {d : Dev}
    (hg : ∀ r, (g r).id = r.id ∧ (g r).written = r.written ∧ (g r).writeHt = r.writeHt) (hd : d.countedAt id ht) :
    (updRec id g d).countedAt id ht := by
  obtain ⟨q, hq, hw, hh⟩ := hd
  obtain ⟨-, written, writeHt⟩ := hg q
  exact ⟨g q, by rw [findRec_updRec_same fun r => (hg r).1, hq]; rfl, written.trans hw, writeHt.trans hh⟩

/-- A record as it counts written at `ht`. -/
def Rec.counted (ht : Nat) (r : Rec) : Rec := { r with written := true, writeHt := ht }

theorem records_countWritten (r : Rec) (d : Dev) :
    (countWritten r d).flash.records = (updRec r.id (Rec.counted d.tmb.ht) d).flash.records := by
  unfold countWritten
  rw [records_closeUnits, records_journalBoth]
  refine Dev.records_eq_of_flash ?_
  simp only [facet_markStaged, facet_cipherDone, facet_trace, facet_countBlk, facet_countCell, ne_eq, reduceCtorEq,
    not_false_eq_true]
  rfl

theorem countedAt_countWritten {id : Nat} {r : Rec} {d : Dev} (h : findRec d id = some r) :
    (countWritten r d).countedAt id d.tmb.ht := by
  refine ⟨r.counted d.tmb.ht, ?_, rfl, rfl⟩
  rw [findRec_eq_of_records (records_countWritten r d), id_of_findRec h]
  exact (findRec_updRec_same (g := Rec.counted d.tmb.ht) (fun _ => rfl) d).trans
    (congrArg (Option.map (Rec.counted d.tmb.ht)) h)

theorem countedAt_holdEnded {id ht : Nat} {r : Rec} {d : Dev} (hr : r.id = id) (hd : d.countedAt id ht) :
    (holdEnded r d).countedAt id ht := by
  have emptied : (emptyRecord r.id d).countedAt id ht := by
    rw [hr]
    exact countedAt_updRec (fun _ => ⟨rfl, rfl, rfl⟩) hd
  unfold holdEnded
  split
  · exact hd
  unfold wtCommit
  split
  · split
    · exact countedAt_of_flash (facet_refuse ..) emptied
    split
    · exact emptied
    · refine countedAt_of_flash (facet_commitHold (q := .flash) nofun ..) ?_
      rw [hr]
      exact countedAt_updRec (fun _ => ⟨rfl, rfl, rfl⟩) hd
  · exact emptied

theorem countedAt_markedSafe {id ht : Nat} {d : Dev} (hd : d.countedAt id ht) : (markedSafe d).countedAt id ht := by
  have marked (kind : RKind) (mask b : Nat) (e : Dev) (he : e.countedAt id ht) :
      (mark kind mask b e).countedAt id ht := by
    unfold mark
    split
    · exact countedAt_of_append (by simp only [headOnly, if_true, records_journalBoth]; rfl) he
    · exact he
  unfold markedSafe
  split
  · refine List.foldlRecOn _ _ hd fun e he b _ => ?_
    unfold safeMark
    split
    · exact marked _ _ _ _ he
    · exact he
  · exact hd

theorem countedAt_recordWritten {id : Nat} {r : Rec} {d : Dev} (hr : findRec d id = some r) (hw : r.written = false)
    (hp : placeWorks d r.cell r.target = true ∨ r.bytes = 0) : (recordWritten id d).countedAt id d.tmb.ht := by
  rw [recordWritten_eq hr hw hp]
  have counted := countedAt_of_flash (facet_curtainSaved r _) (countedAt_countWritten hr)
  have ended := countedAt_of_flash (facet_noteWritten id _) (countedAt_holdEnded (id_of_findRec hr) counted)
  exact countedAt_of_flash (facet_countsChanged (q := .flash) nofun _) (countedAt_markedSafe ended)

theorem facet_recordWritten_chp {id : Nat} {r : Rec} {d : Dev} (hr : findRec d id = some r) (hw : r.written = false)
    (hp : placeWorks d r.cell r.target = true ∨ r.bytes = 0) : (recordWritten id d).facet .chp = d.facet .chp := by
  rw [recordWritten_eq hr hw hp, facet_countsChanged (q := .chp) nofun, facet_markedSafe_chp, facet_noteWritten,
    facet_holdEnded_chp, facet_curtainSaved, facet_countWritten_chp]

/-! ### The pages that a record stages -/

/-- A fold reaches what one of its steps brings about and none takes away, where every step keeps what that step
needs. -/
theorem foldl_reaches {α : Type} {f : Dev → α → Dev} {I Q : Dev → Prop} (hI : ∀ e a, I e → I (f e a))
    (hQ : ∀ e a, Q e → Q (f e a)) {a : α} (ha : ∀ e, I e → Q (f e a)) {l : List α} (hl : a ∈ l) {d : Dev} (hd : I d) :
    Q (l.foldl f d) := by
  obtain ⟨before, after, rfl⟩ := List.append_of_mem hl
  rw [List.foldl_append, List.foldl_cons]
  have reached := ha _ (List.foldlRecOn before f hd fun e he b _ => hI e b he)
  exact List.foldlRecOn after f reached fun e he b _ => hQ e b he

/-- Whether a run stages a page rests on that page and the extents. -/
theorem stagesPage_eq {d e : Dev} {p : Nat} (hp : getPage e p = getPage d p) (hx : e.exts = d.exts) (run : Run) :
    stagesPage e run p = stagesPage d run p := by
  simp only [stagesPage, hp, hx]

/-- A page leaves the unstaged counts, where the run stages it. -/
def stagePage (id : Nat) (run : Run) (d : Dev) (p : Nat) : Dev :=
  if stagesPage d run p then
    updPage p (fun g => { g with unstaged := false, record := some id, restage := false, remainder := false }) d
  else d

theorem markStaged_eq (r : Rec) (d : Dev) :
    markStaged r d = r.runs.foldl (fun d run => (runPageList run).foldl (stagePage r.id run) d) d := rfl

/-- `e` is `d` with pages staged and no other page changed; the extents stand. -/
def Dev.StagedFrom (d e : Dev) : Prop :=
  e.exts = d.exts ∧ ∀ p, getPage e p = getPage d p ∨ (getPage e p).unstaged = false

theorem stagedFrom_stagePage {id p : Nat} {run : Run} {d e : Dev} (h : d.StagedFrom e) :
    d.StagedFrom (stagePage id run e p) := by
  obtain ⟨exts, pages⟩ := h
  unfold stagePage
  split
  · refine ⟨exts, fun q => ?_⟩
    rw [getPage_updPage]
    split
    · exact .inr rfl
    · exact pages q
  · exact ⟨exts, pages⟩

theorem unstaged_stagePage {id p q : Nat} {run : Run} {e : Dev} (h : (getPage e q).unstaged = false) :
    (getPage (stagePage id run e p) q).unstaged = false := by
  unfold stagePage
  split
  · rw [getPage_updPage]
    split
    · rfl
    · exact h
  · exact h

/-- The step of a page that the run stages takes it out of the counts, whatever was staged before. -/
theorem unstaged_stagePage_same {id p : Nat} {run : Run} {d e : Dev} (h : d.StagedFrom e)
    (hp : stagesPage d run p = true) : (getPage (stagePage id run e p) p).unstaged = false := by
  obtain ⟨exts, pages⟩ := h
  obtain same | gone := pages p
  · simp [stagePage, stagesPage_eq same exts run, hp]
  · exact unstaged_stagePage gone

theorem unstaged_markStaged {r : Rec} {d : Dev} {run : Run} {p : Nat} (hrun : run ∈ r.runs)
    (hp : p ∈ runPageList run) (hs : stagesPage d run p = true) : (getPage (markStaged r d) p).unstaged = false := by
  have staged (g : Run) (e : Dev) (he : d.StagedFrom e) : d.StagedFrom ((runPageList g).foldl (stagePage r.id g) e) :=
    List.foldlRecOn _ _ he fun _ hb _ _ => stagedFrom_stagePage hb
  have gone (g : Run) (e : Dev) (he : (getPage e p).unstaged = false) :
      (getPage ((runPageList g).foldl (stagePage r.id g) e) p).unstaged = false :=
    List.foldlRecOn (motive := fun e => (getPage e p).unstaged = false) _ _ he fun _ hb _ _ => unstaged_stagePage hb
  rw [markStaged_eq]
  refine foldl_reaches (I := d.StagedFrom) (Q := fun e => (getPage e p).unstaged = false) (fun e g => staged g e)
    (fun e g => gone g e) (a := run) (fun e he => ?_) hrun ⟨rfl, fun _ => .inl rfl⟩
  exact foldl_reaches (f := stagePage r.id run) (I := d.StagedFrom) (Q := fun e => (getPage e p).unstaged = false)
    (fun _ _ => stagedFrom_stagePage) (fun _ _ => unstaged_stagePage) (fun _ he => unstaged_stagePage_same he hs) hp he

/-- Where no hold can commit, a change of the counts leaves every page. -/
theorem pages_countsChanged {d : Dev} (h : d.chp.mode = .curtain ∨ d.chp.mode = .service) :
    (countsChanged d).pages = d.pages := by
  have chp : (updatePressure (updateShortfall d)).chp = d.chp :=
    (facet_updatePressure (q := .chp) _).trans (facet_updateShortfall d)
  have idle : evaluateWaiting (updatePressure (updateShortfall d))
      = updateReclaim (updatePressure (updateShortfall d)) := by
    obtain h | h := h <;> simp [evaluateWaiting, chp, h, Mode.admits]
  refine Dev.pages_eq_of_facet ?_
  rw [countsChanged, idle]
  simp

theorem exts_settleSlot (s : Nat) (d : Dev) : (settleSlot s d).exts = d.exts := by
  have wiped (e : Dev) : (wipeSlot s e).exts = e.exts := rfl
  dsimp only [settleSlot]
  rw [apply_ite Dev.exts, wiped, ite_self]
  split
  · split
    · rfl
    · exact (reports_trace ..).exts_eq
  · rfl

/-- What a record's count does before it takes up the pages: they stand, and so do the extents. -/
theorem countWritten_eq (r : Rec) (d : Dev) : ∃ e : Dev,
    countWritten r d = closeUnits (journalBoth r.cell r.id (markStaged r e)) ∧ e.pages = d.pages ∧ e.exts = d.exts := by
  refine ⟨_, rfl, Dev.pages_eq_of_facet (by simp), ?_⟩
  have ciphered (e : Dev) : (cipherDone r.block r.id e).exts = e.exts := by
    unfold cipherDone
    split
    · rfl
    · exact exts_settleSlot ..
  exact (ciphered _).trans ((reports_trace ..).exts_eq.trans ((reports_countBlk ..).exts_eq.trans
    ((reports_countCell ..).exts_eq)))

theorem unstaged_countWritten {r : Rec} {d : Dev} {run : Run} {p : Nat} (hrun : run ∈ r.runs)
    (hp : p ∈ runPageList run) (hs : stagesPage d run p = true) : (getPage (countWritten r d) p).unstaged = false := by
  obtain ⟨e, he, pages, exts⟩ := countWritten_eq r d
  have stages : stagesPage e run p = true := by
    rw [← hs]
    exact stagesPage_eq (by rw [getPage, pages, getPage]) exts run
  have kept : (countWritten r d).pages = (markStaged r e).pages := by
    rw [he]
    exact Dev.pages_eq_of_facet (by simp)
  rw [getPage, kept]
  exact unstaged_markStaged hrun hp stages

/-- In CURTAIN and SERVICE, no page that the record stages stays unstaged. -/
theorem unstaged_recordWritten {id : Nat} {r : Rec} {d : Dev} (hr : findRec d id = some r) (hw : r.written = false)
    (hplace : placeWorks d r.cell r.target = true ∨ r.bytes = 0)
    (hm : d.chp.mode = .curtain ∨ d.chp.mode = .service) (hh : r.handle = 0) {run : Run} {p : Nat}
    (hrun : run ∈ r.runs) (hp : p ∈ runPageList run) (hs : stagesPage d run p = true) :
    (getPage (recordWritten id d) p).unstaged = false := by
  have chp : (noteWritten id (curtainSaved r (countWritten r d))).chp = d.chp :=
    (facet_noteWritten (q := .chp) id _).trans ((facet_curtainSaved r _).trans (facet_countWritten_chp r d))
  have unmarked : markedSafe (noteWritten id (curtainSaved r (countWritten r d)))
      = noteWritten id (curtainSaved r (countWritten r d)) := by
    obtain h | h := hm <;> simp [markedSafe, chp, h]
  have pages : (recordWritten id d).pages = (countWritten r d).pages := by
    rw [recordWritten_eq hr hw hplace, holdEnded, if_pos hh, unmarked, pages_countsChanged (by rwa [chp])]
    exact (facet_noteWritten (q := .pages) id _).trans (facet_curtainSaved r _)
  rw [getPage, pages]
  exact unstaged_countWritten hrun hp hs

end Sys2Proof.Machine
end

section
/-!
PROOFS. A program fails (R20, R314): its unit is retired, and its record goes elsewhere or is given up (O24).
-/

namespace Sys2Proof.Machine

/-! ### Staging records found by their identifier -/

/-- The first staging record of an identifier, where no other record stands before it. -/
theorem find_stagedOf {rs : List Rec} {id : Nat} {q : Rec} (hq : rs.find? (fun r => r.id = id) = some q)
    (hk : q.kind = .stage) : (stagedOf rs).find? (fun k => k.1 = id) = some q.stageKey := by
  induction rs with
  | nil => cases hq
  | cons r rs ih =>
    by_cases h : r.id = id
    · obtain rfl : r = q := by simpa [h] using hq
      simp [stagedOf, hk, h]
    · have rest := ih (by simpa [h] using hq)
      rw [stagedOf] at rest
      by_cases hs : r.kind = .stage <;> simp [stagedOf, hs, h, rest]

/-- None stands where the records of the identifier have been erased. -/
theorem find_stagedOf_erased (rs : List Rec) (id : Nat) :
    (stagedOf (rs.filter (fun r => r.id ≠ id))).find? (fun k => k.1 = id) = none := by
  simp [stagedOf, List.find?_eq_none]

/-! ### A record is given up, or its program issued again -/

theorem records_giveUp (r : Rec) (d : Dev) :
    (giveUp r d).flash.records = d.flash.records.filter (fun q => q.id ≠ r.id) := by
  refine Dev.records_eq_of_flash
    (d := { d with flash := { d.flash with records := d.flash.records.filter (fun q => q.id ≠ r.id) } }) ?_
  simp only [giveUp]
  split
  · exact facet_cipherDone ..
  · simp

theorem staged_eq_of_facet {d e : Dev} (h : e.facet .staged = d.facet .staged) :
    stagedOf e.flash.records = stagedOf d.flash.records := h

/-- A record at another place. -/
def Rec.movedTo (q : Nat × Nat × Nat × Nat) (r : Rec) : Rec :=
  { r with cell := q.1, target := q.2.1, position := q.2.2.1, segment := q.2.2.2 }

theorem reissueRoom_spec {r : Rec} {c t : Nat} {d e : Dev} {p : Nat × Nat × Nat × Nat}
    (h : reissueRoom r c t d = some (p, e)) : e.flash.records = d.flash.records ∧ d.standing p := by
  obtain ⟨k, -, hk⟩ := List.exists_of_findSome?_eq_some h
  exact takeRoomOn_spec hk

/-- A body issued again: of what stands staged, only its own place is another. -/
theorem facet_reissue_staged {id : Nat} {r : Rec} {d e : Dev} {p : Nat × Nat × Nat × Nat} (hr : findRec d id = some r)
    (hw : r.written = false) (hm : r.moving = none) (hb : r.bytes ≠ 0)
    (hroom : reissueRoom r r.cell r.target d = some (p, e)) :
    (reissue id d).facet .staged = (updRec id (Rec.movedTo p) e).facet .staged := by
  have hc := @facet_drawCredit .staged
  have hmoved : Rec.movedTo p = fun r => { r with
    cell := p.1, target := p.2.1, position := p.2.2.1, segment := p.2.2.2 } := rfl
  unfold reissue
  generalize drawCredit = credit at hc ⊢
  revert credit
  refine keep_general ?_
  intro credit hc
  simp only [hr, hm, hb, hroom, hw, hmoved, Bool.false_eq_true, if_false]
  split
  · rw [facet_appendAnchor (q := .staged) nofun, hc]
  · rw [hc]

/-- A staging record not yet written, once its program has failed: it is at a place that stands, or given up. -/
theorem staged_reissue {id : Nat} {r : Rec} {d : Dev} (hr : findRec d id = some r) (hk : r.kind = .stage)
    (hw : r.written = false) (hm : r.moving = none) (hb : r.bytes ≠ 0) :
    (∃ p, d.standing p ∧ (stagedOf (reissue id d).flash.records).find? (fun k => k.1 = id)
        = some (r.movedTo p).stageKey)
      ∨ (stagedOf (reissue id d).flash.records).find? (fun k => k.1 = id) = none := by
  cases hroom : reissueRoom r r.cell r.target d with
  | none =>
    right
    have given : reissue id d = giveUp r d := by simp [reissue, hr, hm, hb, hw, hroom]
    rw [given, records_giveUp, id_of_findRec hr]
    exact find_stagedOf_erased ..
  | some found =>
    obtain ⟨p, e⟩ := found
    obtain ⟨records, standing⟩ := reissueRoom_spec hroom
    left
    refine ⟨p, standing, ?_⟩
    have moved : findRec (updRec id (Rec.movedTo p) e) id = some (r.movedTo p) := by
      rw [findRec_updRec_same (g := Rec.movedTo p) fun _ => rfl, findRec_eq_of_records records, hr]
      rfl
    rw [staged_eq_of_facet (facet_reissue_staged hr hw hm hb hroom)]
    exact find_stagedOf moved hk

/-! ### A program's failure -/

/-- A failure counted, and the unit retired where a body was to go there. -/
def failRetired (r : Rec) (c t pos : Nat) (d : Dev) : Dev :=
  if r.bytes = 0 then countCell c 6 1 d else retireUnit c t pos (countCell c 6 1 d)

/-- What a failure does before its record's program goes elsewhere: it is counted on its target too, and said. -/
def failNoted (r : Rec) (c t pos : Nat) (d : Dev) : Dev :=
  raiseFault { code := 0x0103, level := 1, island := c, severity := 1, target := t, unit := pos }
    (curtainFault (updCell c (fun k => { k with fails := Tab.upd 0 k.fails t (fun n => satAdd 16 n 1) })
      (failRetired r c t pos d)))

/-- A failed program is issued again, or its copy given up. -/
def programAgain (id pos : Nat) (d : Dev) : Dev :=
  if pos < 200 then reissue id d
  else updRec id (fun r => { r with moving := none, tlc := if r.tlcVerified then r.tlc else none }) d

section
variable (r : Rec) (c t pos : Nat) (d : Dev)

theorem flash_failNoted : (failNoted r c t pos d).flash = (failRetired r c t pos d).flash := by
  have noted (e : Dev) : (curtainFault e).flash = e.flash := facet_curtainFault (q := .flash) nofun e
  rw [failNoted, (reports_raiseFault ..).flash_eq, noted]
  rfl

theorem records_failNoted : (failNoted r c t pos d).flash.records = d.flash.records := by
  rw [flash_failNoted, failRetired]
  split <;> rfl

theorem retired_failNoted : (failNoted r c t pos d).flash.retired
    = if r.bytes = 0 then d.flash.retired else (c, t, pos) :: d.flash.retired := by
  rw [flash_failNoted, failRetired]
  split <;> rfl

theorem fails_failNoted : Tab.get 0 (getCell (failNoted r c t pos d) c).fails t
    = satAdd 16 (Tab.get 0 (getCell d c).fails t) 1 := by
  have retired : getCell (failRetired r c t pos d) c = getCell d c := by
    unfold failRetired
    split <;> exact getCell_countCell c 6 1 d c
  simp [failNoted, retired]

theorem faultFlag_failNoted (h : d.chp.mode = .curtain) : (failNoted r c t pos d).cur.faultFlag = true := by
  rw [failNoted, (reports_raiseFault ..).cur_eq]
  refine faultFlag_curtainFault ?_
  show (failRetired r c t pos d).chp.mode = .curtain
  unfold failRetired
  split <;> exact h

end

theorem programFail_eq {id c t pos : Nat} {r : Rec} {d : Dev} (hr : findRec d id = some r)
    (hf : failingUnit r = some (c, t, pos)) :
    programFail id d = recomputeNow (programAgain id pos (failNoted r c t pos d)) := by
  simp only [programFail, hr, hf]
  rfl

theorem programFail_idle {id : Nat} {r : Rec} {d : Dev} (hr : findRec d id = some r) (hf : failingUnit r = none) :
    programFail id d = d := by
  simp [programFail, hr, hf]

theorem facet_programAgain {q : Facet} (hq : q ≠ .flash ∧ q ≠ .staged) (id pos : Nat) (d : Dev) :
    (programAgain id pos d).facet q = d.facet q := by
  simp [programAgain, hq]

section
variable {id c t pos : Nat} {r : Rec} {d : Dev} (hr : findRec d id = some r) (hf : failingUnit r = some (c, t, pos))
include hr hf

/-- What the failure notes stands, whatever becomes of the record. -/
theorem facet_programFail {q : Facet} (hq : q ≠ .chp ∧ q ≠ .flash ∧ q ≠ .pages) (hs : q ≠ .staged) :
    (programFail id d).facet q = (failNoted r c t pos d).facet q := by
  rw [programFail_eq hr hf, facet_recomputeNow hq, facet_programAgain ⟨hq.2.1, hs⟩]

theorem retired_programFail : (programFail id d).flash.retired
    = if r.bytes = 0 then d.flash.retired else (c, t, pos) :: d.flash.retired :=
  (facet_programFail hr hf (q := .retired) (by decide) nofun).trans (retired_failNoted ..)

theorem fails_programFail : Tab.get 0 (getCell (programFail id d) c).fails t
    = satAdd 16 (Tab.get 0 (getCell d c).fails t) 1 := by
  rw [getCell_eq_of_cells (facet_programFail hr hf (by decide) nofun), fails_failNoted]

theorem faultFlag_programFail (h : d.chp.mode = .curtain) : (programFail id d).cur.faultFlag = true :=
  (congrArg Prod.fst (facet_programFail hr hf (q := .marks) (by decide) nofun)).trans (faultFlag_failNoted r c t pos d h)

/-- A staging record not yet written stays unwritten, in a unit that no program has failed in. -/
theorem staged_programFail (hb : r.bytes ≠ 0) (hk : r.kind = .stage) (hw : r.written = false) (hm : r.moving = none)
    (hpos : r.position < 200) {q : Rec} (hq : findRec (programFail id d) id = some q) (hqk : q.kind = .stage) :
    q.written = false ∧ (q.cell, q.target, q.position) ∉ (programFail id d).flash.retired := by
  obtain ⟨-, -, rfl⟩ : r.cell = c ∧ r.target = t ∧ r.position = pos := by simpa [failingUnit, hm, hw] using hf
  have noted : findRec (failNoted r c t r.position d) id = some r :=
    (findRec_eq_of_records (records_failNoted ..) id).trans hr
  have retired : (programFail id d).flash.retired = (failNoted r c t r.position d).flash.retired :=
    facet_programFail hr hf (q := .retired) (by decide) nofun
  have staged : stagedOf (programFail id d).flash.records
      = stagedOf (reissue id (failNoted r c t r.position d)).flash.records := by
    rw [programFail_eq hr hf, programAgain, if_pos hpos]
    exact staged_eq_of_facet (facet_recomputeNow (by decide) _)
  have found := find_stagedOf hq hqk
  rw [staged] at found
  obtain ⟨p, standing, place⟩ | gone := staged_reissue noted hk hw hm hb
  · have key : q.stageKey = (r.movedTo p).stageKey := Option.some.inj (found.symm.trans place)
    simp only [Rec.stageKey, Rec.movedTo, Prod.mk.injEq] at key
    obtain ⟨-, written, cell, target, position⟩ := key
    rw [written, cell, target, position, retired]
    exact ⟨hw, standing⟩
  · rw [gone] at found
    cases found

end

/-! ### The copy that cleaning made -/

/-- A record whose copy is its place from now on. -/
def Rec.copied (p : Nat × Nat × Nat × Nat) (r : Rec) : Rec :=
  { r with
    cell := p.1, target := p.2.1, position := p.2.2.1, segment := p.2.2.2, moving := none
    slc := true, readable := true, authentic := true, tlc := none, tlcVerified := false }

theorem findRec_copyWritten {id : Nat} {r : Rec} {p : Nat × Nat × Nat × Nat} {d : Dev} (hr : findRec d id = some r) :
    findRec (countsChanged (copyWritten r p d)) id = some (r.copied p) := by
  have flash : (countsChanged (copyWritten r p d)).facet .flash = (copyWritten r p d).facet .flash :=
    facet_countsChanged (q := .flash) nofun _
  have records : (copyWritten r p d).flash.records = (updRec r.id (Rec.copied p) d).flash.records := by
    unfold copyWritten
    rw [records_closeUnits, records_journalBoth]
    rfl
  rw [findRec_eq_of_records ((Dev.records_eq_of_flash flash).trans records), id_of_findRec hr]
  exact (findRec_updRec_same (g := Rec.copied p) (fun _ => rfl) d).trans (congrArg (Option.map (Rec.copied p)) hr)

/-! ### The obligation -/

/-- What RECORD_COUNTED_WRITTEN does, where SERVICE is not being entered. -/
theorem serviceReady_recordWritten {id : Nat} {d : Dev} (h : d.svc.entering = 0) :
    serviceReady (recordWritten id d) = recordWritten id d := by
  refine serviceReady_idle ?_
  rw [show (recordWritten id d).svc = d.svc from part_recordWritten (q := .svc) nofun id d, h]

/-- Settles O24. -/
theorem stagingRecords : Obligations.StagingRecords := by
  refine ⟨fun b s x rest id e hm hs hx h => ?_, fun b s hm hs => ?_,
    fun id s r hr hw hp hsvc => ?_, fun id s r p hr hw hm hpos hp hsvc => ?_, fun id s r hr hw hm hsvc => ?_,
    fun id s r hr hw hb hp hsvc => ?_, fun id s hr hsvc => ?_, fun id c k p s r hr hf hb => ?_,
    fun id c k p s r hr hf hb => ?_, fun id s r hr hf => onDev_idle (programFail_idle hr hf)⟩
  · obtain ⟨t, ht, ho, hd⟩ := onDevReading_next (stagingNext b) s
    rw [stagingNext_of_ne (mode_ne_curtain_of_staging hm), stagingStart_eq hm hs, stageHeld_eq hx h] at hd
    obtain ⟨r, records, pages, stands⟩ := startRecord_spec h
    have before : (updateShortfall s.dev).flash.records = s.dev.flash.records :=
      Dev.records_eq_of_flash (facet_updateShortfall ..)
    refine ⟨t, ht, ho, hd, ?_⟩
    rw [hd, records, pages, before]
    refine ⟨by simp, facet_updateShortfall (q := .pages) .., fun q hq => ?_⟩
    obtain rfl : r = q := by simpa using hq
    exact stands
  · have idle : stagingNext b s.dram s.dev = s.dev := (stagingNext_of_ne hm).trans (stagingStart_idle hs)
    exact congrArg (fun d => Host.Outcome.next { s with dev := d }) idle
  · obtain ⟨t, ht, ho, hd⟩ := onDev_next (fun d => serviceReady (recordWritten id d)) s
    rw [serviceReady_recordWritten hsvc] at hd
    refine ⟨t, ht, ho, ?_⟩
    rw [hd]
    exact ⟨congrArg Chp.mode (facet_recordWritten_chp hr hw hp), countedAt_recordWritten hr hw hp,
      fun hm hh g hg p hpg hst => unstaged_recordWritten hr hw hp hm hh hg hpg hst⟩
  · obtain ⟨t, ht, ho, hd⟩ := onDev_next (fun d => serviceReady (recordWritten id d)) s
    rw [serviceReady_recordWritten hsvc, recordWritten_moved hr hw hm hpos hp] at hd
    exact ⟨t, ht, ho, r.copied p, hd ▸ findRec_copyWritten hr, rfl, rfl⟩
  · refine onDev_idle (f := fun d => serviceReady (recordWritten id d)) ?_
    rw [serviceReady_recordWritten hsvc, recordWritten_again hr hw hm]
  · refine onDev_idle (f := fun d => serviceReady (recordWritten id d)) ?_
    rw [serviceReady_recordWritten hsvc, recordWritten_stranded hr hw hb hp]
  · refine onDev_idle (f := fun d => serviceReady (recordWritten id d)) ?_
    rw [serviceReady_recordWritten hsvc, recordWritten_absent hr]
  · obtain ⟨t, ht, ho, hd⟩ := onDev_next (programFail id) s
    refine ⟨t, ht, ho, ?_⟩
    rw [hd]
    exact ⟨(retired_programFail hr hf).trans (if_neg hb), fails_programFail hr hf, faultFlag_programFail hr hf,
      fun hk hw hm hpos q hq hqk => staged_programFail hr hf hb hk hw hm hpos hq hqk⟩
  · obtain ⟨t, ht, ho, hd⟩ := onDev_next (programFail id) s
    refine ⟨t, ht, ho, ?_⟩
    rw [hd]
    exact ⟨(retired_programFail hr hf).trans (if_pos hb), fails_programFail hr hf⟩

end Sys2Proof.Machine
end

section
/-!
PROOFS. The work of admission (R34, R75, R80 to R84): what a change of the counts leaves alone, and what rows 16 to 19
of Table 2.3 do besides.
-/

namespace Sys2Proof.Machine

/-! ### Changes of the flash image and of blocks alone -/

/-- `e` is `d` with the flash image and blocks changed, and reports added. -/
def Dev.ImageOnly (d e : Dev) : Prop := Dev.Reports { d with flash := e.flash, blk := e.blk } e

theorem Dev.ImageOnly.refl (d : Dev) : d.ImageOnly d := Dev.Reports.refl d

theorem Dev.ImageOnly.trans {d e a : Dev} (h : d.ImageOnly e) (g : e.ImageOnly a) : d.ImageOnly a :=
  ⟨g.bare.trans (congrArg (fun x : Dev => { x with flash := a.flash, blk := a.blk }) h.bare),
    fun f => (g.fns f).trans (h.fns f)⟩

theorem Dev.BlkOnly.imageOnly {d e : Dev} (h : d.BlkOnly e) : d.ImageOnly e := by
  have flash : e.flash = d.flash := h.flash_eq
  unfold Dev.ImageOnly
  rw [flash]
  exact h

theorem Dev.Reports.imageOnly {d e : Dev} (h : d.Reports e) : d.ImageOnly e := h.blkOnly.imageOnly

/-- What such a change leaves alone. -/
theorem Dev.ImageOnly.keep {α : Type} {d e : Dev} (h : d.ImageOnly e) (f : Dev → α) (hf : ∀ d, f d.bare = f d)
    (hi : ∀ (d : Dev) flash blk, f { d with flash, blk } = f d) : f e = f d :=
  (Dev.Reports.keep h f hf).trans (hi ..)

theorem imageOnly_foldl {α : Type} {f : Dev → α → Dev} (hf : ∀ e a, Dev.ImageOnly e (f e a)) (l : List α) (d : Dev) :
    d.ImageOnly (l.foldl f d) := by
  induction l generalizing d with
  | nil => exact .refl d
  | cons a l ih => exact (hf d a).trans (ih _)

theorem imageOnly_flash (d : Dev) (flash : Flash) : d.ImageOnly { d with flash } := Dev.Reports.refl _

theorem imageOnly_updBlk (b : Nat) (f : Blk → Blk) (d : Dev) : d.ImageOnly (updBlk b f d) :=
  (blkOnly_updBlk b f d).imageOnly

theorem imageOnly_newId (b : Nat) (d : Dev) : d.ImageOnly (newId b d).2 := imageOnly_updBlk ..

theorem imageOnly_addRec (r : Rec) (d : Dev) : d.ImageOnly (addRec r d) := imageOnly_flash ..

theorem imageOnly_updRec (id : Nat) (g : Rec → Rec) (d : Dev) : d.ImageOnly (updRec id g d) := imageOnly_flash ..

theorem imageOnly_renewJournal (c u : Nat) (full : Bool) (d : Dev) : d.ImageOnly (renewJournal c u full d) := by
  unfold renewJournal
  dsimp only
  split
  · exact .refl d
  · exact Dev.Reports.refl _

theorem imageOnly_journalAdd (c : Nat) (avoid : Option Nat) (h : JHead) (d : Dev) :
    d.ImageOnly (journalAdd c avoid h d).2 := by
  simp only [journalAdd]
  split
  · exact (imageOnly_renewJournal ..).trans (imageOnly_flash ..)
  · split <;> exact imageOnly_flash ..

theorem imageOnly_journalBoth (c id : Nat) (d : Dev) : d.ImageOnly (journalBoth c id d) :=
  (imageOnly_journalAdd ..).trans (imageOnly_journalAdd ..)

theorem imageOnly_closeUnits (d : Dev) : d.ImageOnly (closeUnits d) := imageOnly_flash ..

theorem imageOnly_drawCredit (b n : Nat) (d : Dev) : d.ImageOnly (drawCredit b n d) := by
  have debt (e : Dev) : e.ImageOnly (debtEvent b e) := by
    unfold debtEvent
    dsimp only
    split
    · exact (imageOnly_updBlk ..).trans (reports_postEvent ..).imageOnly
    · exact imageOnly_updBlk ..
  unfold drawCredit
  exact (imageOnly_updBlk ..).trans ((reports_countBlk ..).imageOnly.trans
    ((reports_countBlk ..).imageOnly.trans (debt _)))

section
variable {b pos id segs hl bytes : Nat} {cells : List Nat} {ok : Nat × Nat → Bool} {d e : Dev}
  {p : Nat × Nat × Nat × Nat}

theorem imageOnly_roomAt (h : roomAt b pos id segs hl cells ok d = some (p, e)) : d.ImageOnly e := by
  have opened (c t : Nat) (a : Dev) : a.ImageOnly (openUnit c t pos a) := by
    unfold openUnit
    split
    · exact .refl a
    · exact imageOnly_flash ..
  unfold roomAt at h
  simp only at h
  split at h
  · cases h
  · cases Option.some.inj h
    exact (imageOnly_flash ..).trans ((opened ..).trans ((imageOnly_flash ..).trans (imageOnly_updBlk ..)))

theorem imageOnly_openStripe (h : openStripe b d = some e) : d.ImageOnly e := by
  unfold openStripe at h
  split at h
  · rw [← Option.some.inj h]
    exact imageOnly_updBlk ..
  · cases h

theorem imageOnly_takeRoom (h : takeRoom b id bytes hl d = some (p, e)) : d.ImageOnly e := by
  unfold takeRoom takeRoomOn at h
  simp only at h
  split at h
  · next hr =>
    cases Option.some.inj h
    split at hr
    · exact imageOnly_roomAt hr
    · cases hr
  · split at h
    · next ho => exact (imageOnly_openStripe ho).trans (imageOnly_roomAt h)
    · cases h

end

theorem imageOnly_mark (kind : RKind) (mask b : Nat) (d : Dev) : d.ImageOnly (mark kind mask b d) := by
  unfold mark
  split
  · exact (imageOnly_newId ..).trans ((imageOnly_addRec ..).trans (imageOnly_journalBoth ..))
  · exact .refl d

theorem imageOnly_safeMark (b : Nat) (d : Dev) : d.ImageOnly (safeMark b d) := by
  unfold safeMark
  split
  · exact imageOnly_mark ..
  · exact .refl d

theorem imageOnly_exposeAll (d : Dev) : d.ImageOnly (exposeAll d) := imageOnly_foldl (fun _ _ => imageOnly_mark ..) _ d

theorem imageOnly_writePart (lb : Nat) (l : CallList) (part : Nat × Nat) (d : Dev) :
    d.ImageOnly (writePart lb l part d) := by
  unfold writePart
  simp only
  split
  · exact .refl d
  · next ht =>
    exact (imageOnly_takeRoom ht).trans ((imageOnly_newId ..).trans ((imageOnly_addRec ..).trans
      ((imageOnly_drawCredit ..).trans ((imageOnly_journalBoth ..).trans (imageOnly_closeUnits _)))))

/-! ### A change of the counts (R80, R83, R84, R92, R215) -/

/-- The device without what a change of the counts writes: reports and answers, the shortfall and the reclaim, pressure,
the stamps, pages and extents of commits, and the estimator. -/
def Dev.sansCounts (d : Dev) : Dev := { d.bareAll with
  adm := { d.adm with shortfall := 0, shortE := false, shortS := false, reclaim := [] }
  blk := [], tmb := {}, pages := [], exts := [], idx := {}, nextEid := 0, est := {} }

/-- A function's submission rings and its doorbell errors. -/
def FnSt.rings (s : FnSt) : Tab Ring × Nat := (s.sq, s.dbErrors)

/-- `e` is `d` after a change of the counts. -/
structure Dev.Recounts (d e : Dev) : Prop where
  rest : e.sansCounts = d.sansCounts
  rings : ∀ f, (getFn e f).rings = (getFn d f).rings

theorem Dev.Recounts.refl (d : Dev) : d.Recounts d := ⟨rfl, fun _ => rfl⟩

theorem Dev.Recounts.trans {d e a : Dev} (h : d.Recounts e) (g : e.Recounts a) : d.Recounts a :=
  ⟨g.rest.trans h.rest, fun f => (g.rings f).trans (h.rings f)⟩

theorem Dev.Recounts.keep {α : Type} {d e : Dev} (h : d.Recounts e) (f : Dev → α) (hf : ∀ d, f d.sansCounts = f d) :
    f e = f d := by rw [← hf e, h.rest, hf d]

theorem recounts_foldl {α : Type} {f : Dev → α → Dev} (hf : ∀ e a, Dev.Recounts e (f e a)) (l : List α) (d : Dev) :
    d.Recounts (l.foldl f d) := by
  induction l generalizing d with
  | nil => exact .refl d
  | cons a l ih => exact (hf d a).trans (ih _)

theorem rings_eq_of_fnCore {d e : Dev} {f : Nat} (h : e.fnCore f = d.fnCore f) :
    (getFn e f).rings = (getFn d f).rings := by
  show (e.fnCore f).rings = (d.fnCore f).rings
  rw [h]

theorem Dev.Answers.recounts {d e : Dev} (h : d.Answers e) : d.Recounts e :=
  ⟨h.keep Dev.sansCounts (fun _ => rfl), fun f => rings_eq_of_fnCore (h.fns f)⟩

theorem Dev.Reports.recounts {d e : Dev} (h : d.Reports e) : d.Recounts e := h.answers.recounts

theorem recounts_updBlk (b : Nat) (f : Blk → Blk) (d : Dev) : d.Recounts (updBlk b f d) := ⟨rfl, fun _ => rfl⟩

theorem recounts_updateShortfall (d : Dev) : d.Recounts (updateShortfall d) := by
  have noted (n : Nat) (e s : Bool) :
      d.Recounts { d with adm := { d.adm with shortfall := n, shortE := e, shortS := s } } := ⟨rfl, fun _ => rfl⟩
  unfold updateShortfall
  dsimp only
  split
  · exact (noted ..).trans ((reports_trace ..).trans (reports_postEvent ..)).recounts
  split
  · exact (noted ..).trans ((reports_trace ..).trans (reports_postEvent ..)).recounts
  · exact noted ..

theorem recounts_updateReclaim (d : Dev) : d.Recounts (updateReclaim d) := by
  have noted (now : List Nat) : d.Recounts { d with adm := { d.adm with reclaim := now } } := ⟨rfl, fun _ => rfl⟩
  unfold updateReclaim
  dsimp only
  split
  · exact (noted _).trans ((reports_trace ..).trans (reports_postEvent ..)).recounts
  split
  · exact (noted _).trans ((reports_trace ..).trans (reports_postEvent ..)).recounts
  · exact noted _

theorem recounts_updatePressure (d : Dev) : d.Recounts (updatePressure d) :=
  recounts_foldl (fun _ _ => recounts_updBlk ..) _ d

/-- The index follows the extents and leaves every ring. -/
theorem rings_insertEntry (d : Dev) (x : Extent) (f : Nat) : (getFn (insertEntry d x) f).rings = (getFn d f).rings := by
  unfold insertEntry
  split
  · rfl
  split
  · rfl
  · unfold placeEntry
    rw [getFn_updFn]
    split
    · next h => rw [← h]; rfl
    · rfl

theorem rings_syncIndex (d : Dev) (f : Nat) : (getFn (syncIndex d) f).rings = (getFn d f).rings := by
  have entries (xs : List Extent) (e : Dev) : (getFn (xs.foldl insertEntry e) f).rings = (getFn e f).rings := by
    induction xs generalizing e with
    | nil => rfl
    | cons x xs ih => rw [List.foldl_cons, ih, rings_insertEntry]
  refine (entries _ _).trans ?_
  refine (congrArg FnSt.rings (Tab.get_mapVals ({} : FnSt) ({} : FnSt) (FnSt.unplace _) rfl d.fns f)).trans ?_
  unfold FnSt.unplace
  split <;> rfl

theorem recounts_commitHold (x : Desc) (d : Dev) : d.Recounts (commitHold x none d) := by
  have held : (holdPages x d).sansCounts = d.sansCounts := holdPages_keep Dev.sansCounts (fun _ _ => rfl) x d
  have heldFns : (holdPages x d).fns = d.fns := holdPages_keep Dev.fns (fun _ _ => rfl) x d
  have indexed : d.Recounts (entered x d) := by
    refine ⟨(prune_keep Dev.sansCounts (fun _ => rfl) (fun _ _ => rfl) _).trans held, fun f => ?_⟩
    refine (rings_syncIndex _ f).trans ?_
    exact congrArg (fun t : Tab FnSt => (Tab.get {} t f).rings) heldFns
  exact indexed.trans (answers_commitHold x d).recounts

theorem recounts_refuse (x : Desc) (st : Nat) (d : Dev) : d.Recounts (refuse x st d) := (answers_refuse ..).recounts

theorem recounts_evaluate (xs : List Desc) (k : Blocks) (d : Dev) : d.Recounts (evaluate xs k d) := by
  induction xs generalizing k d with
  | nil => exact .refl d
  | cons x xs ih =>
    have told := recounts_updateReclaim d
    unfold evaluate
    dsimp only
    split
    · exact told.trans ((recounts_refuse ..).trans (ih ..))
    split
    · refine told.trans (Dev.Recounts.trans ?_ (ih ..))
      split
      · exact recounts_commitHold ..
      · exact .refl _
    · exact told.trans ((answers_updDesc ..).recounts.trans (ih ..))

theorem recounts_evaluateAll (n : Nat) (d : Dev) : d.Recounts (evaluateAll n d) := by
  induction n generalizing d with
  | zero => exact .refl d
  | succ n ih =>
    have told := (recounts_updateReclaim d).trans
      ((recounts_evaluate (waitingAll (updateReclaim d)) {} _).trans (recounts_updateReclaim _))
    unfold evaluateAll
    dsimp only
    split
    · exact told
    · exact told.trans (ih _)

theorem recounts_evaluateWaiting (d : Dev) : d.Recounts (evaluateWaiting d) := by
  unfold evaluateWaiting
  split
  · exact recounts_updateReclaim d
  split
  · exact (recounts_foldl (fun _ _ => recounts_refuse ..) _ d).trans (recounts_updateReclaim _)
  · exact recounts_evaluateAll ..

theorem recounts_traceLearn (d : Dev) : d.Recounts (traceLearn d) := (reports_trace ..).recounts

theorem recounts_endLearning (cause : Nat) (d : Dev) : d.Recounts (endLearning cause d) := by
  have noted (est : Est) : d.Recounts { d with est } := ⟨rfl, fun _ => rfl⟩
  unfold endLearning
  split
  · exact .refl d
  split
  · exact (noted _).trans (recounts_traceLearn _)
  · exact (noted _).trans ((reports_postEvent ..).recounts.trans (recounts_traceLearn _))

theorem recounts_countsChanged (d : Dev) : d.Recounts (countsChanged d) := by
  have floor (e : Dev) : e.Recounts (floorTest e) := by
    unfold floorTest
    split
    · exact recounts_endLearning ..
    · exact .refl e
  exact (recounts_updateShortfall d).trans ((recounts_updatePressure _).trans ((recounts_evaluateWaiting _).trans
    ((recounts_updateShortfall _).trans ((recounts_updatePressure _).trans (floor _)))))

end Sys2Proof.Machine
end

section
/-!
PROOFS. A recomputation of admission in whole: the budget, the rows of Table 2.3 it takes, and what it leaves alone
(R34, R69, R75).
-/

namespace Sys2Proof.Machine

/-! ### The budget (R69) -/

theorem reports_traceBudget (d : Dev) : d.Reports (traceBudget d) := by
  unfold traceBudget
  split
  · exact Dev.Reports.after (reports_trace ..) ⟨rfl, fun _ => rfl⟩
  · exact .refl d

/-- What of admission a recomputation leaves alone. -/
theorem recompute_adm (d : Dev) : (recompute d).adm = { d.adm with
    eAvail := eAvailNow d, packZero := d.pins.packPresN || !d.pkb.switchClosed, eEff := eEff d
    rateSum := rateSum d / 1000, eTerm := energyBytes d (rateSum d)
    blkShare := (sumBlocks d).map (fun b => (b, shareB d b))
    blkSpace := (sumBlocks d).map (fun b => (b, spaceB d b))
    blkBudget := (sumBlocks d).map (fun b => (b, blkBudgetNow d b))
    budget := sumNat ((sumBlocks d).map (blkBudgetNow d)), recalcHt := d.tmb.ht } :=
  (reports_traceBudget _).adm_eq

/-- A recomputation writes the terms of the budget, and besides only reports. -/
theorem reports_recompute (d : Dev) : Dev.Reports { d with adm := (recompute d).adm } (recompute d) := by
  rw [recompute_adm]
  exact reports_traceBudget _

/-! ### The work of admission in whole -/

/-- What of `sansCounts` the work of admission leaves alone: not the terms of the budget, the mode, the flash image, the
lists of a curtain, a rehearsal that it ends, and a change of frequency that waited. -/
def Dev.settledPart (d : Dev) : Dev := { d with
  adm := { ({} : Adm) with eByteFj := d.adm.eByteFj, rateRef := d.adm.rateRef, eByteMeasured := d.adm.eByteMeasured }
  chp := {}, flash := {}, cur := {}, drc := { d.drc with fspState := 0 }
  reh := { ({} : Reh) with storedEByte := d.reh.storedEByte } }

/-- `e` is `d` after work of admission: a recomputation with what it brings, or an entry to a mode of R34. -/
structure Dev.Readmits (d e : Dev) : Prop where
  rest : e.sansCounts.settledPart = d.sansCounts.settledPart
  rings : ∀ f, (getFn e f).rings = (getFn d f).rings

theorem Dev.Readmits.refl (d : Dev) : d.Readmits d := ⟨rfl, fun _ => rfl⟩

theorem Dev.Readmits.trans {d e a : Dev} (h : d.Readmits e) (g : e.Readmits a) : d.Readmits a :=
  ⟨g.rest.trans h.rest, fun f => (g.rings f).trans (h.rings f)⟩

/-- `trans` with the later change first. -/
theorem Dev.Readmits.after {d e a : Dev} (g : e.Readmits a) (h : d.Readmits e) : d.Readmits a := h.trans g

theorem Dev.Readmits.keep {α : Type} {d e : Dev} (h : d.Readmits e) (f : Dev → α)
    (hf : ∀ d, f d.sansCounts.settledPart = f d) : f e = f d := by rw [← hf e, h.rest, hf d]

theorem readmits_foldl {α : Type} {f : Dev → α → Dev} (hf : ∀ e a, Dev.Readmits e (f e a)) (l : List α) (d : Dev) :
    d.Readmits (l.foldl f d) := by
  induction l generalizing d with
  | nil => exact .refl d
  | cons a l ih => exact (hf d a).trans (ih _)

theorem Dev.Recounts.readmits {d e : Dev} (h : d.Recounts e) : d.Readmits e :=
  ⟨congrArg Dev.settledPart h.rest, h.rings⟩

theorem Dev.Reports.readmits {d e : Dev} (h : d.Reports e) : d.Readmits e := h.recounts.readmits

theorem Dev.Answers.readmits {d e : Dev} (h : d.Answers e) : d.Readmits e := h.recounts.readmits

theorem Dev.ImageOnly.readmits {d e : Dev} (h : d.ImageOnly e) : d.Readmits e :=
  Dev.Readmits.trans (e := { d with flash := e.flash, blk := e.blk }) ⟨rfl, fun _ => rfl⟩ (Dev.Reports.readmits h)

theorem readmits_recompute (d : Dev) : d.Readmits (recompute d) := by
  refine Dev.Readmits.trans (e := { d with adm := (recompute d).adm }) ⟨?_, fun _ => rfl⟩ (reports_recompute d).readmits
  rw [recompute_adm]
  rfl

theorem readmits_countGood (cadence : Bool) (d : Dev) : d.Readmits (countGood cadence d) := ⟨rfl, fun _ => rfl⟩

theorem readmits_transition (m : Mode) (cause : Nat) (d : Dev) : d.Readmits (transition m cause d) :=
  Dev.Readmits.after (reports_transition m cause d).readmits ⟨rfl, fun _ => rfl⟩

theorem readmits_abortRehearsal (answer : Bool) (d : Dev) : d.Readmits (abortRehearsal answer d) := by
  have soiled (e : Dev) : e.Readmits (soilArea e) := by
    unfold soilArea
    split <;> exact ⟨rfl, fun _ => rfl⟩
  have answered (h : Nat) (e : Dev) : e.Readmits (match findDesc e h with
      | some x => if answer then endWith x stMode 0 0 e else dropDesc h e
      | none => e) := by
    split
    · split
      · exact (answers_endWith ..).readmits
      · exact (answers_dropDesc ..).readmits
    · exact .refl e
  unfold abortRehearsal
  split
  · exact .refl d
  · exact (soiled d).trans (Dev.Readmits.after (answered ..) ⟨rfl, fun _ => rfl⟩)

theorem readmits_writeLists47 (trigger : Nat) (d : Dev) : d.Readmits (writeLists47 trigger d) := by
  have parts (lb : Nat) (l : CallList) (ps : List (Nat × Nat)) (e : Dev) :
      e.Readmits (ps.foldl (fun d p => writePart lb l p d) e) :=
    (imageOnly_foldl (fun _ _ => imageOnly_writePart ..) ps e).readmits
  refine readmits_foldl (fun e b => ?_) _ d
  split
  · exact .refl e
  unfold writeList writeEntries
  split
  · exact .refl e
  dsimp only
  split
  · exact (parts ..).trans ⟨rfl, fun _ => rfl⟩
  · exact .refl e

theorem readmits_enterWriteThrough (cause trigger : Nat) (d : Dev) :
    d.Readmits (enterWriteThrough cause trigger d) := by
  have marked (e : Dev) : e.Readmits ((blockList e).foldl (fun d b => safeMark b d) e) :=
    (imageOnly_foldl (fun _ _ => imageOnly_safeMark ..) _ e).readmits
  have noted (e : Dev) (pages : Tab Page) (n : Nat) (b : Bool) :
      e.Readmits { e with pages, adm := { e.adm with wtGood := n, wtBudget := b } } := ⟨rfl, fun _ => rfl⟩
  exact (readmits_abortRehearsal true d).trans ((readmits_transition ..).trans ((readmits_writeLists47 ..).trans
    ((marked _).trans ((noted ..).trans (recounts_updateReclaim _).readmits))))

theorem readmits_enterAdmitting (m : Mode) (cause : Nat) (d : Dev) : d.Readmits (enterAdmitting m cause d) :=
  (readmits_transition ..).trans (imageOnly_exposeAll _).readmits

/-! ### Rows 16 to 19 of Table 2.3 (R34) -/

@[simp] theorem mode_transition (m : Mode) (cause : Nat) (d : Dev) : (transition m cause d).chp.mode = m :=
  congrArg Chp.mode (reports_transition m cause d).chp_eq

theorem chp_eq_of_facet {d e : Dev} (h : e.facet .chp = d.facet .chp) : e.chp = d.chp := h

theorem mode_enterWriteThrough (cause trigger : Nat) (d : Dev) :
    (enterWriteThrough cause trigger d).chp.mode = .writeThrough := by
  have listed : (enterWriteThrough cause trigger d).facet .chp
      = (transition .writeThrough cause (abortRehearsal true d)).facet .chp := by
    simp [enterWriteThrough]
  rw [chp_eq_of_facet listed, mode_transition]

theorem mode_enterAdmitting (m : Mode) (cause : Nat) (d : Dev) : (enterAdmitting m cause d).chp.mode = m := by
  refine (congrArg Chp.mode (chp_eq_of_facet (facet_exposeAll (q := .chp) nofun (transition m cause d)))).trans ?_
  exact mode_transition ..

/-- What rows 16 to 19 can do to a device: nothing; the fall to WRITE_THROUGH; a derating that comes or goes; the return
from WRITE_THROUGH. Where the device admits and does not fall, its pack is there behind a closed switch. -/
inductive ModeRow (d : Dev) : Dev → Prop
  | stays (h : d.chp.mode.admits = true → packUsable d = true) : ModeRow d d
  | falls (cause : Nat) (h : d.chp.mode.admits = true) : ModeRow d (enterWriteThrough cause 5 d)
  | derates (h : d.chp.mode = .armed) (hp : packUsable d = true) : ModeRow d (transition .derated 0x11 d)
  | recovers (h : d.chp.mode = .derated) (hp : packUsable d = true) : ModeRow d (transition .armed 0x12 d)
  | returns (m : Mode) (hm : m = .armed ∨ m = .derated) (h : d.chp.mode = .writeThrough) (hp : packUsable d = true) :
      ModeRow d (enterAdmitting m 0x0F d)

theorem packUsable_of_holds {d : Dev} (h : packHolds d = false) : packUsable d = true := by
  simp only [packHolds, Bool.or_eq_false_iff] at h
  obtain ⟨⟨⟨present, closed⟩, -⟩, -⟩ := h
  simpa [packUsable, present] using closed

/-- In WRITE_THROUGH the rows wait for the run of good recomputations. -/
theorem modeRow_return {d : Dev} {m : Mode} (hm : m = .armed ∨ m = .derated) (h : d.chp.mode = .writeThrough)
    (hs : settleMode d = m) : ModeRow d (if wtMayLeave d then enterAdmitting m 0x0F d else d) := by
  have holds : packHolds d = false := by
    by_contra hp
    rw [settleMode, if_pos (by simpa using hp)] at hs
    obtain rfl | rfl := hm <;> cases hs
  split
  · exact .returns m hm h (packUsable_of_holds holds)
  · exact .stays (fun ha => by simp [h, Mode.admits] at ha)

theorem modeRow_modeRows (d : Dev) : ModeRow d (modeRows d) := by
  unfold modeRows
  split
  · next ha =>
    split
    · exact .falls _ ha
    next hpresent =>
    split
    · exact .falls _ ha
    next hclosed =>
    have hp : packUsable d = true := by
      simp only [Bool.or_eq_true, not_or, Bool.not_eq_true', Bool.not_eq_false] at hclosed
      simp [packUsable, hpresent, hclosed.2]
    split
    · exact .falls _ ha
    split
    · next h => exact .derates (by simp_all) hp
    split
    · next h => exact .recovers (by simp_all) hp
    · exact .stays fun _ => hp
  next ha =>
  split
  · next h =>
    split
    · next hs => exact modeRow_return (.inl rfl) h hs
    · next hs => exact modeRow_return (.inr rfl) h hs
    · exact .stays fun hadmits => absurd hadmits ha
  · exact .stays fun hadmits => absurd hadmits ha

section
variable {d e : Dev} (h : ModeRow d e)
include h

theorem ModeRow.readmits : d.Readmits e := by
  cases h with
  | stays => exact .refl d
  | falls => exact readmits_enterWriteThrough ..
  | derates | recovers => exact readmits_transition ..
  | returns => exact readmits_enterAdmitting ..

/-- The rows keep the pins, the pack and the estimator: every part of the device. -/
theorem ModeRow.part_eq (q : Part) : e.part q = d.part q := by
  cases h <;> simp

theorem ModeRow.settled (hd : d.chp.mode.settled = true) : e.chp.mode.settled = true := by
  cases h with
  | stays => exact hd
  | falls => rw [mode_enterWriteThrough]; rfl
  | derates | recovers => rw [mode_transition]; rfl
  | returns m hm => rw [mode_enterAdmitting]; obtain rfl | rfl := hm <;> rfl

/-- No row is taken outside the modes that R34 settles. -/
theorem ModeRow.idle (ha : d.chp.mode.admits = false) (hw : d.chp.mode ≠ .writeThrough) : e = d := by
  cases h with
  | stays => rfl
  | falls _ hd => rw [ha] at hd; cases hd
  | derates hd | recovers hd => rw [hd] at ha; cases ha
  | returns _ _ hd => exact absurd hd hw

/-- A row that is taken changes the mode. -/
theorem ModeRow.eq_of_mode (hm : e.chp.mode = d.chp.mode) : e = d := by
  cases h with
  | stays => rfl
  | falls _ hd => rw [← hm, mode_enterWriteThrough] at hd; cases hd
  | derates hd | recovers hd => rw [mode_transition, hd] at hm; cases hm
  | returns m hk hd => rw [mode_enterAdmitting, hd] at hm; obtain rfl | rfl := hk <;> cases hm

theorem ModeRow.packUsable (he : e.chp.mode.admits = true) : packUsable e = true := by
  have pins : e.pins = d.pins := h.part_eq .pins
  have pkb : e.pkb = d.pkb := h.part_eq .pkb
  rw [Machine.packUsable, pins, pkb]
  cases h with
  | stays hd => exact hd he
  | falls => rw [mode_enterWriteThrough] at he; cases he
  | derates _ hp | recovers _ hp | returns _ _ _ hp => exact hp

end

/-! ### A recomputation with what it brings (R75) -/

theorem chp_countsChanged (d : Dev) : (countsChanged d).chp = d.chp := facet_countsChanged (q := .chp) nofun d

theorem chp_recompute (d : Dev) : (recompute d).chp = d.chp := facet_recompute (q := .chp) d

/-- The device of which a recomputation takes the rows. -/
def recounted (cadence : Bool) (d : Dev) : Dev := countsChanged (countGood cadence (recompute d))

theorem reevaluate_eq (cadence : Bool) (d : Dev) : reevaluate cadence d = reasonsChanged (recounted cadence d) := rfl

/-- The rows find nothing to do, or change the mode and force a recomputation of their own. -/
theorem reasonsChanged_cases (d : Dev) :
    reasonsChanged d = d ∨ reasonsChanged d = countsChanged (recompute (modeRows d)) := by
  unfold reasonsChanged
  dsimp only
  split
  · next h => exact .inl ((modeRow_modeRows d).eq_of_mode h)
  · exact .inr rfl

theorem reasonsChanged_of_stays {d : Dev} (h : modeRows d = d) : reasonsChanged d = d := by
  simp [reasonsChanged, h]

theorem chp_reasonsChanged (d : Dev) : (reasonsChanged d).chp = (modeRows d).chp := by
  unfold reasonsChanged
  dsimp only
  split
  · rfl
  · rw [chp_countsChanged, chp_recompute]

theorem chp_recounted (cadence : Bool) (d : Dev) : (recounted cadence d).chp = d.chp :=
  (chp_countsChanged _).trans (chp_recompute d)

theorem recounts_recounted (cadence : Bool) (d : Dev) :
    Dev.Recounts { d with adm := (countGood cadence (recompute d)).adm } (recounted cadence d) := by
  refine Dev.Recounts.trans (e := countGood cadence (recompute d)) ?_ (recounts_countsChanged _)
  exact ⟨(reports_recompute d).keep (fun e => { e.sansCounts with
    adm := { (countGood cadence (recompute d)).adm with
      shortfall := 0, shortE := false, shortS := false, reclaim := [] } })
    (fun _ => rfl), (reports_recompute d).recounts.rings⟩

theorem readmits_recounted (cadence : Bool) (d : Dev) : d.Readmits (recounted cadence d) :=
  (readmits_recompute d).trans ((readmits_countGood ..).trans (recounts_countsChanged _).readmits)

theorem readmits_reevaluate (cadence : Bool) (d : Dev) : d.Readmits (reevaluate cadence d) := by
  refine (readmits_recounted cadence d).trans ?_
  rw [reevaluate_eq]
  obtain h | h := reasonsChanged_cases (recounted cadence d) <;> rw [h]
  · exact .refl _
  · exact (modeRow_modeRows _).readmits.trans ((readmits_recompute _).trans (recounts_countsChanged _).readmits)

theorem readmits_recomputeNow (d : Dev) : d.Readmits (recomputeNow d) := by
  unfold recomputeNow
  split
  · exact readmits_reevaluate ..
  · exact .refl d

/-- A settled mode stays a settled one. -/
theorem settled_reevaluate {cadence : Bool} {d : Dev} (h : d.chp.mode.settled = true) :
    (reevaluate cadence d).chp.mode.settled = true := by
  rw [reevaluate_eq, chp_reasonsChanged]
  exact (modeRow_modeRows _).settled (by rwa [chp_recounted])

section
variable {d : Dev} (ha : d.chp.mode.admits = false) (hw : d.chp.mode ≠ .writeThrough)
include ha hw

theorem reevaluate_idle (cadence : Bool) : reevaluate cadence d = recounted cadence d := by
  have chp := chp_recounted cadence d
  rw [reevaluate_eq, reasonsChanged_of_stays]
  exact (modeRow_modeRows _).idle (by rw [chp, ha]) (by rwa [chp])

/-- Outside the modes that R34 settles a recomputation leaves the mode. -/
theorem chp_recomputeNow_idle : (recomputeNow d).chp = d.chp := by
  unfold recomputeNow
  split
  · rw [reevaluate_idle ha hw, chp_recounted]
  · rfl

/-- What a recomputation leaves alone there. -/
theorem recomputeNow_idle_keep {α : Type} (f : Dev → α) (hf : ∀ d, f d.sansCounts = f d)
    (hadm : ∀ (d : Dev) adm, f { d with adm } = f d) : f (recomputeNow d) = f d := by
  unfold recomputeNow
  split
  · rw [reevaluate_idle ha hw, (recounts_recounted false d).keep f hf, hadm]
  · rfl

end

/-! ### The settled mode (R34) -/

theorem readmits_resumeFsp (d : Dev) : d.Readmits (resumeFsp d) := by
  unfold resumeFsp
  split
  · exact .refl d
  · exact Dev.Readmits.after (reports_trace ..).readmits ⟨rfl, fun _ => rfl⟩

/-- An entry to the settled mode: to WRITE_THROUGH, or to the mode of R34 that admits. -/
theorem enterSettled_cases (cause : Nat) (d : Dev) : enterSettled cause d = resumeFsp (enterWriteThrough cause 5 d)
    ∨ ∃ m, (m = .armed ∨ m = .derated) ∧ enterSettled cause d = resumeFsp (enterAdmitting m cause d) := by
  have settled : settleMode d = .writeThrough ∨ settleMode d = .armed ∨ settleMode d = .derated := by
    unfold settleMode
    (repeat' split) <;> simp
  obtain h | h := settled
  · exact .inl (by rw [enterSettled, h])
  · exact .inr ⟨settleMode d, h, by obtain h | h := h <;> rw [enterSettled, h]⟩

theorem readmits_enterSettled (cause : Nat) (d : Dev) : d.Readmits (enterSettled cause d) := by
  obtain h | ⟨m, -, h⟩ := enterSettled_cases cause d <;> rw [h]
  · exact (readmits_enterWriteThrough ..).trans (readmits_resumeFsp _)
  · exact (readmits_enterAdmitting ..).trans (readmits_resumeFsp _)

theorem settled_enterSettled (cause : Nat) (d : Dev) : (enterSettled cause d).chp.mode.settled = true := by
  have resumed (e : Dev) : (resumeFsp e).chp = e.chp := by
    unfold resumeFsp
    split
    · rfl
    · exact (reports_trace ..).chp_eq
  obtain h | ⟨m, hm, h⟩ := enterSettled_cases cause d <;> rw [h, resumed]
  · rw [mode_enterWriteThrough]
    rfl
  · rw [mode_enterAdmitting]
    obtain rfl | rfl := hm <;> rfl

end Sys2Proof.Machine
end

section
/-!
PROOFS. The budget, the test at commit, and ADMISSION_RECOMPUTE (R34, R69, R75, R78; O22).
-/

namespace Sys2Proof.Machine

/-! ### The budget of a recomputation (R69) -/

/-- A table made of a function's values. -/
theorem tab_get_map (bs : List Nat) (f : Nat → Nat) (b : Nat) :
    Tab.get 0 (bs.map (fun b => (b, f b))) b = if b ∈ bs then f b else 0 := by
  induction bs with
  | nil => rfl
  | cons a bs ih =>
    by_cases h : a = b
    · simp [Tab.get, h]
    · simp [Tab.get, h, Ne.symm h, ih]

theorem blkBudget_recompute (d : Dev) (b : Nat) :
    blkBudget (recompute d) b = if b ∈ sumBlocks d then min (shareB d b) (spaceB d b) else 0 := by
  rw [blkBudget, recompute_adm]
  exact tab_get_map ..

/-- With no pack there is no energy, and no block has a share of it. -/
theorem shareB_of_no_pack {d : Dev} (h : d.pins.packPresN = true) (b : Nat) : shareB d b = 0 := by
  simp [shareB, energyBytes, eFree, eAvailNow, h]

theorem budget_of_no_pack {d : Dev} (h : d.pins.packPresN = true) : (recompute d).adm.budget = 0 := by
  have none : ∀ bs : List Nat, sumNat (bs.map (blkBudgetNow d)) = 0 := by
    intro bs
    induction bs with
    | nil => rfl
    | cons b bs ih => simp_all [sumNat, blkBudgetNow, shareB_of_no_pack]
  rw [recompute_adm]
  exact none _

/-! ### The test at commit (R78) -/

theorem admitTest_writeThrough {d : Dev} {x : Desc} (h : d.chp.mode = .writeThrough) : admitTest d x = .commit
    ↔ unstagedB d x.block + stagingB d x.block + x.bytesLen ≤ blkSpace d x.block := by
  simp [admitTest, h]

theorem admitTest_energy {d : Dev} {x : Desc} (h : d.chp.mode ≠ .writeThrough) : admitTest d x = .commit
    ↔ d.adm.shortE = false ∧ unstagedB d x.block + x.bytesLen ≤ blkBudget d x.block
      ∧ (unstagedF d x.fn + x.bytesLen ≤ share d x.fn
          ∨ (d.adm.borrow x.fn = true ∧ d.adm.reclaim.contains x.fn = false)) := by
  simp only [admitTest, h, if_false]
  split
  · next hb => simp [Nat.not_le.mpr hb]
  next hb =>
  have fits := Nat.not_lt.mp hb
  split
  · next hs => cases he : d.adm.shortE <;> simp [fits, hs]
  next hs =>
  split
  · next hl => cases he : d.adm.shortE <;> simp_all
  · next hl => simp_all

/-! ### ADMISSION_RECOMPUTE (R75) -/

/-- With no learning cycle under way a change of the counts leaves the estimator. -/
theorem est_countsChanged {d : Dev} (h : d.est.learning = false) : (countsChanged d).est = d.est := by
  have before (e : Dev) (he : e.part .est = d.part .est) : (floorTest e).part .est = d.part .est := by
    have learning : e.est.learning = false := (congrArg Est.learning he).trans h
    simp [floorTest, learnFloor, learning, he]
  exact before _ (by simp)

theorem est_recounted {d : Dev} (h : d.est.learning = false) (cadence : Bool) : (recounted cadence d).est = d.est := by
  have est : (countGood cadence (recompute d)).est = d.est := part_recompute (q := .est) d
  rw [recounted, est_countsChanged (est ▸ h), est]

theorem eAvailNow_eq_of_parts {d e : Dev} (hpins : e.pins = d.pins) (hpkb : e.pkb = d.pkb) (hest : e.est = d.est) :
    eAvailNow e = eAvailNow d := by simp [eAvailNow, hpins, hpkb, hest]

theorem eAvail_countsChanged (d : Dev) : (countsChanged d).adm.eAvail = d.adm.eAvail :=
  (recounts_countsChanged d).keep (fun e => e.adm.eAvail) (fun _ => rfl)

/-- A recomputation takes the present energy, however often the mode that it leads to makes it anew. -/
theorem eAvail_reevaluate {cadence : Bool} {d : Dev} (h : d.est.learning = false) :
    (reevaluate cadence d).adm.eAvail = eAvailNow d := by
  have first : (recounted cadence d).adm.eAvail = eAvailNow d := by
    rw [recounted, eAvail_countsChanged]
    exact congrArg Adm.eAvail (recompute_adm d)
  have row := modeRow_modeRows (recounted cadence d)
  have kept (q : Part) (hq : q ≠ .est) : (modeRows (recounted cadence d)).part q = d.part q :=
    (row.part_eq q).trans (by simp [recounted, hq])
  have est : (modeRows (recounted cadence d)).est = d.est := (row.part_eq .est).trans (est_recounted h cadence)
  rw [reevaluate_eq]
  obtain again | again := reasonsChanged_cases (recounted cadence d) <;> rw [again]
  · exact first
  · rw [eAvail_countsChanged, recompute_adm]
    exact eAvailNow_eq_of_parts (kept .pins nofun) (kept .pkb nofun) est

theorem packUsable_reevaluate {cadence : Bool} {d : Dev} (h : (reevaluate cadence d).chp.mode.admits = true) :
    packUsable (reevaluate cadence d) = true := by
  have row := modeRow_modeRows (recounted cadence d)
  have kept (q : Part) (hq : q ≠ .est) : (reevaluate cadence d).part q = (modeRows (recounted cadence d)).part q := by
    rw [row.part_eq q]
    simp [recounted, hq]
  have pins : (reevaluate cadence d).pins = (modeRows (recounted cadence d)).pins := kept .pins nofun
  have pkb : (reevaluate cadence d).pkb = (modeRows (recounted cadence d)).pkb := kept .pkb nofun
  rw [reevaluate_eq, chp_reasonsChanged] at h
  have usable := row.packUsable h
  rwa [packUsable, ← pins, ← pkb] at usable

theorem hostLossRow_idle {d : Dev} (h : d.ept.hostLossState ≠ 2) : hostLossRow d = d := by simp [hostLossRow, h]

theorem hostLossState_reevaluate (cadence : Bool) (d : Dev) :
    (reevaluate cadence d).ept.hostLossState = d.ept.hostLossState :=
  (readmits_reevaluate cadence d).keep (fun e => e.ept.hostLossState) (fun _ => rfl)

/-- Where no host is lost and SERVICE is not being entered, ADMISSION_RECOMPUTE is the recomputation alone. -/
theorem admissionRecompute_alone {cadence : Bool} {d : Dev} (hs : d.svc.entering = 0) (hl : d.ept.hostLossState ≠ 2) :
    serviceReady (hostLossRow (admissionRecompute cadence d)) = admissionRecompute cadence d := by
  have kept : (admissionRecompute cadence d).ept.hostLossState = d.ept.hostLossState := by
    unfold admissionRecompute
    split
    · rfl
    · exact hostLossState_reevaluate ..
  have svc : (admissionRecompute cadence d).svc = d.svc := part_admissionRecompute (q := .svc) nofun cadence d
  rw [hostLossRow_idle (kept ▸ hl), serviceReady_idle (by rw [svc, hs])]

/-- Settles O22. -/
theorem budgetAndAdmission : Obligations.BudgetAndAdmission := by
  refine ⟨fun d => ⟨congrArg Adm.budget (recompute_adm d), congrArg Adm.eAvail (recompute_adm d), fun b hb => ?_,
      fun b hb => ?_, budget_of_no_pack⟩, fun d x => ⟨admitTest_writeThrough, admitTest_energy⟩,
    fun c s hon hlearn hs hl => ?_, fun c s hoff hs hl => ?_⟩
  · rw [blkBudget_recompute, if_pos hb]
  · rw [blkBudget_recompute, if_neg (by simp [sumBlocks, hb])]
  · obtain ⟨t, ht, ho, hd⟩ := onDev_next (fun d => serviceReady (hostLossRow (admissionRecompute c d))) s
    rw [admissionRecompute_alone hs hl, admissionRecompute, if_neg (by simp [hon])] at hd
    refine ⟨t, ht, ho, ?_⟩
    rw [hd]
    refine ⟨eAvail_reevaluate hlearn, fun h => ?_, fun ha hw => ?_⟩
    · simpa [packUsable] using packUsable_reevaluate h
    · rw [reevaluate_idle ha hw, chp_recounted]
  · refine onDev_idle (f := fun d => serviceReady (hostLossRow (admissionRecompute c d))) ?_
    rw [admissionRecompute_alone hs hl, admissionRecompute, if_pos (by simp [hoff])]

end Sys2Proof.Machine
end

section
/-!
PROOFS. What reset leaves (O6), and HALT (R42, O16).
-/

namespace Sys2Proof.Machine

/-- Settles O6. -/
theorem resetState : Obligations.ResetState :=
  ⟨rfl, rfl, rfl, rfl, rfl, rfl, rfl, rfl, rfl, rfl, rfl, rfl, rfl, rfl, memory_wf_reset⟩

/-! ### HALT at a qualification and at the seal (R42) -/

theorem chp_resumeQual_of_halt {d : Dev} (hm : d.chp.mode = .sealed) (hh : d.chp.halt = true) :
    (resumeQual d).chp = d.chp := by
  unfold resumeQual
  split
  · rfl
  · simp [hm, hh]

/-- A curtain's last milestones, with the change of mode. -/
def sealMarked (d : Dev) : Dev :=
  let keep := d.spw.good || d.spw.retain
  let d := milestone 9 d
  let d := { d with cip := { d.cip with copy := if d.fatalRetention then [] else d.cip.slots } }
  let d := if keep && !d.fatalRetention then
      enterSelfRefresh { d with chp := { d.chp with sealRetained := true } }
    else loseDram d
  transition .sealed 0x0C (milestone 10 d)

/-- The seal's answer to the host, before what SEALED makes of it. -/
def sealAnswered (d : Dev) : Dev :=
  let d := { d with
    cur := { d.cur with durUs := usBetween d.cur.failHt d.tmb.ht }
    spw := { d.spw with holdRunning := !d.spw.good } }
  match findDesc d d.cur.handle with
  | some x => if d.cur.linkKept then endWith x stSuccess d.cur.sealHt 0 d else d
  | none => d

theorem dramPlaced_eq {d : Dev} (hm : d.chp.mode = .curtain) (h8 : d.cur.milestone = 8) :
    dramPlaced d = afterSeal (sealUnpowered (stopTime (sealAnswered (sealMarked d)))) := by
  rw [dramPlaced, if_neg (by simp [hm, h8])]
  rfl

theorem facet_enterSelfRefresh {q : Facet} (hq : q.ofMode) (d : Dev) : (enterSelfRefresh d).facet q = d.facet q := by
  simp [enterSelfRefresh, hq.ne]

theorem facet_sealMarked_halt (d : Dev) : (sealMarked d).facet .halt = d.facet .halt := by
  have entered (e : Dev) : (enterSelfRefresh e).facet .halt = e.facet .halt :=
    facet_enterSelfRefresh (.inr (.inr (.inl rfl))) e
  simp [sealMarked, entered, facet_milestone, loseDram]

theorem part_sealMarked {q : Part} (hq : q ≠ .int) (d : Dev) : (sealMarked d).part q = d.part q := by
  simp [sealMarked, hq]

theorem facet_sealAnswered {q : Facet} (d : Dev) : (sealAnswered d).facet q = d.facet q := by
  unfold sealAnswered
  dsimp only
  (repeat' split) <;> simp

theorem part_sealAnswered {q : Part} (hq : q ≠ .spw) (d : Dev) : (sealAnswered d).part q = d.part q := by
  unfold sealAnswered
  dsimp only
  (repeat' split) <;> simp [hq]

theorem good_sealAnswered (d : Dev) : (sealAnswered d).spw.good = d.spw.good := by
  have kept (x : Desc) (st r b : Nat) (e : Dev) : (endWith x st r b e).spw = e.spw := part_endWith (q := .spw) ..
  unfold sealAnswered
  dsimp only
  (repeat' split) <;> simp [kept]

/-- Under HALT nothing follows a seal that has power. -/
theorem afterSeal_of_halt {d : Dev} (hh : d.chp.halt = true)
    (hp : d.spw.good = true ∨ packUsable d = true ∧ d.pkb.cutoff = false) : afterSeal (sealUnpowered d) = d := by
  have powered : sealUnpowered d = d := by
    rw [sealUnpowered, if_neg]
    obtain h | ⟨h, hc⟩ := hp <;> simp [*]
  simp [powered, afterSeal, hh]

/-- The seal under HALT, while there is power. -/
theorem mode_dramPlaced_of_halt {d : Dev} (hm : d.chp.mode = .curtain) (h8 : d.cur.milestone = 8)
    (hh : d.chp.halt = true) (hp : d.spw.good = true ∨ packUsable d = true ∧ d.pkb.cutoff = false) :
    (dramPlaced d).chp.mode = .sealed := by
  let f := sealMarked d
  let e := stopTime (sealAnswered f)
  have facet (q : Facet) : e.facet q = f.facet q := (facet_stopTime _).trans (facet_sealAnswered f)
  have halt : e.chp.halt = true := (facet .halt).trans ((facet_sealMarked_halt d).trans hh)
  have mode : e.chp.mode = .sealed := (congrArg Chp.mode (facet .chp)).trans (mode_transition ..)
  have part {q : Part} (hq : q ≠ .spw ∧ q ≠ .int) : e.part q = d.part q :=
    (part_stopTime _).trans ((part_sealAnswered hq.1 f).trans (part_sealMarked hq.2 d))
  have good : e.spw.good = d.spw.good :=
    (congrArg Spw.good (part_stopTime (q := .spw) _)).trans ((good_sealAnswered f).trans
      (congrArg Spw.good (part_sealMarked (q := .spw) nofun d)))
  have pkb : e.pkb = d.pkb := part (q := .pkb) (by simp)
  have pins : e.pins = d.pins := part (q := .pins) (by simp)
  have power : e.spw.good = true ∨ packUsable e = true ∧ e.pkb.cutoff = false := by
    rwa [good, packUsable, pins, pkb]
  rw [dramPlaced_eq hm h8, afterSeal_of_halt halt power, mode]

/-! ### Main supply lost with HALT set (R42) -/

/-- What the return of main supply needs of a loss: the note that it came with HALT set, and the threshold of GOOD. -/
def Dev.lossMarks (d : Dev) : Bool × Nat := (d.chp.haltLost, d.spw.goodMv)

theorem lossMarks_eq {d e : Dev} (hc : e.facet .chp = d.facet .chp) (hs : e.part .spw = d.part .spw) :
    e.lossMarks = d.lossMarks :=
  congrArg₂ (fun (c : Chp) (s : Spw) => (c.haltLost, s.goodMv)) hc hs

theorem lossMarks_transition (m : Mode) (cause : Nat) (d : Dev) : (transition m cause d).lossMarks = d.lossMarks :=
  (reports_transition m cause d).keep Dev.lossMarks fun _ => rfl

theorem mode_goDark {d : Dev} (h : d.chp.mode = .dark) : (goDark d).chp.mode = .dark := by
  have ground : (goDark d).facet .mode = (stopTime (tornDirs (abortSource d))).facet .mode := facet_checkRetention _
  refine Mode.eq_of_ground nofun (ground.trans ?_)
  rw [facet_stopTime, facet_tornDirs (q := .mode) nofun, facet_abortSource]
  exact congrArg Mode.ground h

theorem mode_row26Stop (d : Dev) : (row26Stop d).chp.mode = .dark := by
  unfold row26Stop
  dsimp only
  split
  · exact mode_goDark rfl
  · exact mode_goDark rfl

/-- The cut of the link at a curtain's first milestones. -/
def curtainCut (k : CurtainKind) (d : Dev) : Dev :=
  let d := countChip 13 1 (milestone 1 d)
  let d := if d.spw.onPack then milestone 2 d else d
  if k.linkKept then milestone 3 (refuseAll d) else milestone 4 (abandonLink false (milestone 3 (cutHost d)))

theorem curtainRun_eq (k : CurtainKind) (d : Dev) : curtainRun k d = recomputeNow (curtainCut k d) := rfl

theorem chp_curtainCut (k : CurtainKind) (d : Dev) : (curtainCut k d).chp = d.chp := by
  have facet : (curtainCut k d).facet .chp = d.facet .chp := by
    simp [curtainCut, facet_milestone, facet_refuseAll, facet_abandonLink, facet_cutHost]
  exact facet

theorem mode_curtainMarked (k : CurtainKind) (d : Dev) : (curtainMarked k d).chp.mode = .curtain :=
  Mode.eq_of_ground nofun (facet_curtainMarked_mode k d)

/-- In CURTAIN the recomputation that ends its start takes no row. -/
theorem mode_curtainCut (k : CurtainKind) (d : Dev) : (curtainCut k (curtainMarked k d)).chp.mode.admits = false
    ∧ (curtainCut k (curtainMarked k d)).chp.mode ≠ .writeThrough := by
  rw [chp_curtainCut, mode_curtainMarked]
  exact ⟨rfl, nofun⟩

theorem chp_startCurtain (k : CurtainKind) (d : Dev) :
    (startCurtain k d).chp = (curtainMarked k (curtainCalm k d)).chp := by
  obtain ⟨admits, stands⟩ := mode_curtainCut k (curtainCalm k d)
  rw [startCurtain_eq, curtainRun_eq, chp_recomputeNow_idle admits stands, chp_curtainCut]

theorem lossMarks_startCurtain (k : CurtainKind) (d : Dev) : (startCurtain k d).lossMarks = d.lossMarks := by
  have calm : (curtainCalm k d).lossMarks = d.lossMarks := by
    refine lossMarks_eq ?_ ?_ <;> simp only [curtainCalm]
    · split <;> simp [facet_abandonCompaction, facet_abandonPorts, abandonTraining]
    · split <;> simp
  have marked : (curtainMarked k (curtainCalm k d)).lossMarks = (curtainCalm k d).lossMarks := by
    refine (lossMarks_eq (facet_updateReclaim _) (part_updateReclaim _)).trans ?_
    exact lossMarks_transition .curtain k.cause _
  have spw : (startCurtain k d).part .spw = (curtainMarked k (curtainCalm k d)).part .spw := by
    simp [startCurtain_eq, curtainRun_eq, curtainCut]
  exact (lossMarks_eq (chp_startCurtain k d) spw).trans (marked.trans calm)

/-- What is under way ends before an intermission. -/
def intermissionCalm (d : Dev) : Dev :=
  let d := abandonPorts true (abandonTraining (endLearning 1 (abortRehearsal false d)))
  abandonCompaction { d with
    est := { d.est with probing := false, shareMa := 0 }, svc := { d.svc with entering := 0, drain := false } }

/-- The first steps of an intermission. -/
def intermissionCut (d : Dev) : Dev :=
  updateReclaim (intStep 4 (abandonLink true (intStep 3 (cutHost (intStep 2 (intStep 1 d))))))

theorem lossMarks_enterIntermission (d : Dev) : (enterIntermission d).lossMarks = d.lossMarks :=
  calc (enterIntermission d).lossMarks
    _ = (intermissionCut (transition .intermission 0x05 (intermissionCalm d))).lossMarks :=
      (reports_countChip ..).keep Dev.lossMarks fun _ => rfl
    _ = (transition .intermission 0x05 (intermissionCalm d)).lossMarks :=
      lossMarks_eq (by simp [intermissionCut, intStep, facet_abandonLink, facet_cutHost]) (by simp [intermissionCut])
    _ = (intermissionCalm d).lossMarks := lossMarks_transition ..
    _ = d.lossMarks := lossMarks_eq
      (by simp [intermissionCalm, facet_abandonCompaction, facet_abandonPorts, abandonTraining])
      (by simp [intermissionCalm])

theorem sealUnpowered_cases (d : Dev) : (sealUnpowered d).chp.mode = .dark ∨ sealUnpowered d = d := by
  unfold sealUnpowered
  split
  · exact .inl (mode_goDark (mode_transition ..))
  · exact .inr rfl

/-- A loss of main supply leaves its note, or nothing but a dark device. -/
theorem lossMarks_failRows (d : Dev) : (failRows d).chp.mode = .dark ∨ (failRows d).lossMarks = d.lossMarks := by
  have dark (cause : Nat) (e : Dev) : (goDark (transition .dark cause e)).chp.mode = .dark :=
    mode_goDark (mode_transition ..)
  have link (e : Dev) : (abandonLink false e).lossMarks = e.lossMarks :=
    lossMarks_eq (facet_abandonLink ..) (part_abandonLink (q := .spw) ..)
  rw [failRows]
  cases d.chp.mode
  case boot | encore | reconcile | service => exact .inl (dark ..)
  case writeThrough =>
    dsimp only
    split
    · exact .inl (dark ..)
    · exact .inr (lossMarks_startCurtain ..)
  case armed | derated | rehearsal =>
    dsimp only
    split
    · exact .inr (lossMarks_enterIntermission d)
    · exact .inr (lossMarks_startCurtain ..)
  case curtain =>
    dsimp only
    split
    · exact .inl (mode_row26Stop d)
    · refine .inr (lossMarks_eq ?_ (part_failInCurtain d))
      unfold failInCurtain
      simp [facet_abandonLink]
  case intermission | dark => exact .inr rfl
  case sealed =>
    dsimp only
    obtain h | h := sealUnpowered_cases { d with spw := { d.spw with holdRunning := true } }
    · rw [if_neg (by simp [h])]
      exact .inl h
    · rw [h]
      refine .inr ?_
      split
      · exact link _
      · rfl

theorem lossMarks_packFail (d : Dev) : (packFail d).lossMarks = d.lossMarks := by
  have chp : (packFail d).facet .chp = d.facet .chp := by
    unfold packFail dropCommit
    dsimp only
    (repeat' split) <;> simp
  exact lossMarks_eq chp (part_packFail (by simp) d)

/-- The note of a loss, as `failAssert` makes it. -/
theorem lossMarks_failAssert {mv : Nat} {d : Dev} (hd : d.chp.mode ≠ .dark) (hf : d.spw.fail = false)
    (hmv : mv < d.spw.failMv) :
    (failAssert mv d).chp.mode = .dark ∨ (failAssert mv d).lossMarks = (d.chp.halt, d.spw.goodMv) := by
  rw [failAssert, if_neg (by simp [Nat.not_le.mpr hmv, hd])]
  dsimp only
  rw [if_neg (by simp [hf])]
  obtain h | h := lossMarks_failRows _
  · exact .inl h
  · refine .inr (h.trans ((lossMarks_packFail _).trans ?_))
    exact (reports_trace ..).keep (fun e => (e.chp.halt, e.spw.goodMv)) fun _ => rfl

theorem halt_failRelease {mv : Nat} {d : Dev} (hd : d.chp.mode ≠ .dark) (hn : d.chp.haltLost = true)
    (hmv : d.spw.goodMv ≤ mv) : (failRelease mv d).chp.halt = false := by
  rw [failRelease, if_neg (by simp [Nat.not_lt.mpr hmv, hd])]
  refine (congrArg Chp.halt (reports_trace ..).chp_eq).trans ?_
  simp [hn]

/-- Settles O16. -/
theorem haltHolds : Obligations.HaltHolds := by
  refine ⟨fun s hm hh => ?_, fun s hm h8 hh hp => ?_, fun lo hi s hm hh hf hlo hhi hmax => ?_⟩
  · obtain ⟨t, ht, ho, hd⟩ := onDev_next resumeQual s
    exact ⟨t, ht, ho, by rw [hd, chp_resumeQual_of_halt hm hh]⟩
  · obtain ⟨t, ht, hp', hd⟩ := onPower_next dramPlaced s
    exact ⟨t, ht, hp', by rw [hd, mode_dramPlaced_of_halt hm h8 hh hp]⟩
  · obtain ⟨t, ht, -, hd⟩ := onPower_next (failAssert lo) s
    refine ⟨t, { t with dev := failRelease hi t.dev }, ht, if_neg (Nat.not_lt.mpr hmax), fun htm => ?_⟩
    obtain dark | marks := lossMarks_failAssert hm hf hlo
    · exact absurd (hd ▸ dark) htm
    · rw [← hd, hh] at marks
      exact halt_failRelease htm (congrArg Prod.fst marks) ((congrArg Prod.snd marks).trans_le hhi)

end Sys2Proof.Machine
end

section
/-!
PROOFS. An administrative descriptor starts: what `begin` hands on, and where its mode refuses it (R251, Table 14.6);
and what the frames of the links leave alone.
-/

namespace Sys2Proof.Machine

theorem handle_of_findDesc {d : Dev} {h : Nat} {x : Desc} (hx : findDesc d h = some x) : x.handle = h := by
  simpa using List.find?_some hx

theorem findDesc_endWith (x : Desc) (st r b : Nat) (d : Dev) : findDesc (endWith x st r b d) x.handle = none :=
  findDesc_finish ..

/-- `x` is a descriptor of the administrative opcode `op`, or one of an opcode that the device does not know. -/
def Desc.asks (x : Desc) (op : Nat) : Prop := x.known = true → x.fn = 0 ∧ x.entry.opcode = op

section
variable {x : Desc} {op : Nat} (hx : x.asks op) (hop : op ≠ 0x4B)
include hx hop

/-- Only XFER is turned away with more than its completion (R288). -/
theorem turnAway_of_asks (st : Nat) (d : Dev) : turnAway x st d = endWith x st 0 0 d := by
  rw [turnAway, if_neg]
  intro h
  simp only [Bool.and_eq_true, decide_eq_true_eq] at h
  obtain ⟨⟨⟨hfn, hcode⟩, -⟩, -⟩ := h
  have known : x.known = true := by simp [Desc.known, hfn, hcode, adminOps]
  exact hop ((hx known).2.symm.trans hcode)

/-- A start either takes the descriptor up or ends it. -/
theorem startDesc_cases (d : Dev) : startDesc x d = updDesc x.handle (fun y => { y with phase := .running }) d
    ∨ ∃ st, startDesc x d = endWith x st 0 0 d := by
  unfold startDesc
  split
  · next st _ => exact .inr ⟨st, turnAway_of_asks hx hop st d⟩
  · exact .inl rfl

end

theorem findDesc_updDesc {d : Dev} {h : Nat} {x : Desc} {g : Desc → Desc} (hg : ∀ y, (g y).handle = y.handle)
    (hx : findDesc d h = some x) : findDesc (updDesc h g d) h = some (g x) := by
  have kept : (fun y => decide (y.handle = h)) ∘ (fun y => if y.handle = h then g y else y)
      = fun y : Desc => decide (y.handle = h) := by
    funext y
    by_cases hy : y.handle = h <;> simp [hy, hg]
  rw [findDesc, updDesc, List.find?_map, kept]
  show Option.map _ (findDesc d h) = _
  rw [hx]
  simp [handle_of_findDesc hx]

/-- What `begin` hands on: a descriptor of the device's, with no more than answers given. -/
theorem begin_some {h op : Nat} {d e : Dev} {x : Desc} (hop : op ≠ 0x4B) (hb : begin h true op d = (some x, e)) :
    d.Answers e ∧ findDesc e h = some x ∧ x.asks op := by
  unfold begin at hb
  split at hb
  · cases hb
  next y hy =>
  split at hb
  · cases hb
  next hknown =>
  have asks : y.asks op := by
    intro hk
    simpa [hk] using hknown
  split at hb
  · cases hb
    exact ⟨.refl d, hy, asks⟩
  split at hb
  · cases hb
  obtain ⟨hx, he⟩ := Prod.mk.inj hb
  rw [he] at hx
  have same := handle_of_findDesc hy
  obtain hs | ⟨st, hs⟩ := startDesc_cases asks hop d <;> rw [he] at hs
  · rw [same] at hs
    have running := findDesc_updDesc (g := fun y => { y with phase := .running }) (fun _ => rfl) hy
    rw [← hs, hx] at running
    cases running
    exact ⟨hs ▸ answers_updDesc .., hx, asks⟩
  · rw [hs, ← same, findDesc_endWith] at hx
    cases hx

/-- In these modes no unknown opcode is refused for the mode. -/
theorem modeRefuses_of_unknown {d : Dev} {x : Desc} (hx : x.known = false) (hb : d.chp.mode ≠ .boot)
    (hc : d.chp.mode ≠ .curtain) (hs : d.chp.mode ≠ .sealed) : modeRefuses d x = none := by
  unfold Desc.known at hx
  unfold modeRefuses
  split at hx
  · simp [adminOps] at hx
    simp_all
  · simp [cacheOps] at hx
    simp_all

/-- A descriptor whose opcode the mode does not refuse is done. -/
theorem inItsMode_of_asks {d : Dev} {x : Desc} {op : Nat} (hx : x.asks op)
    (hm : d.chp.mode ≠ .boot ∧ d.chp.mode ≠ .curtain ∧ d.chp.mode ≠ .sealed)
    (hop : x.fn = 0 → x.entry.opcode = op → modeRefuses d x = none) (f : Dev → Dev) : inItsMode x f d = f d := by
  have permitted : modeRefuses d x = none := by
    by_cases hk : x.known = true
    · exact hop (hx hk).1 (hx hk).2
    · exact modeRefuses_of_unknown (by simpa using hk) hm.1 hm.2.1 hm.2.2
  rw [inItsMode, permitted]

/-! ### Frames alone -/

/-- `e` is `d` with the state of the links and the free counter changed, and reports added. -/
def Dev.FrameOnly (d e : Dev) : Prop := Dev.Reports { d with hrk := e.hrk, freeCtr := e.freeCtr } e

theorem Dev.FrameOnly.refl (d : Dev) : d.FrameOnly d := Dev.Reports.refl d

theorem Dev.FrameOnly.trans {d e a : Dev} (h : d.FrameOnly e) (g : e.FrameOnly a) : d.FrameOnly a :=
  ⟨g.bare.trans (congrArg (fun x : Dev => { x with hrk := a.hrk, freeCtr := a.freeCtr }) h.bare),
    fun f => (g.fns f).trans (h.fns f)⟩

/-- What frames leave alone. -/
theorem Dev.FrameOnly.keep {α : Type} {d e : Dev} (h : d.FrameOnly e) (f : Dev → α) (hf : ∀ d, f d.bare = f d)
    (hl : ∀ (d : Dev) hrk freeCtr, f { d with hrk, freeCtr } = f d) : f e = f d :=
  (Dev.Reports.keep h f hf).trans (hl ..)

theorem Dev.Reports.frameOnly {d e : Dev} (h : d.Reports e) : d.FrameOnly e := by
  have hrk : e.hrk = d.hrk := h.hrk_eq
  have free : e.freeCtr = d.freeCtr := h.freeCtr_eq
  unfold Dev.FrameOnly
  rw [hrk, free]
  exact h

theorem frameOnly_hrk (d : Dev) (hrk : Hrk) : d.FrameOnly { d with hrk } := Dev.Reports.refl _

theorem reports_putFrame (f : Frame) (d : Dev) (p : Nat) : d.Reports (putFrame f d p) := by
  unfold putFrame
  split
  · exact .refl d
  · exact (reports_emit ..).trans ((reports_countPort ..).trans (reports_countPort ..))

theorem frameOnly_sendOn (p type dst : Nat) (ackReq : Bool) (payload : List Byte) (d : Dev) :
    d.FrameOnly (sendOn p type dst ackReq payload d) := by
  unfold sendOn
  split
  · exact .refl d
  · exact (frameOnly_hrk d _).trans (reports_putFrame ..).frameOnly

theorem frameOnly_sendDir (es : List DirEntry) (d : Dev) : d.FrameOnly (sendDir es d) := by
  have forwarded (e : Dev) : e.FrameOnly (forwardDir es e) := by
    unfold forwardDir
    split
    · exact frameOnly_sendOn ..
    · exact .refl e
  unfold sendDir
  dsimp only
  (repeat' split)
  · exact .refl d
  · exact (frameOnly_hrk d _).trans (forwarded _)
  · exact (frameOnly_hrk d _).trans (frameOnly_sendOn ..)
  · exact frameOnly_hrk d _

end Sys2Proof.Machine
end

section
/-!
PROOFS. What BOOT is entered with: the mode with its cause and marks, and the address map (row 25 of Table 2.3).
-/

namespace Sys2Proof.Machine

/-- The mode with its cause and marks, and the address map. -/
def Dev.bootMarks (d : Dev) : Chp × Nat := (d.chp, d.drc.mapNow)

theorem bootMarks_foldl {α : Type} {f : Dev → α → Dev} (hf : ∀ e a, (f e a).bootMarks = e.bootMarks) (l : List α)
    (d : Dev) : (l.foldl f d).bootMarks = d.bootMarks := by
  induction l generalizing d with
  | nil => rfl
  | cons a l ih => exact (ih _).trans (hf d a)

theorem Dev.Reports.bootMarks_eq {d e : Dev} (h : d.Reports e) : e.bootMarks = d.bootMarks :=
  h.keep Dev.bootMarks fun _ => rfl

theorem bootMarks_abandonRebuilds (d : Dev) : (abandonRebuilds d).bootMarks = d.bootMarks := by
  unfold abandonRebuilds
  exact bootMarks_foldl (by intros; rfl) ..

theorem bootMarks_restartTime (d : Dev) : (restartTime d).bootMarks = d.bootMarks := by
  unfold restartTime awaitResponses
  (repeat' split) <;> rfl

theorem bootMarks_hierarchyBoot (d : Dev) : (hierarchyBoot d).bootMarks = d.bootMarks := by
  have ended (e : Dev) : (endStandby e).bootMarks = e.bootMarks := by
    unfold endStandby
    split <;> rfl
  have joined (e : Dev) : (sendJoin e).bootMarks = e.bootMarks :=
    (frameOnly_sendOn ..).keep Dev.bootMarks (fun _ => rfl) (fun _ _ _ => rfl)
  unfold hierarchyBoot
  dsimp only
  split
  · exact (joined _).trans (ended d)
  · exact ended d

theorem bootMarks_putSegment (c : Nat) (a : W64) (w : Tab Byte) (d : Dev) :
    (putSegment c a w d).bootMarks = d.bootMarks :=
  (reports_countCell c 1 1 d).bootMarks_eq

theorem bootMarks_abandonPorts (all : Bool) (d : Dev) : (abandonPorts all d).bootMarks = d.bootMarks := by
  have tlc (c : Nat) (a : W64) (e : Dev) : (putTlc c a e).bootMarks = e.bootMarks := by
    unfold putTlc
    dsimp only
    split
    · rfl
    · exact bootMarks_foldl (fun _ _ => bootMarks_putSegment ..) _ e
  have finished (e : Dev) : (finishPrograms e).bootMarks = e.bootMarks := by
    refine bootMarks_foldl (fun e c => ?_) _ e
    dsimp only
    (repeat' split)
    · rfl
    · exact bootMarks_putSegment ..
    · exact tlc ..
    · rfl
  unfold abandonPorts
  dsimp only
  split
  · exact finished d
  · rfl

theorem bootMarks_startLink (d : Dev) : (startLink d).bootMarks = d.bootMarks := by
  unfold startLink
  split <;> rfl

/-- Before BOOT: the slots of a sealed device, the index rebuilds and the time. -/
def bootCalm (d : Dev) : Dev :=
  restartTime (abandonRebuilds (if d.chp.mode = .sealed then
    { d with cip := { d.cip with slots := d.cip.copy, copy := [] } } else d))

/-- BOOT, up to the abandoning of what the flash was doing. -/
def bootEntered (cause : Nat) (d : Dev) : Dev :=
  abandonCopies (abandonPorts true (hierarchyBoot (transition .boot cause (bootCalm d))))

/-- What BOOT resets besides. -/
def bootReset (abandoned : Prop) [Decidable abandoned] (d : Dev) : Dev :=
  let d := { d with
    tmb := { d.tmb with bootCommit := false }
    rom := { d.rom with booted := false, modulesOk := false, flashReady := false, playbill := false }
    descs := if abandoned then [] else d.descs
    chp := { d.chp with fatalIslands := [] }
    fns := Tab.mapVals (fun (f : FnSt) => { f with rebuildStopped := false, rebuilds := 0 }) d.fns
    spw := { d.spw with qualRunning := false, qualified := false, holdRunning := false }
    enc := { ({} : Enc) with first := d.enc.first, orderStore := d.enc.orderStore }
    adm := { d.adm with budget := 0, blkBudget := [], reclaim := [], shortfall := 0, shortE := false, shortS := false }
    blk := Tab.mapVals (fun (e : Blk) => { e with
      logKnown := false, fenced := false, pathFailed := false, crossSave := false, pressure := false
      credit := e.storedCredit, debt := e.storedDebt
      debtMark := (e.storedDebt - 1) / d.debtWarnBytes }) (windowsRead d) }
  let d := if abandoned then endpointDefaults { d with
      mrg := { d.mrg with orphans := [] }
      ept := { d.ept with hostLossState := 1, linkLostHt := d.tmb.ht } } else d
  startLink { d with ept := { d.ept with tlpsCut := false } }

theorem goBoot_eq (cause : Nat) (d : Dev) :
    goBoot cause d = recomputeNow (bootReset (d.ept.link = .abandoned) (bootEntered cause d)) := by
  unfold goBoot bootReset bootEntered bootCalm
  rfl

theorem bootMarks_bootEntered (cause : Nat) (d : Dev) :
    ∃ seq ht, (bootEntered cause d).bootMarks
      = ({ d.chp with mode := .boot, prev := d.chp.mode, cause, seq, modeHt := ht }, d.drc.mapNow) := by
  have calm : (bootCalm d).bootMarks = d.bootMarks := by
    refine (bootMarks_restartTime _).trans ((bootMarks_abandonRebuilds _).trans ?_)
    split <;> rfl
  have copies (e : Dev) : (abandonCopies e).bootMarks = e.bootMarks := rfl
  have chp : (bootCalm d).chp = d.chp := congrArg Prod.fst calm
  have map : (bootCalm d).drc.mapNow = d.drc.mapNow := congrArg Prod.snd calm
  refine ⟨(d.chp.seq + 1) % 256, (bootCalm d).tmb.ht, ?_⟩
  rw [bootEntered, copies, bootMarks_abandonPorts, bootMarks_hierarchyBoot,
    (reports_transition .boot cause (bootCalm d)).bootMarks_eq]
  simp only [Dev.bootMarks, chp, map]

theorem bootMarks_bootReset (abandoned : Prop) [Decidable abandoned] (d : Dev) :
    (bootReset abandoned d).bootMarks = ({ d.chp with fatalIslands := [] }, d.drc.mapNow) := by
  refine (bootMarks_startLink _).trans ?_
  by_cases h : abandoned
  · simp only [h]
    rfl
  · simp only [h]
    rfl

theorem bootMarks_recomputeNow {d : Dev} (h : d.chp.mode = .boot) : (recomputeNow d).bootMarks = d.bootMarks :=
  recomputeNow_idle_keep (by rw [h]; rfl) (by simp [h]) Dev.bootMarks (fun _ => rfl) (fun _ _ => rfl)

/-- BOOT, however entered: its cause, and the marks and the map as they stood. -/
theorem bootMarks_goBoot (cause : Nat) (d : Dev) :
    ∃ seq ht, (goBoot cause d).bootMarks
      = ({ d.chp with mode := .boot, prev := d.chp.mode, cause, seq, modeHt := ht, fatalIslands := [] },
        d.drc.mapNow) := by
  obtain ⟨seq, ht, h⟩ := bootMarks_bootEntered cause d
  rw [goBoot_eq]
  generalize bootEntered cause d = e at h
  have chp : e.chp = _ := congrArg Prod.fst h
  have map : e.drc.mapNow = d.drc.mapNow := congrArg Prod.snd h
  have reset := bootMarks_bootReset (d.ept.link = .abandoned) e
  rw [chp, map] at reset
  exact ⟨seq, ht, (bootMarks_recomputeNow (congrArg (fun m : Chp × Nat => m.1.mode) reset)).trans reset⟩

end Sys2Proof.Machine
end

section
/-!
PROOFS. The administrative descriptors of the operating modes: SERVICE, the planned curtain, the reset of a function
(R40, R41, R267; O50).
-/

namespace Sys2Proof.Machine

/-! ### The marks of a curtain (row 21) -/

/-- Who asked for a curtain, and what follows it. -/
def Dev.curtainTerms (d : Dev) : Bool × Bool × Nat × Nat :=
  (d.cur.linkKept, d.cur.plannedFlag, d.cur.handle, d.cur.after)

theorem Dev.Recounts.curtainTerms_eq {d e : Dev} (h : d.Recounts e) : e.curtainTerms = d.curtainTerms :=
  h.keep Dev.curtainTerms fun _ => rfl

theorem curtainTerms_milestone (m : Nat) (d : Dev) : (milestone m d).curtainTerms = d.curtainTerms :=
  (reports_trace ..).recounts.curtainTerms_eq

theorem curtainTerms_curtainCut (k : CurtainKind) (d : Dev) : (curtainCut k d).curtainTerms = d.curtainTerms := by
  have counted (e : Dev) : (countChip 13 1 e).curtainTerms = e.curtainTerms :=
    (reports_countChip ..).recounts.curtainTerms_eq
  have packed (e : Dev) : (if e.spw.onPack then milestone 2 e else e).curtainTerms = e.curtainTerms := by
    split
    · exact curtainTerms_milestone 2 e
    · rfl
  have refused (e : Dev) : (refuseAll e).curtainTerms = e.curtainTerms :=
    (recounts_foldl (fun _ _ => recounts_refuse ..) _ _).curtainTerms_eq
  have abandoned (e : Dev) : (abandonLink false e).curtainTerms = e.curtainTerms :=
    (reports_trace ..).recounts.curtainTerms_eq
  have cut (e : Dev) : (cutHost e).curtainTerms = e.curtainTerms := rfl
  unfold curtainCut
  dsimp only
  split
  · rw [curtainTerms_milestone, refused, packed, counted, curtainTerms_milestone]
  · rw [curtainTerms_milestone, abandoned, curtainTerms_milestone, cut, packed, counted, curtainTerms_milestone]

theorem curtainTerms_curtainMarked (k : CurtainKind) (d : Dev) :
    (curtainMarked k d).curtainTerms = (k.linkKept, k.planned, k.handle, k.after) :=
  (recounts_updateReclaim _).curtainTerms_eq

/-- What a curtain is at its start. -/
theorem curtain_startCurtain (k : CurtainKind) (d : Dev) : (startCurtain k d).chp.mode = .curtain
    ∧ (startCurtain k d).curtainTerms = (k.linkKept, k.planned, k.handle, k.after) := by
  obtain ⟨admits, stands⟩ := mode_curtainCut k (curtainCalm k d)
  refine ⟨(congrArg Chp.mode (chp_startCurtain k d)).trans (mode_curtainMarked ..), ?_⟩
  rw [startCurtain_eq, curtainRun_eq,
    recomputeNow_idle_keep admits stands Dev.curtainTerms (fun _ => rfl) (fun _ _ => rfl),
    curtainTerms_curtainCut, curtainTerms_curtainMarked]

/-! ### SERVICE (R40) -/

theorem chp_endWith (x : Desc) (st r b : Nat) (d : Dev) : (endWith x st r b d).chp = d.chp :=
  facet_endWith (q := .chp) ..

theorem chp_transition (m : Mode) (cause : Nat) (d : Dev) : (transition m cause d).chp
    = { d.chp with mode := m, prev := d.chp.mode, cause, seq := (d.chp.seq + 1) % 256, modeHt := d.tmb.ht } :=
  (reports_transition m cause d).chp_eq

theorem chp_enterService (x : Desc) (drained : Nat) (d : Dev) :
    (enterService x drained d).chp.mode = .service ∧ (enterService x drained d).chp.cause = 0x16 := by
  unfold enterService
  dsimp only
  rw [chp_endWith, chp_recomputeNow_idle] <;> simp [chp_transition, Mode.admits]

theorem findDesc_enterService (x : Desc) (drained : Nat) (d : Dev) :
    findDesc (enterService x drained d) x.handle = none := findDesc_endWith ..

/-- Nothing enters SERVICE while data is unstaged. -/
theorem serviceReady_waits {d : Dev} (h : unstagedAll d ≠ 0 ∨ anyStaging d = true) : serviceReady d = d := by
  rw [serviceReady, if_pos]
  obtain h | h := h <;> simp [h]

theorem modeRefuses_serviceEnter {d : Dev} {x : Desc} (hm : d.chp.mode.settled = true) (hfn : x.fn = 0)
    (hop : x.entry.opcode = 0x49) : modeRefuses d x = none := by
  cases h : d.chp.mode <;> simp_all [modeRefuses, Mode.settled]

theorem modeRefuses_serviceExit {d : Dev} {x : Desc} (hm : d.chp.mode = .service) (hfn : x.fn = 0)
    (hop : x.entry.opcode = 0x4A) : modeRefuses d x = none := by
  simp [modeRefuses, hm, hfn, hop]

theorem modeRefuses_plannedCurtain {d : Dev} {x : Desc}
    (hm : d.chp.mode.settled = true ∨ d.chp.mode = .rehearsal) (hfn : x.fn = 0) (hop : x.entry.opcode = 0x43) :
    modeRefuses d x = none := by
  cases h : d.chp.mode <;> simp_all [modeRefuses, Mode.settled]

/-- SERVICE as the exit with REBOOT leaves it: the next map in force, and whether the cache DRAM's data may stay. -/
def serviceLeft (d : Dev) : Dev := { d with
  chp := { d.chp with sealRetained := !(d.drc.mapNext ≠ d.drc.mapNow) && !d.svc.xferDone && !xferDest d }
  drc := { d.drc with mapNow := d.drc.mapNext }
  svc := {} }

theorem leaveService_reboot (d : Dev) : leaveService true d = goBoot 0x17 (enterSelfRefresh (serviceLeft d)) := by
  rw [leaveService, serviceLeft, if_pos (by simp)]

/-- The exit with REBOOT. -/
theorem boot_leaveService (d : Dev) :
    (leaveService true d).chp.mode = .boot ∧ (leaveService true d).chp.cause = 0x17
      ∧ (leaveService true d).drc.mapNow = d.drc.mapNext
      ∧ (leaveService true d).chp.sealRetained = (d.drc.mapNext = d.drc.mapNow && !d.svc.xferDone && !xferDest d) := by
  have refreshed (e : Dev) : (enterSelfRefresh e).bootMarks = e.bootMarks :=
    bootMarks_foldl (fun e b => (reports_countBlk b ..).bootMarks_eq) (blockList e) e
  rw [leaveService_reboot]
  obtain ⟨seq, ht, booted⟩ := bootMarks_goBoot 0x17 (enterSelfRefresh (serviceLeft d))
  have chp : (enterSelfRefresh (serviceLeft d)).chp = (serviceLeft d).chp := congrArg Prod.fst (refreshed _)
  have map : (enterSelfRefresh (serviceLeft d)).drc.mapNow = (serviceLeft d).drc.mapNow :=
    congrArg Prod.snd (refreshed _)
  rw [chp, map] at booted
  have booted_chp := congrArg Prod.fst booted
  refine ⟨congrArg Chp.mode booted_chp, congrArg Chp.cause booted_chp, congrArg Prod.snd booted,
    (congrArg Chp.sealRetained booted_chp).trans ?_⟩
  simp [serviceLeft]

/-- The exit without it, where the map stands and no data was transferred. -/
theorem settled_leaveService {d : Dev} (hmap : d.drc.mapNext = d.drc.mapNow) (hdone : d.svc.xferDone = false)
    (hdest : xferDest d = false) : (leaveService false d).chp.mode.settled = true := by
  rw [leaveService, if_neg (by simp [hmap, hdone, hdest])]
  exact settled_reevaluate (settled_enterSettled ..)

/-! ### The reset of a function (R267) -/

theorem rings_dirChanged (f moved : Nat) (d : Dev) (g : Nat) :
    (getFn (dirChanged f moved d) g).rings = (getFn d g).rings :=
  rings_eq_of_fnCore (((frameOnly_hrk d _).trans (frameOnly_sendDir ..)).fns g)

theorem rings_resetFn (f : Nat) (d : Dev) : (getFn (resetFn f d) f).rings = ([], 0) := by
  have counted (e : Dev) : (getFn (countsChanged e) f).rings = (getFn e f).rings := (recounts_countsChanged e).rings f
  have recomputed (e : Dev) : (getFn (recomputeNow e) f).rings = (getFn e f).rings := (readmits_recomputeNow e).rings f
  have traced (e : Dev) : (getFn (fnTrace f 0 (drainOrphans 2049 e)) f).rings = (getFn e f).rings :=
    ((reports_drainOrphans ..).trans (reports_trace ..)).recounts.rings f
  unfold resetFn
  dsimp only
  rw [counted]
  split <;> simp only [rings_dirChanged, recomputed, traced] <;> simp [FnSt.rings, getFn_updFn]

/-! ### The descriptors -/

theorem Mode.of_settled {m : Mode} (h : m.settled = true) : m ≠ .boot ∧ m ≠ .curtain ∧ m ≠ .sealed := by
  cases m <;> simp_all [Mode.settled]

section
variable {h : Nat} {c d : Dev} {x : Desc}

/-- SERVICE_ENTER, once it has started. -/
theorem serviceEnter_begun (hb : begin h true 0x49 c = (some x, d)) (hh : h ≠ 0) (he : d.svc.entering = 0) :
    serviceEnter h c = inItsMode x (fun d =>
      if d.svc.entering ≠ 0 then endWith x stBusy 0 0 d
      else if bit x.entry.flags 4 then
        serviceReady { d with svc := { d.svc with entering := h, drain := true, drainedStart := unstagedAll d } }
      else if unstagedAll d ≠ 0 || anyStaging d then endWith x stBusy 0 0 d
      else enterService x 0 d) d := by
  simp only [serviceEnter, hb]
  rw [if_neg (by simp [he, hh.symm])]

theorem serviceEnter_staged (hb : begin h true 0x49 c = (some x, d)) (hh : h ≠ 0) (he : d.svc.entering = 0)
    (hm : d.chp.mode.settled = true) (hu : unstagedAll d = 0) (hs : anyStaging d = false)
    (hf : bit x.entry.flags 4 = false) : serviceEnter h c = enterService x 0 d := by
  obtain ⟨-, -, asks⟩ := begin_some (by decide) hb
  rw [serviceEnter_begun hb hh he,
    inItsMode_of_asks asks (Mode.of_settled hm) (modeRefuses_serviceEnter hm)]
  simp [he, hu, hs, hf]

theorem serviceEnter_unstaged (hb : begin h true 0x49 c = (some x, d)) (hh : h ≠ 0) (he : d.svc.entering = 0)
    (hu : unstagedAll d ≠ 0 ∨ anyStaging d = true) (hf : bit x.entry.flags 4 = false) :
    ∃ st, serviceEnter h c = endWith x st 0 0 d := by
  obtain ⟨-, -, asks⟩ := begin_some (by decide) hb
  rw [serviceEnter_begun hb hh he]
  unfold inItsMode
  split
  · exact ⟨_, turnAway_of_asks asks (by decide) _ d⟩
  · refine ⟨stBusy, ?_⟩
    obtain hu | hu := hu <;> simp [he, hu, hf]

theorem serviceEnter_drains (hb : begin h true 0x49 c = (some x, d)) (hh : h ≠ 0) (he : d.svc.entering = 0)
    (hm : d.chp.mode.settled = true) (hu : unstagedAll d ≠ 0 ∨ anyStaging d = true)
    (hf : bit x.entry.flags 4 = true) : serviceEnter h c = { d with svc := { d.svc with
      entering := h, drain := true, drainedStart := unstagedAll d } } := by
  obtain ⟨-, -, asks⟩ := begin_some (by decide) hb
  rw [serviceEnter_begun hb hh he,
    inItsMode_of_asks asks (Mode.of_settled hm) (modeRefuses_serviceEnter hm)]
  simp only [he, hf, ne_eq, not_true_eq_false, if_false, if_true]
  exact serviceReady_waits hu

theorem serviceExit_begun (hb : begin h true 0x4A c = (some x, d)) (hm : d.chp.mode = .service) :
    serviceExit h c = leaveService (bit x.entry.flags 4) (endWith x stSuccess 0 0 d) := by
  obtain ⟨-, -, asks⟩ := begin_some (by decide) hb
  simp only [serviceExit, hb]
  exact inItsMode_of_asks asks (by simp [hm]) (modeRefuses_serviceExit hm) _

theorem plannedCurtain_begun (hb : begin h true 0x43 c = (some x, d))
    (hm : d.chp.mode.settled = true ∨ d.chp.mode = .rehearsal) : plannedCurtain h c = startCurtain
      { cause := 0x06, linkKept := true, planned := true, after := field x.entry.p0 0 2, handle := h } d := by
  obtain ⟨-, -, asks⟩ := begin_some (by decide) hb
  have working : d.chp.mode ≠ .boot ∧ d.chp.mode ≠ .curtain ∧ d.chp.mode ≠ .sealed := by
    obtain hm | hm := hm
    · exact Mode.of_settled hm
    · simp [hm]
  simp only [plannedCurtain, hb]
  rw [if_neg (by simp [working])]
  exact inItsMode_of_asks asks working (modeRefuses_plannedCurtain hm) _

theorem fnReset_begun (hb : begin h true 0x44 c = (some x, d)) :
    fnReset h c = if fnPresent d (field x.entry.p0 0 6) = true then
        endWith x stSuccess (d.descs.filter (fun y => y.fn = field x.entry.p0 0 6)).length 0
          (resetFn (field x.entry.p0 0 6) d)
      else endWith x stNotFound 0 0 d := by
  simp only [fnReset, hb]
  cases h : fnPresent d (field x.entry.p0 0 6) <;> simp

end

/-- Settles O50. -/
theorem adminModes : Obligations.AdminModes := by
  refine ⟨fun h s x d hb hh hm he hu hs hf => ?_, fun h s x d hb hh he hu hf => ?_,
    fun h s x d hb hh hm he hu hf => ?_, fun h s x d hb hm hf => ?_, fun h s x d hb hm hf hmap hdone hdest => ?_,
    fun h s x d hb hm => ?_, fun h s x d hb hp => ?_, fun h s x d hb hp => ?_⟩
  all_goals
    obtain ⟨answers, found, -⟩ := begin_some (by decide) hb
    obtain rfl := handle_of_findDesc found
  · obtain ⟨t, ht, ho, hd⟩ := onDev_next (serviceEnter x.handle) s
    rw [serviceEnter_staged hb hh he hm hu hs hf] at hd
    obtain ⟨mode, cause⟩ := chp_enterService x 0 d
    exact ⟨t, ht, ho, hd ▸ mode, hd ▸ cause, hd ▸ findDesc_enterService x 0 d⟩
  · obtain ⟨t, ht, ho, hd⟩ := onDev_next (serviceEnter x.handle) s
    obtain ⟨st, ended⟩ := serviceEnter_unstaged hb hh he hu hf
    rw [ended] at hd
    exact ⟨t, ht, ho, hd ▸ answers.trans (answers_endWith ..), hd ▸ findDesc_endWith ..⟩
  · obtain ⟨t, ht, ho, hd⟩ := onDev_next (serviceEnter x.handle) s
    rw [serviceEnter_drains hb hh he hm hu hf] at hd
    refine ⟨t, ht, ho, ?_⟩
    rw [hd]
    exact ⟨rfl, rfl, answers.facet_eq (q := .chp)⟩
  · obtain ⟨t, ht, ho, hd⟩ := onDev_next (serviceExit x.handle) s
    rw [serviceExit_begun hb hm, hf] at hd
    refine ⟨t, ht, ho, ?_⟩
    rw [hd]
    have kept := answers.trans (answers_endWith x stSuccess 0 0 d)
    have drc := kept.keep Dev.drc fun _ => rfl
    have svc := kept.keep Dev.svc fun _ => rfl
    rw [← drc, ← svc, ← kept.keep xferDest fun _ => rfl]
    exact boot_leaveService _
  · obtain ⟨t, ht, ho, hd⟩ := onDev_next (serviceExit x.handle) s
    rw [serviceExit_begun hb hm, hf] at hd
    refine ⟨t, ht, ho, ?_⟩
    rw [hd]
    have kept := answers.trans (answers_endWith x stSuccess 0 0 d)
    have drc := kept.keep Dev.drc fun _ => rfl
    have svc := kept.keep Dev.svc fun _ => rfl
    exact settled_leaveService (by rw [drc, hmap]) (by rw [svc, hdone]) ((kept.keep xferDest fun _ => rfl).trans hdest)
  · obtain ⟨t, ht, ho, hd⟩ := onDev_next (plannedCurtain x.handle) s
    rw [plannedCurtain_begun hb hm] at hd
    obtain ⟨mode, terms⟩ := curtain_startCurtain
      { cause := 0x06, linkKept := true, planned := true, after := field x.entry.p0 0 2, handle := x.handle } d
    rw [← hd] at mode terms
    simp only [Dev.curtainTerms, Prod.mk.injEq] at terms
    obtain ⟨kept, planned, handle, after⟩ := terms
    exact ⟨t, ht, ho, mode, planned, kept, handle, after⟩
  · obtain ⟨t, ht, ho, hd⟩ := onDev_next (fnReset x.handle) s
    rw [fnReset_begun hb, if_pos hp] at hd
    have rings : (getFn t.dev (field x.entry.p0 0 6)).rings = ([], 0) :=
      hd ▸ ((answers_endWith ..).recounts.rings _).trans (rings_resetFn ..)
    exact ⟨t, ht, ho, hd ▸ findDesc_endWith .., congrArg Prod.fst rings, congrArg Prod.snd rings⟩
  · obtain ⟨t, ht, ho, hd⟩ := onDev_next (fnReset x.handle) s
    rw [fnReset_begun hb, if_neg (by simp [hp])] at hd
    exact ⟨t, ht, ho, hd ▸ findDesc_endWith .., hd ▸ answers.trans (answers_endWith ..)⟩

end Sys2Proof.Machine
end

section
/-!
PROOFS. A rehearsal's start (R38, R186, row 22 of Table 2.3).
-/

namespace Sys2Proof.Machine

/-- A rehearsal before its recomputation. -/
def rehearsalBegun (handle : Nat) (fromSlot : Bool) (d : Dev) : Dev :=
  let (key, d) := fresh (abandonCompaction { d with
    est := { d.est with probing := false, shareMa := 0, restOk := false } })
  transition .rehearsal 0x13 { d with
    reh := { d.reh with
      handle, key, written := [], burstBytes := 0, burstUj := 0, burstRate := 0 }
    chp := { d.chp with rehearsePend := d.chp.rehearsePend && !fromSlot } }

theorem startRehearsal_eq (handle : Nat) (fromSlot : Bool) (d : Dev) :
    startRehearsal handle fromSlot d = recomputeNow (rehearsalBegun handle fromSlot d) := rfl

/-- The budget that a recomputation of the device as it stands gives. -/
def budgetNow (d : Dev) : Nat := sumNat ((sumBlocks d).map (blkBudgetNow d))

theorem budget_recompute (d : Dev) : (recompute d).adm.budget = budgetNow d :=
  congrArg Adm.budget (recompute_adm d)

theorem budgetNow_rehearsalBegun (handle : Nat) (fromSlot : Bool) (d : Dev) :
    budgetNow (rehearsalBegun handle fromSlot d) = budgetNow (abandonCompaction d) :=
  (reports_transition ..).keep budgetNow fun _ => rfl

/-- While the pack holds and the budget stands, a rehearsal goes on. -/
theorem modeRows_rehearsal {d : Dev} (hm : d.chp.mode = .rehearsal) (hp : packHolds d = false)
    (hb : mib ≤ d.adm.budget) : modeRows d = d := by
  simp only [packHolds, Bool.or_eq_false_iff, Bool.not_eq_false'] at hp
  obtain ⟨⟨⟨present, closed⟩, drain⟩, -⟩ := hp
  simp [modeRows, hm, Mode.admits, present, closed, drain, hb]

/-- The recomputation at the change of mode leaves a rehearsal that has its pack and its budget. -/
theorem recomputeNow_rehearsal {d : Dev} (hm : d.chp.mode = .rehearsal) (hp : packHolds d = false)
    (hb : mib ≤ budgetNow d) : (recomputeNow d).chp = d.chp ∧ (recomputeNow d).reh = d.reh := by
  have recounts := recounts_recounted false d
  have reh : (recounted false d).reh = d.reh := recounts.keep Dev.reh fun _ => rfl
  have chp := chp_recounted false d
  have budget : (recounted false d).adm.budget = budgetNow d :=
    (recounts.keep (fun e => e.adm.budget) fun _ => rfl).trans (budget_recompute d)
  have holds : packHolds (recounted false d) = packHolds d := by
    rw [recounts.keep packHolds fun _ => rfl]
    simp [packHolds, countGood, recompute_adm]
  have stays : reasonsChanged (recounted false d) = recounted false d :=
    reasonsChanged_of_stays (modeRows_rehearsal (by rw [chp, hm]) (by rw [holds, hp]) (by rwa [budget]))
  unfold recomputeNow
  split
  · rw [reevaluate_eq, stays]
    exact ⟨chp, reh⟩
  · exact ⟨rfl, rfl⟩

/-- A rehearsal that starts with its pack and its budget. -/
theorem rehearsal_startRehearsal {d : Dev} (hp : packHolds d = false)
    (hb : mib ≤ (recompute (abandonCompaction d)).adm.budget) (handle : Nat) (fromSlot : Bool) :
    (startRehearsal handle fromSlot d).chp.mode = .rehearsal
      ∧ (startRehearsal handle fromSlot d).chp.rehearsePend = (d.chp.rehearsePend && !fromSlot)
      ∧ (startRehearsal handle fromSlot d).reh.handle = handle
      ∧ (startRehearsal handle fromSlot d).reh.burstBytes = 0 := by
  let e := rehearsalBegun handle fromSlot d
  have reports : Dev.Reports _ e := reports_transition ..
  have mode : e.chp.mode = .rehearsal := mode_transition ..
  have holds : packHolds e = packHolds d := reports.keep packHolds fun _ => rfl
  rw [budget_recompute, ← budgetNow_rehearsalBegun handle fromSlot] at hb
  obtain ⟨chp, reh⟩ := recomputeNow_rehearsal mode (by rw [holds, hp]) hb
  rw [startRehearsal_eq, chp, reh]
  exact ⟨mode, congrArg Chp.rehearsePend reports.chp_eq, congrArg Reh.handle reports.reh_eq,
    congrArg Reh.burstBytes reports.reh_eq⟩

/-! ### REHEARSE -/

theorem modeRefuses_rehearse {d : Dev} {x : Desc} (hm : d.chp.mode = .armed ∨ d.chp.mode = .derated) (hfn : x.fn = 0)
    (hop : x.entry.opcode = 0x42) : modeRefuses d x = none := by
  obtain hm | hm := hm <;> simp [modeRefuses, hm, hfn, hop]

/-- REHEARSE, once it has started in ARMED or DERATED. -/
theorem rehearse_begun {h : Nat} {c d : Dev} {x : Desc} (hb : begin h true 0x42 c = (some x, d))
    (hm : d.chp.mode = .armed ∨ d.chp.mode = .derated) :
    rehearse h c = if rehReady d = false then endWith x stBusy 0 0 d
      else if rehFits d = false then endWith x stEnergy 0 0 d
      else startRehearsal h false d := by
  obtain ⟨-, -, asks⟩ := begin_some (by decide) hb
  have working : d.chp.mode ≠ .rehearsal ∧ d.chp.mode ≠ .boot ∧ d.chp.mode ≠ .curtain ∧ d.chp.mode ≠ .sealed := by
    obtain hm | hm := hm <;> simp [hm]
  simp only [rehearse, hb]
  rw [if_neg (by simp [working]), inItsMode_of_asks asks working.2 (modeRefuses_rehearse hm)]
  simp only [Bool.not_eq_true']

/-- REHEARSE short of the guard ends. -/
theorem rehearse_short {h : Nat} {c d : Dev} {x : Desc} (hb : begin h true 0x42 c = (some x, d))
    (hm : d.chp.mode = .armed ∨ d.chp.mode = .derated) (hg : rehReady d = false ∨ rehFits d = false) :
    ∃ st, rehearse h c = endWith x st 0 0 d := by
  rw [rehearse_begun hb hm]
  split
  · exact ⟨_, rfl⟩
  next ready =>
  rw [if_pos (hg.resolve_left ready)]
  exact ⟨_, rfl⟩

/-! ### The lead's slot (R186) -/

theorem reports_foldl {α : Type} {f : Dev → α → Dev} (hf : ∀ e a, Dev.Reports e (f e a)) (l : List α) (d : Dev) :
    d.Reports (l.foldl f d) := by
  induction l generalizing d with
  | nil => exact .refl d
  | cons a l ih => exact (hf d a).trans (ih _)

section
variable {d : Dev} {q : FrameIn}

theorem arrive_carried (h : carried d q = true) (payload : List Byte) (f : Dev → Dev) :
    ∃ e, arrive q payload f d = f e ∧ d.Reports e := by
  simp only [carried, Bool.and_eq_true] at h
  obtain ⟨⟨on, trained⟩, intact⟩ := h
  refine ⟨countPort q.port 7 (wireLen payload) (countPort q.port 1 1 d), ?_,
    (reports_countPort ..).trans (reports_countPort ..)⟩
  simp [arrive, on, trained, intact]

theorem overTree_live (h : (getPort d q.port).dir ≠ 2) (f : Dev → Dev) : ∃ e, overTree q f d = f e ∧ d.FrameOnly e
    ∧ e.hrk = { d.hrk with ports := e.hrk.ports, routes := e.hrk.routes } := by
  rw [overTree, if_neg h]
  dsimp only
  split
  · exact ⟨_, rfl, frameOnly_hrk d _, rfl⟩
  · exact ⟨_, rfl, frameOnly_hrk d _, rfl⟩

theorem routed_forUs (h : forUs d q = true) (type : Nat) (payload : List Byte) (f : Dev → Dev) :
    ∃ e, routed q type payload f d = f e ∧ d.Reports e := by
  simp only [forUs, Bool.or_eq_true, decide_eq_true_eq, or_assoc] at h
  unfold routed
  dsimp only
  split
  · exact ⟨_, rfl, reports_foldl (fun _ _ => reports_putFrame ..) _ d⟩
  · next every =>
    rw [if_pos (by simpa using h.resolve_left every)]
    exact ⟨d, rfl, .refl d⟩

theorem acked_unseen (h : (q.ackReq && d.hrk.seenSeqs.contains (q.port, q.src, q.seq)) = false) (f : Dev → Dev) :
    ∃ e, acked q q.src f d = f e ∧ d.FrameOnly e := by
  have acks (p dst seq : Nat) (e : Dev) : e.FrameOnly (sendAck p dst seq e) :=
    Dev.FrameOnly.trans (e := { e with freeCtr := e.freeCtr + 1 }) (Dev.Reports.refl _) (frameOnly_sendOn ..)
  unfold acked
  dsimp only
  split
  · exact ⟨d, rfl, .refl d⟩
  next asked =>
  rw [if_neg (by simp_all)]
  exact ⟨_, rfl, (frameOnly_hrk d _).trans (acks ..)⟩

/-- A frame that reaches the device is dealt with after changes of the links alone. -/
theorem receive_heard (hh : heard d q = true) (type : Nat) (payload : List Byte) (f : Dev → Dev) :
    ∃ e, receive q type payload f d = f e ∧ d.FrameOnly e := by
  simp only [heard, Bool.and_eq_true, decide_eq_true_eq, Bool.not_eq_true'] at hh
  obtain ⟨⟨⟨carries, ours⟩, live⟩, unseen⟩ := hh
  obtain ⟨e₁, h₁, arrived⟩ := arrive_carried carries payload (overTree q (routed q type payload (acked q q.src f)))
  have hrk₁ : e₁.hrk = d.hrk := arrived.hrk_eq
  obtain ⟨e₂, h₂, treed, hrk₂⟩ := overTree_live (d := e₁) (q := q) (by rwa [getPort, hrk₁])
    (routed q type payload (acked q q.src f))
  obtain ⟨e₃, h₃, routes⟩ := routed_forUs (d := e₂) (q := q) (by rw [forUs, ownIndex, hrk₂, hrk₁]; exact ours)
    type payload (acked q q.src f)
  have hrk₃ : e₃.hrk = e₂.hrk := routes.hrk_eq
  obtain ⟨e₄, h₄, acks⟩ := acked_unseen (d := e₃) (q := q) (by rw [hrk₃, hrk₂, hrk₁]; exact unseen) f
  exact ⟨e₄, h₁.trans (h₂.trans (h₃.trans h₄)),
    arrived.frameOnly.trans (treed.trans (routes.frameOnly.trans acks))⟩

end

end Sys2Proof.Machine
end

section
/-!
PROOFS. A rehearsal's bursts, its end, and the reset of e_byte (R71, R73, R205, row 23 of Table 2.3; O44).
-/

namespace Sys2Proof.Machine

/-! ### A burst (R73) -/

theorem imageOnly_startTest (b : Nat) (d : Dev) (i : Nat) : d.ImageOnly (startTest b d i) :=
  (imageOnly_newId b d).trans (imageOnly_addRec ..)

theorem imageOnly_writeTest (b was now : Nat) (d : Dev) : d.ImageOnly (writeTest b was now d) :=
  (imageOnly_foldl (fun _ _ => imageOnly_startTest ..) _ d).trans
    (imageOnly_foldl (fun _ _ => (imageOnly_updRec ..).trans (imageOnly_journalBoth ..)) _ _)

/-- What a burst programs. -/
def burstWritten (d : Dev) : Dev :=
  (testBlocks d).foldl (fun e b =>
    writeTest b (Tab.get 0 d.reh.written b) (Tab.get 0 d.reh.written b + burstBytes d b) e) d

theorem imageOnly_burstWritten (d : Dev) : d.ImageOnly (burstWritten d) :=
  imageOnly_foldl (fun _ _ => imageOnly_writeTest ..) _ d

/-- What a rehearsal has written after a burst. -/
def burstReh (uj : Nat) (panic : Bool) (d : Dev) : Reh :=
  let bs := testBlocks d
  { d.reh with
    written := bs.foldl (fun t b => Tab.upd 0 t b (· + burstBytes d b)) d.reh.written
    burstBytes := if panic then d.reh.burstBytes else d.reh.burstBytes + sumNat (bs.map (burstBytes d))
    burstUj := if panic then d.reh.burstUj else d.reh.burstUj + uj
    burstRate := if panic || bs = [] then d.reh.burstRate else rateSum d / 1000 }

theorem burst_runs {d : Dev} (hm : d.chp.mode = .rehearsal) (hr : d.est.restWindow = false) (uj : Nat) (panic : Bool) :
    burst uj panic d = { burstWritten d with reh := burstReh uj panic d } := by
  have reh : (burstWritten d).reh = d.reh :=
    (imageOnly_burstWritten d).keep Dev.reh (fun _ => rfl) (fun _ _ _ => rfl)
  rw [burst, if_neg (by simp [hm, hr])]
  dsimp only
  rw [← burstWritten, reh]
  rfl

theorem burst_rests {d : Dev} (h : d.chp.mode ≠ .rehearsal ∨ d.est.restWindow = true) (uj : Nat) (panic : Bool) :
    burst uj panic d = d := by
  rw [burst, if_pos (by simpa using h)]

/-- A table to which each place of a list without repetition adds its value. -/
theorem tab_get_foldl_upd {bs : List Nat} (hbs : bs.Nodup) (g : Nat → Nat) (t : Tab Nat) (b : Nat) :
    Tab.get 0 (bs.foldl (fun t b => Tab.upd 0 t b (· + g b)) t) b
      = Tab.get 0 t b + if bs.contains b = true then g b else 0 := by
  induction bs generalizing t with
  | nil => rfl
  | cons a bs ih =>
    obtain ⟨ha, hbs⟩ := List.nodup_cons.mp hbs
    rw [List.foldl_cons, ih hbs, Tab.get_upd]
    by_cases h : a = b
    · subst h
      simp [ha]
    · simp [h, Ne.symm h]

theorem nodup_testBlocks (d : Dev) : (testBlocks d).Nodup := by
  unfold testBlocks sumBlocks blockList
  exact (List.nodup_range.filter _).filter _

/-! ### What a rehearsal measures (R71) -/

/-- What is known of the energy per byte. -/
def Dev.measure (d : Dev) : Nat × Nat × Bool × Option (Nat × Nat) :=
  (d.adm.eByteFj, d.adm.rateRef, d.adm.eByteMeasured, d.reh.storedEByte)

theorem Dev.Readmits.measure_eq {d e : Dev} (h : d.Readmits e) : e.measure = d.measure :=
  h.keep Dev.measure fun _ => rfl

/-- A frame of `f` as a whole. -/
def KeepsMeasure (f : Dev → Dev) : Prop := ∀ d, (f d).measure = d.measure

theorem KeepsMeasure.intro {f : Dev → Dev} (h : ∀ d, (f d).measure = d.measure) : KeepsMeasure f := h

/-- Stated of `estimate` itself: unfolded at a device, the kernel would run the energy integral. -/
theorem keepsMeasure_estimate : KeepsMeasure estimate := by
  delta estimate
  refine KeepsMeasure.intro fun d => ?_
  cases availableEnergy d
  rfl

theorem measure_disLimit (d : Dev) : (disLimit d).measure = d.measure := by
  have raised (e : Dev) : (raisePack 11 e).measure = e.measure := by
    unfold raisePack
    dsimp only
    (repeat' split)
    · rfl
    · exact (reports_postEvent ..).readmits.measure_eq
    · exact (reports_postEvent ..).readmits.measure_eq
  have cleared (e : Dev) : (clearPack 11 e).measure = e.measure := by
    unfold clearPack
    dsimp only
    (repeat' split)
    · rfl
    · exact keepsMeasure_estimate _
    · rfl
  unfold disLimit
  (repeat' split)
  · rfl
  · exact raised d
  · exact cleared d

theorem measure_energyChanged (d : Dev) : (energyChanged d).measure = d.measure := by
  have restarted (e : Dev) : (restartTime e).measure = e.measure := by
    unfold restartTime awaitResponses
    (repeat' split) <;> rfl
  have left (e : Dev) : (leaveSelfRefresh e).measure = e.measure :=
    (reports_foldl (fun e b => reports_countBlk b 16 8 e) _ e).readmits.measure_eq
  have curtain (e : Dev) : (intToCurtain 0x0B 3 e).measure = e.measure := by
    refine (readmits_recomputeNow _).measure_eq.trans ?_
    exact (readmits_transition ..).measure_eq.trans ((left _).trans (restarted e))
  have tested (e : Dev) : (marginTest e).measure = e.measure := by
    have falls (c : Prop) [Decidable c] : (if c then intToCurtain 0x0B 3 e else e).measure = e.measure := by
      split
      · exact curtain e
      · rfl
    unfold marginTest
    split
    · rfl
    · exact falls _
  unfold energyChanged
  split
  · exact tested d
  · exact (readmits_recomputeNow d).measure_eq

/-! ### A rehearsal's end (row 23) -/

/-- The energy per byte and its rate, taken as measured. -/
def measureTaken (e rate : Nat) (d : Dev) : Dev :=
  let d := soilArea d
  { d with
    adm := { d.adm with eByteFj := e, rateRef := rate, eByteMeasured := true }
    reh := { d.reh with
      written := [], handle := 0, key := 0, lastHt := d.tmb.ht, storedEByte := some (e, rate)
      storedPop := d.board.blocks, storedModules := modulesFound d } }

/-- The answer to a REHEARSE that has measured `fj`. -/
def rehearsalAnswered (handle fj : Nat) (d : Dev) : Dev :=
  match findDesc d handle with
  | some x => endWith x stSuccess fj 0 d
  | none => d

/-- The energy per byte of the bursts, in fJ. -/
def burstFj (d : Dev) : Nat := d.reh.burstUj * 10 ^ 9 / d.reh.burstBytes

section
variable {d : Dev} (hm : d.chp.mode = .rehearsal) (ht : testBlocks d = []) (hb : d.reh.burstBytes ≠ 0)
include hm ht hb

theorem rehComplete_measures : rehComplete d = reevaluate false (enterSettled 0x14
    (rehearsalAnswered d.reh.handle (burstFj d) (countChip 16 1 (disLimit (recompute
      (measureTaken (burstFj d * 103 / 100) d.reh.burstRate d)))))) := by
  have taken : measured d = (burstFj d, d) := if_neg hb
  have rate : burstRateOf d = (d.reh.burstRate, d) := if_neg hb
  rw [rehComplete, if_neg (by simp [hm, ht])]
  simp only [taken, rate]
  rfl

theorem settled_rehComplete : (rehComplete d).chp.mode.settled = true := by
  rw [rehComplete_measures hm ht hb]
  exact settled_reevaluate (settled_enterSettled ..)

theorem measure_rehComplete : (rehComplete d).measure
    = (burstFj d * 103 / 100, d.reh.burstRate, true, some (burstFj d * 103 / 100, d.reh.burstRate)) := by
  have answered (h fj : Nat) (e : Dev) : (rehearsalAnswered h fj e).measure = e.measure := by
    unfold rehearsalAnswered
    split
    · exact (answers_endWith ..).readmits.measure_eq
    · rfl
  have counted (e : Dev) : (countChip 16 1 e).measure = e.measure := (reports_countChip ..).readmits.measure_eq
  rw [rehComplete_measures hm ht hb, (readmits_reevaluate ..).measure_eq, (readmits_enterSettled ..).measure_eq,
    answered, counted, measure_disLimit, (readmits_recompute _).measure_eq]
  rfl

end

/-- The reset of e_byte puts back the data-sheet figure. -/
theorem measure_ebyteReset (d : Dev) : (ebyteReset d).measure
    = (dsEByte d.board.blocks * 12 / 10, dsRate d.board.blocks, false, none) :=
  (measure_energyChanged _).trans (measure_disLimit _)

/-! ### Rehearsal -/

/-- What a slot's frame leaves alone of the guard. -/
theorem rehSlot_framed {d e : Dev} (h : d.FrameOnly e) :
    rehModes e = rehModes d ∧ rehReady e = rehReady d ∧ rehFits e = rehFits d ∧ packHolds e = packHolds d
      ∧ (recompute (abandonCompaction e)).adm.budget = (recompute (abandonCompaction d)).adm.budget
      ∧ e.chp = d.chp := by
  simp only [budget_recompute]
  exact ⟨h.keep rehModes (fun _ => rfl) (fun _ _ _ => rfl), h.keep rehReady (fun _ => rfl) (fun _ _ _ => rfl),
    h.keep rehFits (fun _ => rfl) (fun _ _ _ => rfl), h.keep packHolds (fun _ => rfl) (fun _ _ _ => rfl),
    h.keep (fun d => budgetNow (abandonCompaction d)) (fun _ => rfl) (fun _ _ _ => rfl),
    h.keep Dev.chp (fun _ => rfl) (fun _ _ _ => rfl)⟩

/-- Settles O44. -/
theorem rehearsal : Obligations.Rehearsal := by
  refine ⟨fun h s x d hb hm => ?_, fun q n s hh => ?_, fun s hpend hm hr hf hp hb => ?_, fun u p s hm hw => ?_,
    fun u p s h => onDev_idle (burst_rests h u p), fun s hm ht hb => ?_, fun s => ?_⟩
  · obtain ⟨answers, found, -⟩ := begin_some (by decide) hb
    obtain rfl := handle_of_findDesc found
    obtain ⟨t, ht, ho, hd⟩ := onDev_next (rehearse x.handle) s
    refine ⟨t, ht, ho, fun hr hf hp hbudget => ?_, fun hg => ?_⟩
    · rw [hd, rehearse_begun hb hm, if_neg (by simp [hr]), if_neg (by simp [hf])]
      obtain ⟨mode, -, handle, bytes⟩ := rehearsal_startRehearsal hp hbudget x.handle false
      exact ⟨mode, handle, bytes⟩
    · obtain ⟨st, ended⟩ := rehearse_short hb hm hg
      rw [hd, ended]
      exact ⟨answers.trans (answers_endWith ..), findDesc_endWith ..⟩
  · obtain ⟨e, he, framed⟩ := receive_heard hh 7 (leBytes 8 n) rehSlot
    obtain ⟨modes, ready, fits, holds, budget, chp⟩ := rehSlot_framed framed
    obtain ⟨t, ht, ho, hd⟩ := onDev_next (receive q 7 (leBytes 8 n) rehSlot) s
    rw [he, rehSlot, modes, ready, fits] at hd
    refine ⟨t, ht, ho, fun hm hr hf hp hbudget => ?_, fun hg => ?_⟩
    · rw [if_pos (by simp [hm, hr, hf])] at hd
      obtain ⟨mode, pend, -⟩ := rehearsal_startRehearsal (holds.trans hp) (budget ▸ hbudget) 0 true
      exact ⟨hd ▸ mode, hd ▸ pend.trans (Bool.and_false _)⟩
    · rw [if_neg (by obtain h | h | h := hg <;> simp [h])] at hd
      rw [hd, ← chp]
  · obtain ⟨t, ht, ho, hd⟩ := onDev_next (fun d => if d.chp.rehearsePend && rehModes d && rehReady d && rehFits d
      then startRehearsal 0 true d else d) s
    rw [if_pos (by simp [hpend, hm, hr, hf])] at hd
    obtain ⟨mode, pend, -⟩ := rehearsal_startRehearsal hp hb 0 true
    exact ⟨t, ht, ho, hd ▸ mode, hd ▸ pend.trans (Bool.and_false _)⟩
  · obtain ⟨t, ht, ho, hd⟩ := onDev_next (burst u p) s
    rw [burst_runs hm hw] at hd
    refine ⟨t, ht, ho, ?_⟩
    rw [hd]
    refine ⟨?_, ?_, tab_get_foldl_upd (nodup_testBlocks _) _ _, ?_⟩
    · cases p <;> rfl
    · cases p <;> rfl
    · have written := imageOnly_burstWritten s.dev
      exact ⟨congrArg (fun d : Dev => { d with reh := burstReh u p s.dev }) written.bare, written.fns⟩
  · obtain ⟨t, ht', ho, hd⟩ := onDev_next rehComplete s
    have measure := measure_rehComplete hm ht hb
    rw [← hd] at measure
    simp only [Dev.measure, Prod.mk.injEq] at measure
    obtain ⟨fj, rate, known, -⟩ := measure
    exact ⟨t, ht', ho, hd ▸ settled_rehComplete hm ht hb, known, fj, rate⟩
  · obtain ⟨t, ht, ho, hd⟩ := onDev_next ebyteReset s
    have measure := measure_ebyteReset s.dev
    rw [← hd] at measure
    simp only [Dev.measure, Prod.mk.injEq] at measure
    obtain ⟨fj, -, known, stored⟩ := measure
    exact ⟨t, ht, ho, known, fj, stored⟩

end Sys2Proof.Machine
end

section
/-!
PROOFS. The time base (chapter 3): what tracing the timing state does besides, how a reference steers, the settings
(O20) and the references (O21).
-/

namespace Sys2Proof.Machine

/-! ### Changes of the time base alone -/

/-- `e` is `d` with the time base and the free counter changed, and reports added. -/
def Dev.Timed (d e : Dev) : Prop := Dev.Reports { d with tmb := e.tmb, freeCtr := e.freeCtr } e

theorem Dev.Timed.trans {d e a : Dev} (h : d.Timed e) (g : e.Timed a) : d.Timed a :=
  ⟨g.bare.trans (congrArg (fun x : Dev => { x with tmb := a.tmb, freeCtr := a.freeCtr }) h.bare),
    fun f => (g.fns f).trans (h.fns f)⟩

/-- What such a change leaves alone. -/
theorem Dev.Timed.keep {α : Type} {d e : Dev} (h : d.Timed e) (f : Dev → α) (hf : ∀ d, f d.bare = f d)
    (ht : ∀ (d : Dev) tmb freeCtr, f { d with tmb, freeCtr } = f d) : f e = f d :=
  (Dev.Reports.keep h f hf).trans (ht ..)

/-- Reports after a change of the time base: it is as it was set. -/
theorem Dev.Reports.tmbOnly {d e : Dev} {tmb : Tmb} (h : Dev.Reports { d with tmb } e) :
    Dev.Reports { d with tmb := e.tmb } e := by
  have set : e.tmb = tmb := h.tmb_eq
  rwa [set]

theorem Dev.Reports.timed {d e : Dev} {tmb : Tmb} (h : Dev.Reports { d with tmb } e) : d.Timed e := by
  have set : e.tmb = tmb := h.tmb_eq
  have free : e.freeCtr = d.freeCtr := h.freeCtr_eq
  unfold Dev.Timed
  rw [set, free]
  exact h

/-! ### The reference (R55) -/

theorem refPresent_iff (t : Tmb) : t.refPresent = true ↔ (t.src = 1 ∧ t.ppsOk = true)
    ∨ (t.src = 2 ∧ t.ptmFails < 3 ∧ t.epochNs ≠ 0)
    ∨ (t.src = 3 ∧ t.ppsOk = true ∧ t.ptmFails < 3 ∧ t.epochNs ≠ 0) := by
  unfold Tmb.refPresent
  split <;> simp_all [and_assoc]

theorem refOk_iff {d : Dev} : refOk d = true ↔ d.tmb.follower = false ∧ ((d.tmb.src = 1 ∧ d.tmb.ppsOk = true)
    ∨ (d.tmb.src = 2 ∧ d.tmb.ptmFails < 3 ∧ d.tmb.epochNs ≠ 0)
    ∨ (d.tmb.src = 3 ∧ d.tmb.ppsOk = true ∧ d.tmb.ptmFails < 3 ∧ d.tmb.epochNs ≠ 0)) := by
  rw [refOk, Bool.and_eq_true, Bool.not_eq_true', refPresent_iff]

/-! ### Tracing the timing state (R55, R58) -/

theorem reports_traceTime (d : Dev) : d.Reports (traceTime d) := reports_trace ..

/-- The reference stands and no holdover begins. -/
theorem lostSteering_eq_false {d e : Dev} (hr : refOk d = true → refOk e = true)
    (hs : e.tmb.state = 3 → d.tmb.state = 3) : lostSteering d e = false := by
  unfold lostSteering
  cases h : refOk d
  · simpa using fun hd he => hd (hs he)
  · simpa [hr h] using fun hd he => hd (hs he)

/-- A reference that is gone. -/
theorem lostSteering_of_lost {d e : Dev} (hr : refOk d = true) (he : refOk e = false)
    (hs : e.tmb.src = d.tmb.src) (hf : e.tmb.follower = d.tmb.follower) : lostSteering d e = true := by
  obtain ⟨master, source⟩ := refOk_iff.mp hr
  have sourced : d.tmb.src ≠ 0 := by
    obtain ⟨h, -⟩ | ⟨h, -⟩ | ⟨h, -⟩ := source <;> simp [h]
  simp [lostSteering, hr, he, hs, hf, sourced, master]

section
variable {f : Dev → Dev} {d : Dev}

variable (f d) in
theorem reports_tracingTime :
    Dev.Reports (if lostSteering d (f d) then holdFrequency (f d) else f d) (tracingTime f d) := by
  unfold tracingTime
  dsimp only
  generalize (if lostSteering d (f d) then holdFrequency (f d) else f d) = e
  split
  · exact .refl e
  · exact reports_traceTime e

theorem tracingTime_of_kept (h : lostSteering d (f d) = false) : (f d).Reports (tracingTime f d) := by
  simpa [h] using reports_tracingTime f d

theorem tracingTime_of_lost (h : lostSteering d (f d) = true) :
    (holdFrequency (f d)).Reports (tracingTime f d) := by
  simpa [h] using reports_tracingTime f d

theorem reports_holdFrequency {d e : Dev} (h : d.Reports e) : (holdFrequency d).Reports (holdFrequency e) :=
  ⟨congrArg holdFrequency h.bare, h.fns⟩

theorem tracingTime_idle (h : f d = d) : tracingTime f d = d := by
  have stands : lostSteering d d = false := lostSteering_eq_false id id
  simp [tracingTime, h, stands]

variable (f d)

theorem timed_tracingTime : (f d).Timed (tracingTime f d) := by
  cases h : lostSteering d (f d)
  · exact (tracingTime_of_kept h).timed
  · exact Dev.Timed.trans (e := holdFrequency (f d)) (Dev.Reports.refl _) (tracingTime_of_lost h).timed

/-- Of the time base, tracing writes at most the frequency held. -/
theorem tmb_tracingTime : ∃ held up gap,
    (tracingTime f d).tmb = { (f d).tmb with held, heldUp := up, heldGap := gap } := by
  cases h : lostSteering d (f d)
  · exact ⟨_, _, _, (tracingTime_of_kept h).tmb_eq⟩
  · exact ⟨_, _, _, (tracingTime_of_lost h).tmb_eq⟩

/-- A field of the time base that no holding of a frequency writes. -/
theorem tracingTime_keep {α : Type} (g : Tmb → α)
    (hg : ∀ (t : Tmb) held up gap, g { t with held, heldUp := up, heldGap := gap } = g t) :
    g (tracingTime f d).tmb = g (f d).tmb := by
  obtain ⟨held, up, gap, h⟩ := tmb_tracingTime f d
  rw [h, hg]

end

/-! ### Steering (R55, R56) -/

/-- The time base once HT is brought toward a target. -/
def Tmb.steered (target : Int) (t : Tmb) : Tmb :=
  if (t.stepThresh.toNat : Int) < target - t.ht then
    { t with ht := target.toNat, slot := 0, lag := 0, held := false, stepped := true, steps := satAdd 16 t.steps 1 }
  else { t with lag := (t.ht : Int) - target, held := false }

theorem reports_stepForward (target : Nat) (d : Dev) : Dev.Reports { d with tmb := { d.tmb with
    ht := target, slot := 0, lag := 0, held := false, stepped := true, steps := satAdd 16 d.tmb.steps 1 } }
    (stepForward target d) := reports_trace ..

theorem reports_steer (target : Int) (d : Dev) :
    Dev.Reports { d with tmb := d.tmb.steered target } (steer target d) := by
  unfold steer Tmb.steered
  simp only [Int.neg_sub]
  split
  · exact reports_stepForward ..
  · exact .refl _

/-- The time base once a reference's offset is measured, and steered to where it is a grandmaster's. -/
def Tmb.referred (target : Int) (t : Tmb) : Tmb :=
  if t.follower then { t with refOffset := (t.ht : Int) - target }
  else Tmb.steered target { t with refOffset := (t.ht : Int) - target }

theorem reports_referenceTarget (target : Int) (d : Dev) :
    Dev.Reports { d with tmb := d.tmb.referred target } (referenceTarget target d) := by
  unfold referenceTarget Tmb.referred
  dsimp only
  split
  · exact .refl _
  · exact reports_steer target { d with tmb := { d.tmb with refOffset := (d.tmb.ht : Int) - target } }

/-- What steering leaves alone of the time base. -/
theorem Tmb.steered_keep {α : Type} (g : Tmb → α) (hg : ∀ (t : Tmb) ht slot lag held stepped steps,
    g { t with ht, slot, lag, held, stepped, steps } = g t) (target : Int) (t : Tmb) : g (t.steered target) = g t := by
  unfold Tmb.steered
  split
  · exact hg ..
  · exact hg t t.ht t.slot _ _ t.stepped t.steps

/-- What a reference's target leaves alone of the time base. -/
theorem Tmb.referred_keep {α : Type} (g : Tmb → α) (hg : ∀ (t : Tmb) ht slot lag held stepped steps refOffset,
    g { t with ht, slot, lag, held, stepped, steps, refOffset } = g t) (target : Int) (t : Tmb) :
    g (t.referred target) = g t := by
  have offset : g { t with refOffset := (t.ht : Int) - target } = g t :=
    hg t t.ht t.slot t.lag t.held t.stepped t.steps _
  unfold Tmb.referred
  split
  · exact offset
  · exact (Tmb.steered_keep g (fun t ht slot lag held stepped steps =>
      hg t ht slot lag held stepped steps t.refOffset) ..).trans offset

@[simp] theorem Tmb.referred_refOffset (target : Int) (t : Tmb) :
    (t.referred target).refOffset = (t.ht : Int) - target := by
  unfold Tmb.referred
  split
  · rfl
  · exact Tmb.steered_keep Tmb.refOffset (by intros; rfl) ..

section
variable {target : Int} {t : Tmb}

theorem Tmb.referred_of_follower (h : t.follower = true) :
    t.referred target = { t with refOffset := (t.ht : Int) - target } := if_pos h

/-- A lag beyond the step threshold: HT is the target at once. -/
theorem Tmb.ht_referred_step (hf : t.follower = false) (h : (t.stepThresh.toNat : Int) < target - t.ht) :
    ((t.referred target).ht : Int) = target := by
  rw [Tmb.referred, if_neg (by simp [hf]), Tmb.steered, if_pos h]
  exact Int.toNat_of_nonneg (by omega)

/-- A lag within the threshold is slewed. -/
theorem Tmb.referred_slew (hf : t.follower = false) (h : target - t.ht ≤ (t.stepThresh.toNat : Int)) :
    t.referred target
      = { t with refOffset := (t.ht : Int) - target, lag := (t.ht : Int) - target, held := false } := by
  rw [Tmb.referred, if_neg (by simp [hf]), Tmb.steered, if_neg (by simpa using h)]

end

/-! ### HT and the epoch label (R50, R51) -/

section
variable {w : W64} {d : Dev}

theorem setHt_of_follower (h : d.tmb.follower = true) : setHt w d = d := by simp [setHt, h]

section
variable (hf : d.tmb.follower = false)
include hf

theorem setHt_refused (h : 0xF000000000000000 ≤ w.toNat ∨ (d.tmb.epochCommitted = true ∧ w.toNat ≤ d.tmb.ht)
    ∨ (d.tmb.epochCommitted = false ∧ epochNewest d ≠ 0 ∧ w.toNat ≤ epochNewest d)) :
    setHt w d = configRejected 78 0x20038 d := by
  obtain wraps | ⟨committed, back⟩ | ⟨fresh, stamped, back⟩ := h
  · simp [setHt, hf, wraps]
  · simp [setHt, hf, committed, back]
  · simp [setHt, hf, fresh, stamped, back]

variable (hw : w.toNat < 0xF000000000000000)
include hw

theorem setHt_forward (h : d.tmb.ht < w.toNat)
    (he : d.tmb.epochCommitted = true ∨ epochNewest d = 0 ∨ epochNewest d < w.toNat) :
    setHt w d = stepForward w.toNat d := by
  have ahead : ¬ w.toNat ≤ d.tmb.ht := by omega
  have below : ¬ 0xF000000000000000 ≤ w.toNat := by omega
  cases hc : d.tmb.epochCommitted
  · have above : epochNewest d ≠ 0 → epochNewest d < w.toNat := fun hn =>
      (he.resolve_left (by simp [hc])).resolve_left hn
    simpa [setHt, hf, below, hc, h] using fun hle hn => absurd (above hn) (by omega)
  · simp [setHt, hf, below, hc, ahead]

theorem setHt_back (h : w.toNat ≤ d.tmb.ht) (hc : d.tmb.epochCommitted = false)
    (he : epochNewest d = 0 ∨ epochNewest d < w.toNat) :
    setHt w d = { d with tmb := { d.tmb with ht := w.toNat, slot := 0, lag := 0, held := false } } := by
  have below : ¬ 0xF000000000000000 ≤ w.toNat := by omega
  have back : ¬ d.tmb.ht < w.toNat := by omega
  simpa [setHt, hf, below, hc, back] using fun hle hn => absurd (he.resolve_left hn) (by omega)

end

theorem setEpoch_of_committed (h : d.tmb.epochCommitted = true) : setEpoch w d = d := if_pos h

/-- The device with its epoch labelled. -/
def labelled (w : W64) (d : Dev) : Dev := { d with
  tmb := { d.tmb with epochNs := w }
  flash := { d.flash with epoch := d.flash.epoch.map (fun e => (e.1, w)) } }

theorem setEpoch_of_fresh (h : d.tmb.epochCommitted = false) : setEpoch w d = labelled w d :=
  if_neg (by simp [h])

/-- A label leaves the reference as it is. -/
theorem lostSteering_labelled_kept (h : w ≠ 0 ∨ refOk d = false) : lostSteering d (labelled w d) = false := by
  refine lostSteering_eq_false (fun hr => ?_) id
  have label : w ≠ 0 := h.resolve_right (by simp [hr])
  rw [refOk_iff] at hr ⊢
  exact ⟨hr.1, hr.2.imp_right (Or.imp (fun hp => ⟨hp.1, hp.2.1, label⟩) (fun hp => ⟨hp.1, hp.2.1, hp.2.2.1, label⟩))⟩

/-- With no label left a reference other than PPS is lost. -/
theorem lostSteering_labelled_lost (hw : w = 0) (hr : refOk d = true) (hs : d.tmb.src ≠ 1) :
    lostSteering d (labelled w d) = true := by
  refine lostSteering_of_lost hr ?_ rfl rfl
  rw [Bool.eq_false_iff, Ne, refOk_iff]
  rintro ⟨-, pps | ptm | both⟩
  · exact hs pps.1
  · exact ptm.2.2 hw
  · exact both.2.2.2 hw

end

/-! ### The PPS output (R56) -/

/-- The output is due in a cycle that holds its phase. -/
theorem ppsDue_iff {t : Tmb} (h : t.slot ≤ t.ht) :
    ppsDue t = true ↔ ∃ k < t.span, (t.ht - t.slot + k) % 4000000000 = t.ppsPhase.toNat % 4000000000 := by
  have span : t.span ≤ 5 := by
    unfold Tmb.span
    dsimp only
    (repeat' split) <;> omega
  rw [ppsDue, second, decide_eq_true_iff]
  constructor
  · exact fun hd => ⟨(t.ppsPhase.toNat % 4000000000 + 4000000000 - (t.ht - t.slot) % 4000000000) % 4000000000, hd,
      by omega⟩
  · rintro ⟨k, hk, hp⟩
    omega

/-! ### Settings -/

theorem onDev_of_eq {f : Dev → Dev} {s : State} {d : Dev} (h : f s.dev = d) : onDev f s = .next { s with dev := d } := by
  rw [onDev, h]

/-- Settles O20: the writes of HT and of the label case by case; a label's loss of the reference is what tracing the
timing state finds. -/
theorem timeSettings : Obligations.TimeSettings := by
  refine ⟨fun w s hf => onDev_idle (setHt_of_follower hf), fun w s hf h => ?_, fun w s hf hw hlt he => ?_,
    fun w s hf hw hle hc he => onDev_of_eq (setHt_back hf hw hle hc he),
    fun w s hc => onDev_idle (tracingTime_idle (setEpoch_of_committed hc)), fun w s hc => ?_, fun s => ?_,
    fun s hen hp hv ho => ?_, fun s hen hp hv ho => ?_, fun s h => ?_, fun t h => ppsDue_iff h⟩
  · obtain ⟨t, ht, ho, hd⟩ := onDev_next (setHt w) s
    refine ⟨t, ht, ho, ?_⟩
    rw [hd, setHt_refused hf h]
    exact reports_configRejected ..
  · obtain ⟨t, ht, ho, hd⟩ := onDev_next (setHt w) s
    refine ⟨t, ht, ho, ?_⟩
    rw [hd, setHt_forward hf hw hlt he]
    exact reports_stepForward ..
  · obtain ⟨t, ht, ho, hd⟩ := onDev_next (tracingTime (setEpoch w)) s
    have set : setEpoch w s.dev = labelled w s.dev := setEpoch_of_fresh hc
    have timed := timed_tracingTime (setEpoch w) s.dev
    rw [← hd, set] at timed
    refine ⟨t, ht, ho, timed, fun hk => ?_, fun hw hr hs => ?_⟩
    · have kept := tracingTime_of_kept (f := setEpoch w) (d := s.dev) (by rw [set]; exact lostSteering_labelled_kept hk)
      rw [hd, kept.tmb_eq, set]
      rfl
    · have lost := tracingTime_of_lost (f := setEpoch w) (d := s.dev)
        (by rw [set]; exact lostSteering_labelled_lost hw hr hs)
      rw [hd, lost.tmb_eq, set]
      rfl
  · refine onDev_of_eq ?_
    dsimp only
    split
    · next h => simp [h]
    · next h => simp [h]
  · refine onDev_of_eq ?_
    simp [ppsOutEdge, hen, hp, hv, ho]
  · refine onDev_of_eq ?_
    by_cases fallen : s.dev.tmb.ppsRise + 4000000 ≤ s.dev.tmb.ht
    · simp [ppsOutEdge, hen, hp, hv, ho, fallen]
    · have high : s.dev.tmb.ht < s.dev.tmb.ppsRise + 4000000 := by omega
      have stands : ppsOutEdge s.dev = s.dev := by simp [ppsOutEdge, hen, hp, hv, ho, fallen]
      rw [stands, decide_eq_true high, ← ho]
  · refine onDev_of_eq ?_
    obtain h | h | h := h <;> simp [ppsOutEdge, h]

/-! ### Edges of PPS_IN (R55) -/

/-- The time base after an edge of the selected polarity. -/
def Tmb.ppsTaken (t : Tmb) : Tmb :=
  if ppsSteers t then Tmb.referred (nearestPhase t.ht t.ppsPhase.toNat) { t with ppsOk := true }
  else { t with ppsOk := true }

/-- What an edge leaves alone of the time base. -/
theorem Tmb.ppsTaken_keep {α : Type} (g : Tmb → α) (hg : ∀ (t : Tmb) ht slot lag held stepped steps refOffset,
    g { t with ht, slot, lag, held, stepped, steps, refOffset } = g t) (t : Tmb) :
    g t.ppsTaken = g { t with ppsOk := true } := by
  unfold Tmb.ppsTaken
  split
  · exact Tmb.referred_keep g hg ..
  · rfl

/-- With PPS there, the source steers by its edges. -/
theorem ppsSteers_eq (t : Tmb) :
    ((t.src = 1 || t.src = 3) && Tmb.refPresent { t with ppsOk := true }) = ppsSteers t := by
  have source : Tmb.src { t with ppsOk := true } = t.src := rfl
  rw [Bool.eq_iff_iff, Bool.and_eq_true, refPresent_iff, source]
  by_cases pps : t.src = 1
  · simp [ppsSteers, pps]
  · by_cases both : t.src = 3
    · simp [ppsSteers, both]
    · simp [ppsSteers, pps, both]

section
variable {d : Dev}

theorem ppsEdge_taken (hp : d.tmb.powered = true) (hv : d.pins.vaux3 = true) :
    ppsEdge d.tmb.ppsFalling d = if ppsSteers d.tmb then
        referenceTarget (nearestPhase d.tmb.ht d.tmb.ppsPhase.toNat) { d with tmb := { d.tmb with ppsOk := true } }
      else { d with tmb := { d.tmb with ppsOk := true } } := by
  rw [ppsEdge, if_neg (by simp [hp, hv]), ← ppsSteers_eq]
  rfl

theorem reports_ppsEdge (hp : d.tmb.powered = true) (hv : d.pins.vaux3 = true) :
    Dev.Reports { d with tmb := d.tmb.ppsTaken } (ppsEdge d.tmb.ppsFalling d) := by
  rw [ppsEdge_taken hp hv]
  unfold Tmb.ppsTaken
  split
  · exact reports_referenceTarget (nearestPhase d.tmb.ht d.tmb.ppsPhase.toNat)
      { d with tmb := { d.tmb with ppsOk := true } }
  · exact .refl _

theorem ppsEdge_idle {f : Bool} (h : f ≠ d.tmb.ppsFalling ∨ d.tmb.powered = false ∨ d.pins.vaux3 = false) :
    ppsEdge f d = d := by
  obtain h | h | h := h <;> simp [ppsEdge, h]

/-- An edge loses no reference. -/
theorem lostSteering_ppsTaken {e : Dev} (h : e.tmb = d.tmb.ppsTaken) : lostSteering d e = false := by
  have follower : d.tmb.ppsTaken.follower = d.tmb.follower := Tmb.ppsTaken_keep Tmb.follower (by intros; rfl) _
  have state : d.tmb.ppsTaken.state = d.tmb.state := Tmb.ppsTaken_keep Tmb.state (by intros; rfl) _
  have present : d.tmb.ppsTaken.refPresent = Tmb.refPresent { d.tmb with ppsOk := true } :=
    Tmb.ppsTaken_keep Tmb.refPresent (by intros; rfl) _
  refine lostSteering_eq_false (fun hr => ?_) (fun he => by rwa [h, state] at he)
  obtain ⟨master, source⟩ := refOk_iff.mp hr
  rw [refOk, h, follower, present, master, Bool.not_false, Bool.true_and, refPresent_iff]
  exact source.imp (And.imp_right fun _ => rfl) (Or.imp_right (And.imp_right (And.imp_left fun _ => rfl)))

end

/-! ### Loss of the PPS edges (R55) -/

/-- The device after three seconds without an edge. -/
def ppsGone (d : Dev) : Dev := { d with tmb := { d.tmb with ppsOk := false } }

theorem lostSteering_ppsGone {d : Dev} (hr : refOk d = true) (hs : d.tmb.src ≠ 2) :
    lostSteering d (ppsGone d) = true := by
  refine lostSteering_of_lost hr ?_ rfl rfl
  rw [Bool.eq_false_iff, Ne, refOk_iff]
  rintro ⟨-, pps | ptm | both⟩
  · exact Bool.false_ne_true pps.2
  · exact hs ptm.1
  · exact Bool.false_ne_true both.2.1

/-! ### PTM (R243) -/

/-- PTM's part under SRC 3. -/
def Tmb.ptmSecond (target : Int) (t : Tmb) : Tmb :=
  if wholeSeconds ((t.ht : Int) - t.lag) target = 0 || !t.ppsOk then t
  else t.referred ((t.ht : Int) - t.lag + wholeSeconds ((t.ht : Int) - t.lag) target * second)

/-- The time base after an exchange that brought PTM's time in ns. -/
def Tmb.ptmTaken (ns : Nat) (t : Tmb) : Tmb :=
  if t.epochNs = 0 then { t with ptmFails := 0, ptmOk := true }
  else if t.src = 2 then Tmb.referred (((ns : Int) - t.epochNs.toNat) * 4) { t with ptmFails := 0, ptmOk := true }
  else Tmb.ptmSecond (((ns : Int) - t.epochNs.toNat) * 4) { t with ptmFails := 0, ptmOk := true }

/-- The time base after an exchange. -/
def Tmb.ptmAnswered (t : Tmb) : Option Nat → Tmb
  | none => { t with ptmFails := t.ptmFails + 1, ptmOk := false }
  | some ns => t.ptmTaken ns

/-- What an answered exchange leaves alone of the time base. -/
theorem Tmb.ptmTaken_keep {α : Type} (g : Tmb → α) (hg : ∀ (t : Tmb) ht slot lag held stepped steps refOffset,
    g { t with ht, slot, lag, held, stepped, steps, refOffset } = g t) (ns : Nat) (t : Tmb) :
    g (t.ptmTaken ns) = g { t with ptmFails := 0, ptmOk := true } := by
  unfold Tmb.ptmTaken Tmb.ptmSecond
  (repeat' split)
  · rfl
  · exact Tmb.referred_keep g hg ..
  · rfl
  · exact Tmb.referred_keep g hg ..

/-- An exchange was answered. -/
def ptmExchanged (d : Dev) : Dev :=
  { emit (.ptmRequest d.tmb.ht) d with tmb := { d.tmb with ptmFails := 0, ptmOk := true } }

section
variable {d : Dev} {r : Option Nat}

theorem reports_ptmSecond (target : Int) (e : Dev) :
    Dev.Reports { e with tmb := e.tmb.ptmSecond target } (ptmSecond target e) := by
  unfold ptmSecond Tmb.ptmSecond
  dsimp only
  split
  · exact .refl _
  · exact reports_referenceTarget ..

theorem reports_ptmRequest (hp : d.tmb.powered = true) (hl : linkUp d = true) (he : d.ept.ptmEn = true)
    (hs : d.tmb.src = 2 ∨ d.tmb.src = 3) : Dev.Reports { d with tmb := d.tmb.ptmAnswered r } (ptmRequest r d) := by
  have sent (tmb : Tmb) :
      Dev.Reports { d with tmb } { emit (.ptmRequest d.tmb.ht) d with tmb } := ⟨rfl, fun _ => rfl⟩
  rw [ptmRequest, if_neg (by simpa [hp, hl, he] using fun h => hs.resolve_left h)]
  cases r with
  | none => exact sent _
  | some ns =>
    show Dev.Reports { d with tmb := d.tmb.ptmTaken ns } (if d.tmb.epochNs = 0 then _ else if d.tmb.src = 2 then _ else _)
    unfold Tmb.ptmTaken
    split
    · exact sent _
    split
    · exact (sent _).trans (reports_referenceTarget (((ns : Int) - d.tmb.epochNs.toNat) * 4) (ptmExchanged d))
    · exact (sent _).trans (reports_ptmSecond (((ns : Int) - d.tmb.epochNs.toNat) * 4) (ptmExchanged d))

theorem ptmRequest_idle (h : d.tmb.powered = false ∨ linkUp d = false ∨ d.ept.ptmEn = false
    ∨ (d.tmb.src ≠ 2 ∧ d.tmb.src ≠ 3)) : ptmRequest r d = d := by
  obtain h | h | h | ⟨ptm, both⟩ := h
  · simp [ptmRequest, h]
  · simp [ptmRequest, h]
  · simp [ptmRequest, h]
  · simp [ptmRequest, ptm, both]

end

/-- Under SRC 3 and without PPS, PTM moves nothing. -/
theorem Tmb.ht_ptmTaken {t : Tmb} (hs : t.src = 3) (hp : t.ppsOk = false) (ns : Nat) : (t.ptmTaken ns).ht = t.ht := by
  unfold Tmb.ptmTaken Tmb.ptmSecond
  (repeat' split)
  · rfl
  · simp_all
  · rfl
  · simp_all

/-! ### Holdover (R58) -/

theorem reports_holdover {d : Dev} (hf : d.tmb.follower = true) (hp : d.tmb.powered = true) (hs : d.tmb.state ≠ 3) :
    Dev.Reports { d with tmb := { d.tmb with state := 3, goodCues := 0 } } (holdover d) := by
  rw [holdover, if_pos (by simp [hf, hp, hs])]
  exact reports_countChip ..

theorem holdover_idle {d : Dev} (h : d.tmb.follower = false ∨ d.tmb.powered = false ∨ d.tmb.state = 3) :
    holdover d = d := by
  obtain h | h | h := h <;> simp [holdover, h]

/-! ### References -/

/-- Settles O21: each of the three steps writes one known time base (`Tmb.ppsTaken`, `Tmb.ptmAnswered`, holdover), and
whether a reference is lost by it says whether HT is held. -/
theorem timeReferences : Obligations.TimeReferences := by
  refine ⟨fun s hp hv => ?_, fun f s h => onDev_idle (tracingTime_idle (ppsEdge_idle h)), fun s => ?_,
    fun r s hp hl he hs => ?_, fun r s h => onDev_idle (tracingTime_idle (ptmRequest_idle h)),
    fun s hf hp hs => ?_, fun s h => onDev_idle (tracingTime_idle (holdover_idle h))⟩
  · obtain ⟨t, ht, ho, hd⟩ := onDev_next (tracingTime (ppsEdge s.dev.tmb.ppsFalling)) s
    have edge := reports_ppsEdge hp hv
    have told := edge.trans (tracingTime_of_kept (lostSteering_ppsTaken edge.tmb_eq))
    rw [← hd] at told
    have tmb : t.dev.tmb = s.dev.tmb.ppsTaken := told.tmb_eq
    refine ⟨t, ht, ho, ?_, told.tmbOnly, ?_⟩
    · exact (congrArg Tmb.ppsOk tmb).trans (Tmb.ppsTaken_keep Tmb.ppsOk (by intros; rfl) _)
    rw [tmb, Tmb.ppsTaken]
    refine ⟨fun hst => ?_, fun hst hf hlag => ?_, fun hst hf hlag => ?_, fun h => ?_⟩
    · rw [if_pos hst, Tmb.referred_refOffset]
    · rw [if_pos hst]
      exact Tmb.ht_referred_step (t := { s.dev.tmb with ppsOk := true }) hf hlag
    · rw [if_pos hst, Tmb.referred_slew (t := { s.dev.tmb with ppsOk := true }) hf hlag]
      exact ⟨rfl, rfl, rfl⟩
    · split
      · next hst =>
        have hf : s.dev.tmb.follower = true := h.resolve_left (by simp [hst])
        rw [Tmb.referred_of_follower (t := { s.dev.tmb with ppsOk := true }) hf]
        exact ⟨rfl, rfl⟩
      · exact ⟨rfl, rfl⟩
  · obtain ⟨t, ht, ho, hd⟩ := onDev_next (tracingTime ppsGone) s
    refine ⟨t, ht, ho, ?_⟩
    rw [hd]
    refine ⟨tracingTime_keep _ _ Tmb.ppsOk (by intros; rfl), tracingTime_keep _ _ Tmb.ht (by intros; rfl),
      tracingTime_keep _ _ Tmb.lag (by intros; rfl), fun hr hs => ?_, fun hr => ?_, timed_tracingTime ppsGone s.dev⟩
    · exact congrArg Tmb.held (tracingTime_of_lost (f := ppsGone) (lostSteering_ppsGone hr hs)).tmb_eq
    · exact tracingTime_of_kept (f := ppsGone) (lostSteering_eq_false (by simp [hr]) id)
  · obtain ⟨t, ht, ho, hd⟩ := onDev_next (tracingTime (ptmRequest r)) s
    have asked := reports_ptmRequest (r := r) hp hl he hs
    have answered : (ptmRequest r s.dev).tmb = s.dev.tmb.ptmAnswered r := asked.tmb_eq
    have kept {α : Type} (g : Tmb → α)
        (hg : ∀ (t : Tmb) held up gap, g { t with held, heldUp := up, heldGap := gap } = g t) :
        g t.dev.tmb = g (s.dev.tmb.ptmAnswered r) := by
      rw [hd, tracingTime_keep _ _ g hg, answered]
    refine ⟨t, ht, ho, hd ▸ asked.timed.trans (timed_tracingTime ..), ?_⟩
    rw [kept Tmb.ptmFails (by intros; rfl), kept Tmb.ptmOk (by intros; rfl), kept Tmb.ht (by intros; rfl),
      kept Tmb.refOffset (by intros; rfl)]
    refine ⟨fun hr => ?_, fun hr => ?_, fun ns hr hs he => ?_, fun hs hp => ?_⟩
    · subst hr
      exact ⟨rfl, rfl, rfl⟩
    · obtain ⟨ns, rfl⟩ := Option.ne_none_iff_exists'.mp hr
      exact ⟨Tmb.ptmTaken_keep Tmb.ptmFails (by intros; rfl) .., Tmb.ptmTaken_keep Tmb.ptmOk (by intros; rfl) ..⟩
    · subst hr
      rw [Tmb.ptmAnswered, Tmb.ptmTaken, if_neg he, if_pos hs, Tmb.referred_refOffset]
    · cases r with
      | none => rfl
      | some ns => exact Tmb.ht_ptmTaken hs hp ns
  · obtain ⟨t, ht, ho, hd⟩ := onDev_next (tracingTime holdover) s
    have entered := reports_holdover hf hp hs
    have tmb : (holdover s.dev).tmb = { s.dev.tmb with state := 3, goodCues := 0 } := entered.tmb_eq
    have lost : lostSteering s.dev (holdover s.dev) = true := by simp [lostSteering, hs, tmb]
    have held := (reports_holdFrequency entered).trans (tracingTime_of_lost lost)
    rw [← hd] at held
    have now : t.dev.tmb = { s.dev.tmb with
        state := 3, goodCues := 0, held := true, heldUp := t.dev.tmb.heldUp, heldGap := t.dev.tmb.heldGap } := by
      rw [held.tmb_eq]
      rfl
    refine ⟨t, ht, ho, congrArg Tmb.state now, congrArg Tmb.goodCues now, congrArg Tmb.held now, ?_⟩
    rw [← now]
    exact held.tmbOnly

end Sys2Proof.Machine
end

section
/-!
PROOFS. ORDER_READ, LOOKUP and the index (R63, R152, R274, R276, R279, R280): how their descriptors start and end, what
a change of the counts leaves of a rebuild, the entries of a table laid out anew, and the running order (O39).
-/

namespace Sys2Proof.Machine

/-! ### A descriptor starts -/

/-- A descriptor other than IMAGE_TRANSFER is taken up or ended. -/
theorem startDesc_of_not_transfer {x : Desc} (hx : ¬ (x.fn = 0 ∧ x.entry.opcode = 0x4B)) (d : Dev) :
    startDesc x d = updDesc x.handle (fun y => { y with phase := .running }) d
      ∨ ∃ st, startDesc x d = endWith x st 0 0 d := by
  unfold startDesc
  split
  · next st _ => exact .inr ⟨st, if_neg (by simpa using fun hf ho => absurd ⟨hf, ho⟩ hx)⟩
  · exact .inl rfl

/-- What `begin` hands on to a command other than IMAGE_TRANSFER: a descriptor of the device's, with no more than
answers given. -/
theorem begin_answers {h op : Nat} {admin : Bool} {d e : Dev} {x : Desc} (hop : admin = true → op ≠ 0x4B)
    (hb : begin h admin op d = (some x, e)) : d.Answers e ∧ findDesc e h = some x := by
  unfold begin at hb
  split at hb
  · cases hb
  next y hy =>
  split at hb
  · cases hb
  next hknown =>
  have other : ¬ (y.fn = 0 ∧ y.entry.opcode = 0x4B) := by
    rintro ⟨hf, ho⟩
    have known : y.known = true := by simp [Desc.known, hf, ho, adminOps]
    cases admin
    · simp [known, hf] at hknown
    · simp [known, hf, ho] at hknown
      exact hop rfl hknown.symm
  split at hb
  · cases hb
    exact ⟨.refl d, hy⟩
  split at hb
  · cases hb
  obtain ⟨hx, he⟩ := Prod.mk.inj hb
  rw [he] at hx
  obtain hs | ⟨st, hs⟩ := startDesc_of_not_transfer other d <;> rw [he] at hs
  · exact ⟨hs ▸ answers_updDesc .., hx⟩
  · rw [hs, ← handle_of_findDesc hy, findDesc_endWith] at hx
    cases hx

/-! ### ORDER_READ (R152) -/

theorem orderRead_ends {h : Nat} {d e : Dev} {x : Desc} (hb : begin h false 7 d = (some x, e)) :
    ∃ st r b c, orderRead h d = endWith x st r b c ∧ (bit x.entry.flags 4 = false → e.Answers c) := by
  simp only [orderRead, hb]
  split
  · exact ⟨_, _, _, _, rfl, fun _ => (reports_countFn ..).answers⟩
  split
  · exact ⟨_, _, _, _, rfl, fun _ => (reports_countFn ..).answers⟩
  · refine ⟨_, _, _, _, rfl, fun hk => ?_⟩
    simp only [hk]
    exact (reports_countFn ..).answers.trans (reports_emit ..).answers

/-! ### LOOKUP (R274, R279) -/

/-- `e` is `d` with the index's counts and the free counter changed, and descriptors answered. -/
def Dev.Searches (d e : Dev) : Prop := Dev.Answers { d with idx := e.idx, freeCtr := e.freeCtr } e

theorem Dev.Searches.trans {d e a : Dev} (h : d.Searches e) (g : e.Searches a) : d.Searches a :=
  ⟨g.bare.trans (congrArg (fun x : Dev => { x with idx := a.idx, freeCtr := a.freeCtr }) h.bare),
    fun f => (g.fns f).trans (h.fns f)⟩

theorem Dev.Answers.searches {d e : Dev} (h : d.Answers e) : d.Searches e := by
  have idx : e.idx = d.idx := h.idx_eq
  have free : e.freeCtr = d.freeCtr := h.freeCtr_eq
  unfold Dev.Searches
  rw [idx, free]
  exact h

theorem searches_cacheTally (d : Dev) : d.Searches (cacheTally d) := by
  unfold cacheTally
  dsimp only
  split <;> exact Dev.Answers.refl _

/-- The read-back's first mismatch is counted. -/
def firstMismatch (d : Dev) : Dev := { d with idx := { d.idx with first := satAdd 16 d.idx.first 1 } }

theorem searches_firstMismatch (d : Dev) : d.Searches (firstMismatch d) := Dev.Answers.refl _

theorem lookupAnswer_ends (x : Desc) (d : Dev) : ∃ st r b, lookupAnswer x d = endWith x st r b d := by
  unfold lookupAnswer
  dsimp only
  split <;> exact ⟨_, _, _, rfl⟩

/-- The device as a repeated mismatch leaves it. -/
def indexRebuilds (x : Desc) (d : Dev) : Dev :=
  let d := { d with idx := { d.idx with repeats := satAdd 16 d.idx.repeats 1 } }
  updFn x.fn (fun s => { s with rebuilding := true })
    (raiseFault { code := 0x0405, level := 4, island := 81, severity := 1, fn := x.fn } d)

theorem indexRepeat_eq (x : Desc) (d : Dev) : indexRepeat x d = endWith x stBusy 0 0 (indexRebuilds x d) := rfl

theorem rebuilding_indexRebuilds (x : Desc) (d : Dev) : (getFn (indexRebuilds x d) x.fn).rebuilding = true := by
  simp [indexRebuilds, getFn_updFn]

/-- A function's rebuild: under way, how many times over, and given up. -/
def FnSt.rebuild (s : FnSt) : Bool × Nat × Bool := (s.rebuilding, s.rebuilds, s.rebuildStopped)

theorem Dev.Answers.rebuild_eq {d e : Dev} (h : d.Answers e) (f : Nat) :
    (getFn e f).rebuild = (getFn d f).rebuild := by
  show (e.fnCore f).rebuild = (d.fnCore f).rebuild
  rw [h.fns f]

/-- How a LOOKUP ends: a match changes the index's counts at most, and a repeated mismatch starts a rebuild. -/
theorem lookup_ends {h : Nat} {c : LookupCheck} {d e : Dev} {x : Desc} (hb : begin h false 5 d = (some x, e)) :
    ∃ st r b a, lookup h c d = endWith x st r b a ∧ (c = .clean ∨ c = .mismatch → e.Searches a)
      ∧ (c = .repeated ∨ c = .poisoned → (getFn e x.fn).rebuildStopped = false → heldOutSearch e x = false →
          (getFn a x.fn).rebuilding = true) := by
  have counted : e.Answers (countFn x.fn 10 1 e) := (reports_countFn ..).answers
  have same : getFn (countFn x.fn 10 1 e) x.fn = getFn e x.fn := by
    unfold countFn
    split <;> rfl
  have out : heldOutSearch (countFn x.fn 10 1 e) x = heldOutSearch e x := by
    unfold countFn
    split <;> rfl
  have searched := counted.searches.trans (searches_cacheTally _)
  simp only [lookup, hb, same, out]
  split
  · next busy =>
    refine ⟨_, _, _, _, rfl, fun _ => counted.searches, fun _ hs ho => ?_⟩
    rw [same]
    simpa [hs, ho] using busy
  · cases c with
    | clean =>
      obtain ⟨st, r, b, answered⟩ := lookupAnswer_ends x (cacheTally (countFn x.fn 10 1 e))
      exact ⟨st, r, b, _, answered, fun _ => searched, by simp⟩
    | mismatch =>
      obtain ⟨st, r, b, answered⟩ := lookupAnswer_ends x (firstMismatch (cacheTally (countFn x.fn 10 1 e)))
      exact ⟨st, r, b, _, answered, fun _ => searched.trans (searches_firstMismatch _), by simp⟩
    | repeated =>
      exact ⟨_, _, _, _, indexRepeat_eq x (firstMismatch _), by simp, fun _ _ _ => rebuilding_indexRebuilds ..⟩
    | poisoned =>
      exact ⟨_, _, _, _, indexRepeat_eq x _, by simp, fun _ _ _ => rebuilding_indexRebuilds ..⟩

/-! ### What a change of the counts is made of (R80, R83, R84, R92, R215) -/

/-- A relation that every part of `countsChanged` meets. -/
structure CountsRel (R : Dev → Dev → Prop) : Prop where
  refl : ∀ d, R d d
  trans : ∀ {d e a}, R d e → R e a → R d a
  answers : ∀ {d e : Dev}, d.Answers e → R d e
  adm : ∀ (d : Dev) adm, R d { d with adm }
  est : ∀ (d : Dev) est, R d { d with est }
  blk : ∀ b f d, R d (updBlk b f d)
  commit : ∀ x d, R d (commitHold x none d)

section
variable {R : Dev → Dev → Prop} (hR : CountsRel R)
include hR

theorem CountsRel.reports {d e : Dev} (h : d.Reports e) : R d e := hR.answers h.answers

theorem CountsRel.foldl {α : Type} {f : Dev → α → Dev} (hf : ∀ e a, R e (f e a)) (l : List α) (d : Dev) :
    R d (l.foldl f d) := by
  induction l generalizing d with
  | nil => exact hR.refl d
  | cons a l ih => exact hR.trans (hf d a) (ih _)

theorem CountsRel.updateShortfall (d : Dev) : R d (updateShortfall d) := by
  unfold Machine.updateShortfall
  dsimp only
  (repeat' split)
  · exact hR.trans (hR.adm d _) (hR.reports ((reports_trace ..).trans (reports_postEvent ..)))
  · exact hR.trans (hR.adm d _) (hR.reports ((reports_trace ..).trans (reports_postEvent ..)))
  · exact hR.adm d _

theorem CountsRel.updateReclaim (d : Dev) : R d (updateReclaim d) := by
  unfold Machine.updateReclaim
  dsimp only
  (repeat' split)
  · exact hR.trans (hR.adm d _) (hR.reports ((reports_trace ..).trans (reports_postEvent ..)))
  · exact hR.trans (hR.adm d _) (hR.reports ((reports_trace ..).trans (reports_postEvent ..)))
  · exact hR.adm d _

theorem CountsRel.updatePressure (d : Dev) : R d (updatePressure d) := hR.foldl (fun _ _ => hR.blk ..) _ d

theorem CountsRel.evaluate (xs : List Desc) (k : Blocks) (d : Dev) : R d (evaluate xs k d) := by
  induction xs generalizing k d with
  | nil => exact hR.refl d
  | cons x xs ih =>
    have told := hR.updateReclaim d
    unfold Machine.evaluate
    dsimp only
    split
    · exact hR.trans told (hR.trans (hR.answers (answers_refuse ..)) (ih ..))
    split
    · refine hR.trans told (hR.trans ?_ (ih ..))
      split
      · exact hR.commit ..
      · exact hR.refl _
    · exact hR.trans told (hR.trans (hR.answers (answers_updDesc ..)) (ih ..))

theorem CountsRel.evaluateAll (n : Nat) (d : Dev) : R d (evaluateAll n d) := by
  induction n generalizing d with
  | zero => exact hR.refl d
  | succ n ih =>
    have told := hR.trans (hR.updateReclaim d)
      (hR.trans (hR.evaluate (waitingAll (Machine.updateReclaim d)) {} _) (hR.updateReclaim _))
    unfold Machine.evaluateAll
    dsimp only
    split
    · exact told
    · exact hR.trans told (ih _)

theorem CountsRel.evaluateWaiting (d : Dev) : R d (evaluateWaiting d) := by
  unfold Machine.evaluateWaiting
  split
  · exact hR.updateReclaim d
  split
  · exact hR.trans (hR.foldl (fun _ _ => hR.answers (answers_refuse ..)) _ d) (hR.updateReclaim _)
  · exact hR.evaluateAll ..

theorem CountsRel.floorTest (d : Dev) : R d (floorTest d) := by
  unfold Machine.floorTest endLearning
  (repeat' split)
  · exact hR.refl d
  · exact hR.trans (hR.est d _) (hR.reports (reports_trace ..))
  · exact hR.trans (hR.est d _) (hR.reports ((reports_postEvent ..).trans (reports_trace ..)))
  · exact hR.refl d

theorem CountsRel.countsChanged (d : Dev) : R d (countsChanged d) :=
  hR.trans (hR.updateShortfall d) (hR.trans (hR.updatePressure _) (hR.trans (hR.evaluateWaiting _)
    (hR.trans (hR.updateShortfall _) (hR.trans (hR.updatePressure _) (hR.floorTest _)))))

end

/-! ### Rebuilds (R279, R280) -/

/-- The index follows the extents and leaves every rebuild. -/
theorem rebuild_insertEntry (d : Dev) (x : Extent) (f : Nat) :
    (getFn (insertEntry d x) f).rebuild = (getFn d f).rebuild := by
  unfold insertEntry
  split
  · rfl
  split
  · rfl
  · unfold placeEntry
    rw [getFn_updFn]
    split
    · next h => rw [← h]; rfl
    · rfl

theorem rebuild_syncIndex (d : Dev) (f : Nat) : (getFn (syncIndex d) f).rebuild = (getFn d f).rebuild := by
  have entries (xs : List Extent) (e : Dev) : (getFn (xs.foldl insertEntry e) f).rebuild = (getFn e f).rebuild := by
    induction xs generalizing e with
    | nil => rfl
    | cons x xs ih => rw [List.foldl_cons, ih, rebuild_insertEntry]
  refine (entries _ _).trans ?_
  refine (congrArg FnSt.rebuild (Tab.get_mapVals ({} : FnSt) ({} : FnSt) (FnSt.unplace _) rfl d.fns f)).trans ?_
  unfold FnSt.unplace
  split <;> rfl

theorem rebuild_commitHold (x : Desc) (d : Dev) (f : Nat) :
    (getFn (commitHold x none d) f).rebuild = (getFn d f).rebuild := by
  have held : (holdPages x d).fns = d.fns := holdPages_keep Dev.fns (fun _ _ => rfl) x d
  refine ((answers_commitHold x d).rebuild_eq f).trans ((rebuild_syncIndex _ f).trans ?_)
  exact congrArg (fun t : Tab FnSt => (Tab.get {} t f).rebuild) held

theorem countsRel_rebuild : CountsRel fun d e => ∀ f, (getFn e f).rebuild = (getFn d f).rebuild where
  refl _ _ := rfl
  trans h g f := (g f).trans (h f)
  answers h := h.rebuild_eq
  adm _ _ _ := rfl
  est _ _ _ := rfl
  blk _ _ _ _ := rfl
  commit := rebuild_commitHold

theorem rebuild_layOutFn (f : Nat) (d : Dev) : (getFn (layOutFn f d) f).rebuild = (getFn d f).rebuild := by
  rw [layOutFn, getFn_updFn, if_pos rfl]
  rfl

/-- A table laid out again, after what was noted of its rebuild. -/
theorem rebuild_relaid {g : FnSt → FnSt} (f : Nat) (d : Dev) :
    (getFn (countsChanged (layOutFn f (updFn f g d))) f).rebuild = (g (getFn d f)).rebuild := by
  rw [countsRel_rebuild.countsChanged _ f, rebuild_layOutFn, getFn_updFn, if_pos rfl]

section
variable {f : Nat} {d : Dev} (hr : (getFn d f).rebuilding = true) (hi : indexOn d = true)
include hr hi

theorem rebuild_rebuildDone_clean : (getFn (rebuildDone f false d) f).rebuild
    = (false, 0, (getFn d f).rebuildStopped) := by
  rw [rebuildDone, if_neg (by simp [hr, hi]), if_pos Bool.not_false, rebuilt, rebuild_relaid]
  rfl

theorem rebuild_rebuildDone_again (hn : (getFn d f).rebuilds ≠ 0) : (getFn (rebuildDone f true d) f).rebuild
    = (false, (getFn d f).rebuilds, true) := by
  have many (i : FaultInfo) : (getFn (raiseFault i d) f).rebuilds = (getFn d f).rebuilds :=
    congrArg (fun r : Bool × Nat × Bool => r.2.1) ((reports_raiseFault i d).answers.rebuild_eq f)
  rw [rebuildDone, if_neg (by simp [hr, hi]), if_neg (by simp)]
  dsimp only
  rw [if_neg (by rw [many]; exact hn), rebuild_relaid]
  simp only [FnSt.rebuild, many]

end

/-! ### Tables laid out anew (R276) -/

/-- A list cut into pieces of one size. -/
theorem flatMap_range_pieces {α : Type} (l : List α) (size n : Nat) :
    (List.range n).flatMap (fun i => (l.drop (i * size)).take size) = l.take (n * size) := by
  induction n with
  | zero => simp
  | succ n ih => rw [List.range_succ, List.flatMap_append, ih, Nat.succ_mul, List.take_add]; simp

theorem filterMap_withGaps (n : Nat) (es : List Nat) : (withGaps n es).filterMap id = es := by
  have entry (e : Nat × Nat) :
      (if (e.2 + 1) % n = 0 then [some e.1, none] else [some e.1]).filterMap id = [e.1] := by
    split <;> rfl
  simp only [withGaps, List.filterMap_flatMap, entry, ← List.map_eq_flatMap, List.zipIdx_map_fst]

/-- A segment laid out anew holds its entries in their order. -/
theorem flatMap_layOut (d : Dev) (f b : Nat) (es : List Nat) :
    (layOut d f b es).flatMap (fun k => k.filterMap id) = es := by
  have pieces (size : Nat) (hs : 0 < size) :
      (List.range ((es.length + size - 1) / size)).flatMap (fun i => (es.drop (i * size)).take size) = es := by
    have whole := Nat.div_add_mod (es.length + size - 1) size
    have rest := Nat.mod_lt (es.length + size - 1) hs
    rw [flatMap_range_pieces, List.take_of_length_le]
    rw [Nat.mul_comm]
    omega
  have gapped : 0 < 512 / (gapEvery d f + 1) * gapEvery d f := by
    unfold gapEvery
    split <;> decide
  unfold layOut
  dsimp only
  split
  · simpa only [List.flatMap_map, filterMap_withGaps] using pieces _ gapped
  · simpa only [List.flatMap_map, List.filterMap_map, Function.id_comp, List.filterMap_some] using pieces 512 (by decide)

/-- A part of a list is replaced by one that maps to the same. -/
theorem flatMap_replaced {α β : Type} (g : List α → List β) (hg : g [] = []) (l : List (List α)) (i : Nat)
    (m : List (List α)) (hm : m.flatMap g = g (l.getD i [])) :
    (l.take i ++ m ++ l.drop (i + 1)).flatMap g = l.flatMap g := by
  conv_rhs => rw [← List.take_append_drop i l]
  simp only [List.flatMap_append, hm, List.append_assoc, List.append_cancel_left_eq]
  by_cases h : i < l.length
  · rw [List.drop_eq_getElem_cons h, List.flatMap_cons, List.getD_eq_getElem _ _ h]
  · rw [List.drop_of_length_le (by omega), List.drop_of_length_le (by omega), List.getD_eq_default _ _ (by omega), hg]
    rfl

/-- The gaps of bucket `k` of a segment restored. -/
def respreadSeg (d : Dev) (f k : Nat) (bs : List (List (Option Nat))) : List (List (Option Nat)) :=
  bs.take (k % 65536) ++ layOut d f (k / 65536) ((bs.getD (k % 65536) []).filterMap id) ++ bs.drop (k % 65536 + 1)

theorem flatMap_respreadSeg (d : Dev) (f k : Nat) (bs : List (List (Option Nat))) :
    (respreadSeg d f k bs).flatMap (fun k => k.filterMap id) = bs.flatMap (fun k => k.filterMap id) :=
  flatMap_replaced _ rfl _ _ _ (flatMap_layOut ..)

section
variable {f k : Nat} {d : Dev}

theorem respread_eq (hi : indexOn d = true) (hg : keepsGaps d f (k / 65536) = true)
    (hk : (getFn d f).respreads.contains k = true) (hr : (getFn d f).rebuilding = false) :
    ∃ marks : FnSt → List Nat, respread f k d = updFn f (fun s => { s with
      segs := Tab.set s.segs (k / 65536) (respreadSeg d f k (Tab.get [] (getFn d f).segs (k / 65536)))
      respreads := marks s }) d := by
  refine ⟨fun s => (s.respreads.filter (· ≠ k)).map (fun m => if m / 65536 = k / 65536 && k < m then
    m + (layOut d f (k / 65536) (((Tab.get [] (getFn d f).segs (k / 65536)).getD (k % 65536) []).filterMap id)).length - 1
    else m), ?_⟩
  rw [respread, if_neg (by simp_all)]
  rfl

theorem respread_idle (h : indexOn d = false ∨ keepsGaps d f (k / 65536) = false
    ∨ (getFn d f).respreads.contains k = false ∨ (getFn d f).rebuilding = true) : respread f k d = d := by
  rw [respread, if_pos]
  obtain h | h | h | h := h <;> simp only [h, Bool.not_false, Bool.true_or, Bool.or_true]

end

/-! ### The running order (R63) -/

theorem perm_insertBy {α : Type} (key : α → Nat) (x : α) (l : List α) : (insertBy key x l).Perm (x :: l) := by
  induction l with
  | nil => exact .refl _
  | cons y ys ih =>
    unfold insertBy
    split
    · exact .refl _
    · exact (ih.cons y).trans (.swap x y ys)

theorem sorted_insertBy {α : Type} (key : α → Nat) (x : α) {l : List α} (h : (l.map key).Pairwise (· ≤ ·)) :
    ((insertBy key x l).map key).Pairwise (· ≤ ·) := by
  induction l with
  | nil => simp [insertBy]
  | cons y ys ih =>
    obtain ⟨least, rest⟩ := List.pairwise_cons.mp h
    unfold insertBy
    split
    · next lt =>
      refine List.pairwise_cons.mpr ⟨fun k hk => ?_, h⟩
      rcases List.mem_cons.mp hk with rfl | hk
      · exact Nat.le_of_lt lt
      · exact Nat.le_trans (Nat.le_of_lt lt) (least k hk)
    · next le =>
      refine List.pairwise_cons.mpr ⟨fun k hk => ?_, ih rest⟩
      rw [((perm_insertBy key x ys).map key).mem_iff] at hk
      rcases List.mem_cons.mp hk with rfl | hk
      · omega
      · exact least k hk

theorem sortBy_spec {α : Type} (key : α → Nat) (l : List α) :
    (sortBy key l).length = l.length ∧ ((sortBy key l).map key).Pairwise (· ≤ ·) := by
  have inserted (m : List α) (hm : (m.map key).Pairwise (· ≤ ·)) :
      (l.foldl (fun acc x => insertBy key x acc) m).length = l.length + m.length
        ∧ ((l.foldl (fun acc x => insertBy key x acc) m).map key).Pairwise (· ≤ ·) := by
    induction l generalizing m with
    | nil => exact ⟨(Nat.zero_add _).symm, hm⟩
    | cons x l ih =>
      obtain ⟨length, sorted⟩ := ih _ (sorted_insertBy key x hm)
      rw [(perm_insertBy key x m).length_eq] at length
      exact ⟨by simp only [List.foldl_cons, List.length_cons] at length ⊢; omega, sorted⟩
  exact inserted [] .nil

theorem placeSegment_spec (es : List (Nat × OrderKey)) : (placeSegment es).length = es.length
    ∧ (placeSegment es).map (fun e => e.2.position) = List.range es.length
    ∧ ((placeSegment es).map (fun e => orderKeyNat e.1.2)).Pairwise (· ≤ ·) := by
  obtain ⟨length, sorted⟩ := sortBy_spec (fun e : Nat × OrderKey => orderKeyNat e.2) es
  unfold placeSegment
  dsimp only
  simp only [List.map_map, List.length_map, List.length_zipIdx, Function.comp_def]
  refine ⟨length, ?_, ?_⟩
  · rw [← length, List.range_eq_range', ← List.zipIdx_map_snd]
  · rw [← List.zipIdx_map_fst 0 (sortBy _ es), List.map_map] at sorted
    exact sorted

/-! ### ORDER_READ, LOOKUP and the index -/

/-- Settles O39: each clause is the equation of its function, and an insertion sort and the flattening of the buckets
keep the entries. -/
theorem orderAndIndexReads : Obligations.OrderAndIndexReads := by
  refine ⟨fun h s x d hb => ?_, fun h c s x d hb => ?_, fun f s hr hi => ?_, fun f s hr hn hi => ?_,
    fun f k s hi hg hk hr => ?_, fun f k s h => onDev_idle (respread_idle h), placeSegment_spec⟩
  · obtain ⟨answers, found⟩ := begin_answers (by decide) hb
    obtain rfl := handle_of_findDesc found
    obtain ⟨st, r, b, c, ended, read⟩ := orderRead_ends hb
    obtain ⟨t, ht, ho, hd⟩ := onDev_next (orderRead x.handle) s
    rw [ended] at hd
    exact ⟨t, ht, ho, hd ▸ findDesc_endWith .., fun hk => hd ▸ answers.trans ((read hk).trans (answers_endWith ..))⟩
  · obtain ⟨answers, found⟩ := begin_answers (by decide) hb
    obtain rfl := handle_of_findDesc found
    obtain ⟨st, r, b, a, ended, matched, repeated⟩ := lookup_ends (c := c) hb
    obtain ⟨t, ht, ho, hd⟩ := onDev_next (lookup x.handle c) s
    rw [ended] at hd
    refine ⟨t, ht, ho, hd ▸ findDesc_endWith .., fun hc => ?_, fun hc hs hout => ?_⟩
    · rw [hd]
      exact answers.searches.trans ((matched hc).trans (answers_endWith ..).searches)
    · have kept := (answers_endWith x st r b a).rebuild_eq x.fn
      rw [← hd] at kept
      exact (congrArg Prod.fst kept).trans (repeated hc hs hout)
  · obtain ⟨t, ht, ho, hd⟩ := onDev_next (rebuildDone f false) s
    have done := rebuild_rebuildDone_clean hr hi
    rw [← hd] at done
    exact ⟨t, ht, ho, congrArg (fun r => r.1) done, congrArg (fun r => r.2.1) done⟩
  · obtain ⟨t, ht, ho, hd⟩ := onDev_next (rebuildDone f true) s
    have done := rebuild_rebuildDone_again hr hi hn
    rw [← hd] at done
    exact ⟨t, ht, ho, congrArg (fun r => r.1) done, congrArg (fun r => r.2.2) done⟩
  · obtain ⟨marks, spread⟩ := respread_eq hi hg hk hr
    obtain ⟨t, ht, ho, hd⟩ := onDev_next (respread f k) s
    rw [spread] at hd
    have same : getFn t.dev f = { getFn s.dev f with
        segs := Tab.set (getFn s.dev f).segs (k / 65536)
          (respreadSeg s.dev f k (Tab.get [] (getFn s.dev f).segs (k / 65536)))
        respreads := marks (getFn s.dev f) } := by
      rw [hd, getFn_updFn, if_pos rfl]
    refine ⟨t, ht, ho, fun b hb => ?_, fun b => ?_, ?_, fun g hg => ?_, ?_⟩
    · rw [same, Tab.get_set, if_neg (Ne.symm hb)]
    · rw [same, Tab.get_set]
      split
      · next h => rw [← h, flatMap_respreadSeg]
      · rfl
    · rw [hd]
      rfl
    · rw [hd, getFn_updFn, if_neg (Ne.symm hg)]
    · rw [same]

end Sys2Proof.Machine
end

section
/-!
PROOFS. The frames of the hierarchy (R181 to R183, R191, R195): what sending leaves alone, what stays in the outbox, and
what a lost transfer and the end of a manager's wait leave alone of the links.
-/

namespace Sys2Proof.Machine

/-! ### Frames sent (R182) -/

/-- `e` is `d` with frames sent and acknowledged, the directory entries that they carry stored, and reports added. -/
def Dev.Sends (d e : Dev) : Prop := Dev.Reports { d with
  hrk := { d.hrk with
    frameSeq := e.hrk.frameSeq, unacked := e.hrk.unacked, seenSeqs := e.hrk.seenSeqs, dir := e.hrk.dir }
  freeCtr := e.freeCtr } e

theorem Dev.Sends.refl (d : Dev) : d.Sends d := Dev.Reports.refl d

theorem Dev.Sends.trans {d e a : Dev} (h : d.Sends e) (g : e.Sends a) : d.Sends a :=
  ⟨g.bare.trans (congrArg (fun x : Dev => { x with
      hrk := { x.hrk with
        frameSeq := a.hrk.frameSeq, unacked := a.hrk.unacked, seenSeqs := a.hrk.seenSeqs, dir := a.hrk.dir }
      freeCtr := a.freeCtr }) h.bare),
    fun f => (g.fns f).trans (h.fns f)⟩

/-- What sending leaves alone. -/
theorem Dev.Sends.keep {α : Type} {d e : Dev} (h : d.Sends e) (f : Dev → α) (hf : ∀ d, f d.bare = f d)
    (hl : ∀ (d : Dev) frameSeq unacked seenSeqs dir freeCtr,
      f { d with hrk := { d.hrk with frameSeq, unacked, seenSeqs, dir }, freeCtr } = f d) : f e = f d :=
  (Dev.Reports.keep h f hf).trans (hl ..)

theorem Dev.Sends.frameOnly {d e : Dev} (h : d.Sends e) : d.FrameOnly e :=
  ⟨h.bare.trans (congrArg (fun k : Hrk => Dev.bare { d with hrk := k, freeCtr := e.freeCtr }) h.hrk_eq.symm), h.fns⟩

theorem Dev.Sends.tmb_eq {d e : Dev} (h : d.Sends e) : e.tmb = d.tmb := h.keep Dev.tmb (fun _ => rfl) (by intros; rfl)

theorem Dev.Reports.sends {d e : Dev} (h : d.Reports e) : d.Sends e := by
  have hrk : e.hrk = d.hrk := h.hrk_eq
  have free : e.freeCtr = d.freeCtr := h.freeCtr_eq
  unfold Dev.Sends
  rw [hrk, free]
  exact h

theorem sends_sendOn (p type dst : Nat) (ackReq : Bool) (payload : List Byte) (d : Dev) :
    d.Sends (sendOn p type dst ackReq payload d) := by
  unfold sendOn
  split
  · exact .refl d
  · exact Dev.Sends.trans (e := { d with hrk := { d.hrk with
      frameSeq := (d.hrk.frameSeq + 1) % 2 ^ 32
      unacked := if ackReq then d.hrk.unacked ++ [(p, 0, (newFrame type dst ackReq payload d).1)] else d.hrk.unacked } })
      (Dev.Reports.refl _) (reports_putFrame ..).sends

theorem sends_sendKeyFrames (n first : Nat) (ks : List OrderKey) (d : Dev) : d.Sends (sendKeyFrames n first ks d) := by
  induction n generalizing first ks d with
  | zero => exact .refl d
  | succ n ih =>
    unfold sendKeyFrames
    split
    · exact .refl d
    · exact (sends_sendOn ..).trans (ih ..)

theorem sends_sendAllDir (d : Dev) : d.Sends (sendAllDir d) := by
  have forwarded (es : List DirEntry) (e : Dev) : e.Sends (forwardDir es e) := by
    unfold forwardDir
    split
    · exact sends_sendOn ..
    · exact .refl e
  have stored (es : List DirEntry) (e : Dev) : e.Sends (storeDir es e) := Dev.Reports.refl _
  unfold sendAllDir sendDir
  dsimp only
  (repeat' split)
  · exact .refl d
  · exact (stored ..).trans (forwarded ..)
  · exact (stored ..).trans (sends_sendOn ..)
  · exact stored ..

theorem sends_resendRecon (d : Dev) : d.Sends (resendRecon d) := by
  have summary (e : Dev) : e.Sends (sendSummary e) := by
    unfold sendSummary
    split
    · exact sends_sendOn ..
    · exact .refl e
  unfold resendRecon
  dsimp only
  split
  · exact .refl d
  split
  · exact summary d
  · exact (summary d).trans (sends_sendKeyFrames ..)

/-- A frame that is no repeat is dealt with after its acknowledgement. -/
theorem acked_taken {q : FrameIn} {d : Dev} {who : Nat}
    (h : (q.ackReq && d.hrk.seenSeqs.contains (q.port, who, q.seq)) = false) (f : Dev → Dev) :
    ∃ e, acked q who f d = f e ∧ d.Sends e := by
  have acks (p dst seq : Nat) (e : Dev) : e.Sends (sendAck p dst seq e) :=
    Dev.Sends.trans (e := { e with freeCtr := e.freeCtr + 1 }) (Dev.Reports.refl _) (sends_sendOn ..)
  unfold acked
  dsimp only
  split
  · exact ⟨d, rfl, .refl d⟩
  next asked =>
  rw [if_neg (by simp_all)]
  exact ⟨_, rfl, Dev.Sends.trans (e := { d with hrk := { d.hrk with
    seenSeqs := ((q.port, who, q.seq) :: d.hrk.seenSeqs).take 4096 } }) (Dev.Reports.refl _) (acks ..)⟩

/-! ### What has been sent out stays sent -/

/-- What `d` has sent out stands in the outbox of `e`. -/
def Dev.Tells (d e : Dev) : Prop := d.outbox ⊆ e.outbox

theorem Dev.Tells.refl (d : Dev) : d.Tells d := List.Subset.refl _

theorem Dev.Tells.trans {d e a : Dev} (h : d.Tells e) (g : e.Tells a) : d.Tells a := List.Subset.trans h g

theorem tells_emit (o : Out) (d : Dev) : d.Tells (emit o d) := List.subset_cons_self _ _

theorem tells_trace (type island a b : Nat) (d : Dev) : d.Tells (trace type island a b d) := by
  have message (f v : Nat) (e : Dev) : e.Tells (msixSend f v e) := by
    unfold msixSend
    dsimp only
    split
    · exact .refl e
    · exact tells_emit ..
  have coalesced (f : Nat) (r : Ring) (e : Dev) : e.Tells (coalesce f r e).2 := by
    unfold coalesce
    split
    · exact message ..
    · exact .refl e
  have written (r : Nat) (bytes : Bool → List Byte) (e : Dev) : e.Tells (mrgWrite r bytes e) :=
    (tells_emit ..).trans (coalesced ..)
  have host (t : TraceEv) (e : Dev) : e.Tells (traceHost t e) := by
    unfold traceHost
    dsimp only
    (repeat' split)
    · exact .refl e
    · exact .refl e
    · exact written 4 _ { e with obs := { e.obs with gapPend := false } }
  refine Dev.Tells.trans ?_ (host ..)
  exact List.Subset.refl _

theorem tells_sendOn (p type dst : Nat) (ackReq : Bool) (payload : List Byte) (d : Dev) :
    d.Tells (sendOn p type dst ackReq payload d) := by
  have put (f : Frame) (e : Dev) : e.Tells (putFrame f e p) := by
    unfold putFrame
    split
    · exact .refl e
    · exact tells_emit ..
  unfold sendOn
  split
  · exact .refl d
  · refine Dev.Tells.trans ?_ (put ..)
    exact List.Subset.refl _

theorem tells_resendRecon (d : Dev) : d.Tells (resendRecon d) := by
  have keys (n first : Nat) (ks : List OrderKey) (e : Dev) : e.Tells (sendKeyFrames n first ks e) := by
    induction n generalizing first ks e with
    | zero => exact .refl e
    | succ n ih =>
      unfold sendKeyFrames
      split
      · exact .refl e
      · exact (tells_sendOn ..).trans (ih ..)
  have summary (e : Dev) : e.Tells (sendSummary e) := by
    unfold sendSummary
    split
    · exact tells_sendOn ..
    · exact .refl e
  unfold resendRecon
  dsimp only
  split
  · exact .refl d
  split
  · exact summary d
  · exact (summary d).trans (keys ..)

theorem tells_tracingTime (f : Dev → Dev) (d : Dev) : (f d).Tells (tracingTime f d) := by
  have traced (e : Dev) : e.Tells (if timeState e = timeState d ∧ refOk e = refOk d then e else traceTime e) := by
    split
    · exact .refl e
    · exact tells_trace ..
  unfold tracingTime
  dsimp only
  split
  · exact traced (holdFrequency (f d))
  · exact traced (f d)

/-! ### The end of a manager's wait (R195) -/

/-- The ports, the number of the next cue, and deposition. -/
def Dev.linkMarks (d : Dev) : Tab Port × Nat × Bool := (d.hrk.ports, d.hrk.cueSeq, d.hrk.deposed)

theorem Dev.Sends.linkMarks_eq {d e : Dev} (h : d.Sends e) : e.linkMarks = d.linkMarks :=
  h.keep Dev.linkMarks (fun _ => rfl) (by intros; rfl)

theorem Dev.Reports.linkMarks_eq {d e : Dev} (h : d.Reports e) : e.linkMarks = d.linkMarks := h.sends.linkMarks_eq

theorem releaseManager_spec (d : Dev) : (releaseManager d).linkMarks = d.linkMarks ∧ d.Tells (releaseManager d) := by
  have led (e : Dev) : (traceLead e).linkMarks = e.linkMarks ∧ e.Tells (traceLead e) :=
    ⟨(reports_trace ..).linkMarks_eq, tells_trace ..⟩
  have aside (e : Dev) : (standAside e).linkMarks = e.linkMarks ∧ e.Tells (standAside e) := by
    obtain ⟨marks, told⟩ := led { e with
      hrk := { e.hrk with waitResponses := false, inWaiting := true, lead := false, takeover := true, depth := 1 }
      tmb := { e.tmb with follower := true, delays := [], goodCues := 0 } }
    exact ⟨(sends_resendRecon _).linkMarks_eq.trans marks, Dev.Tells.trans told (tells_resendRecon _)⟩
  have resumed (e : Dev) : (resumeLead e).linkMarks = e.linkMarks ∧ e.Tells (resumeLead e) := by
    unfold resumeLead
    dsimp only
    split
    · exact ⟨rfl, .refl e⟩
    · exact led { e with
        hrk := { e.hrk with waitResponses := false, lead := true, takeover := false, depth := 0 }
        tmb := { e.tmb with follower := false, depth := 0, lag := 0 } }
  unfold releaseManager
  (repeat' split)
  · exact ⟨rfl, .refl d⟩
  · exact aside d
  · exact resumed d

theorem hrk_tracingTime (f : Dev → Dev) (d : Dev) : (tracingTime f d).hrk = (f d).hrk :=
  (timed_tracingTime f d).keep Dev.hrk (fun _ => rfl) (by intros; rfl)

/-! ### A transfer whose path is lost (R191) -/

theorem imageOnly_eraseSince (b seq : Nat) (d : Dev) : d.ImageOnly (eraseSince b seq d) := by
  have cleared (c t u : Nat) (e : Dev) : e.ImageOnly (clearUnit c t u e) :=
    (imageOnly_flash ..).trans (imageOnly_flash ..)
  exact (imageOnly_foldl (fun _ _ => (cleared ..).trans (reports_countCell ..).imageOnly) _ d).trans (imageOnly_updBlk ..)

theorem undoTransfer_keep {α : Type} (f : Dev → α) (hf : ∀ d, f d.bare = f d)
    (hi : ∀ (d : Dev) flash blk cip, f { d with flash, blk, cip } = f d) (d : Dev) : f (undoTransfer d) = f d := by
  have image (e : Dev) (h : d.ImageOnly e) : f e = f d := h.keep f hf (fun e flash blk => hi e flash blk e.cip)
  unfold undoTransfer
  split
  · exact hi d _ d.blk d.cip
  · next b _ =>
    refine (hi _ _ _ _).trans (image (dropRecs _ (eraseSince b d.flash.xferSeq d)) ?_)
    exact (imageOnly_eraseSince ..).trans (imageOnly_flash ..)

/-- Of the links the loss of its path ends the transfer alone, and the time base stands. -/
theorem xferPathLost_links (d : Dev) : (xferPathLost d).tmb = d.tmb ∧ ∃ xferKeys xferState xferCause,
    (xferPathLost d).hrk = { d.hrk with xferKeys, xferState, xferCause } := by
  have completed (st : Nat) (e : Dev) : (xferComplete st e).tmb = e.tmb
      ∧ (xferComplete st e).hrk = { e.hrk with xferKeys := [] } := by
    unfold xferComplete
    dsimp only
    split
    · exact ⟨(answers_endWith ..).tmb_eq, (answers_endWith ..).hrk_eq⟩
    · exact ⟨rfl, rfl⟩
  have undone (e : Dev) : (if e.spw.warn then e else undoTransfer e).tmb = e.tmb
      ∧ (if e.spw.warn then e else undoTransfer e).hrk = e.hrk := by
    split
    · exact ⟨rfl, rfl⟩
    · exact ⟨undoTransfer_keep Dev.tmb (fun _ => rfl) (by intros; rfl) e,
        undoTransfer_keep Dev.hrk (fun _ => rfl) (by intros; rfl) e⟩
  unfold xferPathLost
  split
  · unfold endTransfer
    dsimp only
    obtain ⟨tmb, hrk⟩ := completed stBusy { (if d.spw.warn then d else undoTransfer d) with
      hrk := { (if d.spw.warn then d else undoTransfer d).hrk with xferState := 5, xferCause := 1 } }
    obtain ⟨time, links⟩ := undone d
    exact ⟨tmb.trans time, [], 5, 1, hrk.trans (by rw [links])⟩
  split
  · exact ⟨rfl, _, _, _, rfl⟩
  · exact ⟨rfl, _, _, _, rfl⟩

end Sys2Proof.Machine
end

section
/-!
PROOFS. The ports of the hierarchy and their cues (R57, R180, R183, R196; O57).
-/

namespace Sys2Proof.Machine

/-! ### Ports that train and ports that are lost (R180, R196) -/

/-- A port that has trained. -/
def Port.up (dir : Nat) (q : Port) : Port :=
  { q with trained := true, dir, following := false, responses := 0, lost := false, tree := false }

/-- A port that is lost. -/
def Port.down (q : Port) : Port :=
  { q with trained := false, following := false, lost := q.dir = 1, dir := 3, responses := 0, tree := false }

/-- A port with one answer to a cue more. -/
def Port.answered (src : Nat) (q : Port) : Port := { q with peer := src, responses := q.responses + 1 }

/-- The device with a port that has trained. -/
def portUp (p : Nat) (d : Dev) : Dev :=
  let e := updPort p (Port.up (dirOf d p)) d
  { e with hrk := { e.hrk with seenSeqs := e.hrk.seenSeqs.filter (fun e => e.1 ≠ p) } }

section
variable {p : Nat} {d : Dev}

theorem portTrained_up (hon : harkaOn d = true) (hen : bit d.hrk.ctl p = true)
    (hm : p ≠ 0 ∨ d.board.roleMgr = false) (hd : p = 0 ∨ d.hrk.depth < 3) : portTrained p d
      = if p = 0 then sendJoin { portUp p d with tmb := { d.tmb with delays := [] } } else portUp p d := by
  have manager : ¬ (p = 0 ∧ d.board.roleMgr = true) := fun h => by simp [h] at hm
  have deep : ¬ (p ≠ 0 ∧ 3 ≤ d.hrk.depth) := fun h => by have := hd.resolve_left h.1; omega
  rw [portTrained, if_neg (by simpa [hon, hen] using ⟨by simpa using manager, by simpa using deep⟩)]
  rfl

theorem portTrained_idle (h : harkaOn d = false ∨ bit d.hrk.ctl p = false ∨ (p = 0 ∧ d.board.roleMgr = true)
    ∨ (p ≠ 0 ∧ 3 ≤ d.hrk.depth)) : portTrained p d = d := by
  obtain off | disabled | ⟨up, manager⟩ | ⟨down, deep⟩ := h
  · simp [portTrained, off]
  · simp [portTrained, disabled]
  · simp [portTrained, up, manager]
  · simp [portTrained, down, deep]

theorem getPort_portUp : getPort (portUp p d) p = (getPort d p).up (dirOf d p) := by
  show getPort (updPort p (Port.up (dirOf d p)) d) p = _
  rw [getPort_updPort, if_pos rfl]

theorem portLost_idle (h : (getPort d p).trained = false) : portLost p d = d := by simp [portLost, h]

theorem linkMarks_holdover (d : Dev) : (holdover d).linkMarks = d.linkMarks := by
  unfold holdover
  split
  · exact (reports_countChip ..).linkMarks_eq
  · rfl

theorem linkMarks_xferPathLost (d : Dev) : (xferPathLost d).linkMarks = d.linkMarks := by
  obtain ⟨-, _, _, _, hrk⟩ := xferPathLost_links d
  rw [Dev.linkMarks, hrk]
  rfl

theorem trained_portLost (h : (getPort d p).trained = true) : (getPort (portLost p d) p).trained = false := by
  have ended (up path : Prop) [Decidable up] [Decidable path] (e : Dev) : (releaseManager (if up then
      holdover (if path then xferPathLost e else e) else if path then xferPathLost e else e)).linkMarks
      = e.linkMarks := by
    rw [(releaseManager_spec _).1]
    (repeat' split)
    · rw [linkMarks_holdover, linkMarks_xferPathLost]
    · rw [linkMarks_holdover]
    · rw [linkMarks_xferPathLost]
    · rfl
  rw [portLost, if_neg (by simp [h])]
  dsimp only
  have kept := ended (p = uplink d) ((xferRuns d && decide (portTo d d.hrk.xferPeer = p)) = true)
    (updPort p Port.down d)
  refine (congrArg (fun m => (Tab.get {} m.1 p).trained) kept).trans ?_
  show (getPort (updPort p Port.down d) p).trained = false
  rw [getPort_updPort, if_pos rfl]
  rfl

end

/-! ### Cues that go out (R183) -/

theorem frame_sendOn {p : Nat} {d : Dev} (hon : harkaOn d = true) (ht : (getPort d p).trained = true) (type dst : Nat)
    (payload : List Byte) : ∃ f, Out.frame p f f.bytes ∈ (sendOn p type dst false payload d).outbox
      ∧ f.type = type ∧ f.dst = dst ∧ f.payload = payload := by
  refine ⟨(newFrame type dst false payload d).1, ?_, rfl, rfl, rfl⟩
  rw [sendOn, if_neg (by simp [hon, ht])]
  dsimp only
  rw [putFrame, if_neg (by
    show ¬ (!(harkaOn d && (getPort d p).trained)) = true
    simp [hon, ht])]
  exact List.mem_cons_self

theorem sends_sendCue (d : Dev) (p : Nat) :
    Dev.Sends { d with hrk := { d.hrk with t4 := Tab.drop d.hrk.t4 p } } (sendCue d p) := sends_sendOn ..

theorem tells_sendCue (d : Dev) (p : Nat) : d.Tells (sendCue d p) := by
  refine Dev.Tells.trans ?_ (tells_sendOn ..)
  exact List.Subset.refl _

/-- What a cue sent on one port leaves of the cues on the others. -/
theorem cueOn_sendCue {d : Dev} {p a : Nat} (h : p ≠ a) : cueOn (sendCue d a) p = cueOn d p := by
  refine ((sends_sendCue d a).keep (fun e => cueOn e p) (fun _ => rfl) (by intros; rfl)).trans ?_
  have others : Tab.get 0 (Tab.drop d.hrk.t4 a) p = Tab.get 0 d.hrk.t4 p := by
    rw [Tab.get_drop, if_neg (Ne.symm h)]
  simp only [cueOn, others]
  rfl

theorem mem_sendCues {l : List Nat} {d : Dev} (hon : harkaOn d = true) (hl : ∀ p ∈ l, (getPort d p).trained = true) :
    ∀ p ∈ l, ∃ f, Out.frame p f f.bytes ∈ (l.foldl sendCue d).outbox ∧ f.type = 1 ∧ f.dst = 0xFFFE
      ∧ f.payload = cueBytes (cueOn d p) := by
  induction l generalizing d with
  | nil => simp
  | cons a l ih =>
    have later (m : List Nat) (e : Dev) : e.Tells (m.foldl sendCue e) := by
      induction m generalizing e with
      | nil => exact .refl e
      | cons b m ih => exact (tells_sendCue e b).trans (ih _)
    intro p hp
    by_cases h : p = a
    · subst h
      obtain ⟨f, sent, type, dst, payload⟩ := frame_sendOn (p := p)
        (d := { d with hrk := { d.hrk with t4 := Tab.drop d.hrk.t4 p } }) hon (hl p hp) 1 0xFFFE (cueBytes (cueOn d p))
      exact ⟨f, later l _ sent, type, dst, payload⟩
    · have on : harkaOn (sendCue d a) = harkaOn d := (sends_sendCue d a).keep harkaOn (fun _ => rfl) (by intros; rfl)
      have port (q : Nat) : getPort (sendCue d a) q = getPort d q :=
        (sends_sendCue d a).keep (fun e => getPort e q) (fun _ => rfl) (by intros; rfl)
      have rest := ih (d := sendCue d a) (on.trans hon)
        (fun q hq => by rw [port]; exact hl q (List.mem_cons_of_mem _ hq)) p ((List.mem_cons.mp hp).resolve_left h)
      rwa [cueOn_sendCue h] at rest

theorem trained_of_mem_belowPorts {d : Dev} {p : Nat} (h : p ∈ belowPorts d) : (getPort d p).trained = true := by
  unfold belowPorts at h
  rcases List.mem_append.mp h with h | h
  · exact (List.mem_filter.mp (List.mem_filter.mp h).1).2
  · split at h
    · next lead =>
      rw [List.mem_singleton.mp h]
      simp only [Bool.and_eq_true] at lead
      exact lead.2
    · exact absurd h List.not_mem_nil

theorem linkMarks_sendCue (d : Dev) (p : Nat) : (sendCue d p).linkMarks = d.linkMarks :=
  (sends_sendCue d p).linkMarks_eq

/-- Every cue due goes out, and their number advances. -/
theorem sendCues_spec {d : Dev} (hon : harkaOn d = true) : (sendCues d).hrk.cueSeq = (d.hrk.cueSeq + 1) % 65536
    ∧ ∀ p ∈ belowPorts d, ∃ f, Out.frame p f f.bytes ∈ (sendCues d).outbox ∧ f.type = 1 ∧ f.dst = 0xFFFE
      ∧ f.payload = cueBytes (cueOn d p) := by
  have marks (l : List Nat) (e : Dev) : (l.foldl sendCue e).linkMarks = e.linkMarks := by
    induction l generalizing e with
    | nil => rfl
    | cons a l ih => rw [List.foldl_cons, ih, linkMarks_sendCue]
  have seq : ((belowPorts d).foldl sendCue d).hrk.cueSeq = d.hrk.cueSeq := congrArg (fun m => m.2.1) (marks ..)
  rw [sendCues, if_neg (by simp [hon])]
  dsimp only
  obtain ⟨kept, told⟩ := releaseManager_spec { (belowPorts d).foldl sendCue d with
    hrk := { ((belowPorts d).foldl sendCue d).hrk with
      cueSeq := (((belowPorts d).foldl sendCue d).hrk.cueSeq + 1) % 65536 } }
  refine ⟨(congrArg (fun m => m.2.1) kept).trans (by rw [← seq]; rfl), fun p hp => ?_⟩
  obtain ⟨f, sent, rest⟩ := mem_sendCues hon (fun p hp => trained_of_mem_belowPorts hp) p hp
  exact ⟨f, told sent, rest⟩

/-! ### Answers to cues (R183, R194, R195) -/

theorem linkMarks_leadAgain (d : Dev) : (leadAgain d).linkMarks = d.linkMarks :=
  (reports_trace ..).linkMarks_eq

/-- An answer counted on its port. -/
def answerCounted (h : FrameIn) (r : CueRespFrame) (d : Dev) : Dev :=
  let d := updPort h.port (Port.answered h.src) d
  let d := if (r.seq + 1) % 65536 = d.hrk.cueSeq then
      { d with hrk := { d.hrk with t4 := Tab.set d.hrk.t4 h.port d.tmb.ht } } else d
  if d.hrk.waitResponses && r.gmIdx = 1 then { d with hrk := { d.hrk with respGm1 := true } } else d

/-- A deposition ends where worker 1 answers a lead of index 0 (R194). -/
def depositionOver (h : FrameIn) (r : CueRespFrame) (d : Dev) : Dev :=
  if d.hrk.deposed && h.src = 1 && r.gmIdx = 0 then traceLead { d with hrk := { d.hrk with deposed := false } } else d

theorem linkMarks_answerCounted (h : FrameIn) (r : CueRespFrame) (d : Dev) : (answerCounted h r d).linkMarks
    = (Tab.upd {} d.hrk.ports h.port (Port.answered h.src), d.hrk.cueSeq, d.hrk.deposed) := by
  unfold answerCounted
  dsimp only
  (repeat' split) <;> rfl

theorem linkMarks_depositionOver (h : FrameIn) (r : CueRespFrame) (d : Dev) : (depositionOver h r d).linkMarks
    = (d.hrk.ports, d.hrk.cueSeq, d.hrk.deposed && !(h.src = 1 && r.gmIdx = 0)) := by
  unfold depositionOver
  split
  · next ends =>
    simp only [Bool.and_assoc, Bool.and_eq_true] at ends
    refine (reports_trace ..).linkMarks_eq.trans ?_
    simp [Dev.linkMarks, ends]
  · next stands =>
    cases hd : d.hrk.deposed
    · simp [Dev.linkMarks, hd]
    · simp [hd] at stands
      simpa [Dev.linkMarks, hd, imp_iff_not_or] using stands

/-- What an answer to a cue leaves: it is counted on its port, names the peer, and ends a deposition where it is
worker 1's to a lead of index 0. -/
theorem linkMarks_cueResp (h : FrameIn) (r : CueRespFrame) (d : Dev) : (cueResp h r d).linkMarks
    = (Tab.upd {} d.hrk.ports h.port (Port.answered h.src),
      d.hrk.cueSeq, d.hrk.deposed && !(h.src = 1 && r.gmIdx = 0)) := by
  have returned (c : Prop) [Decidable c] (e : Dev) : (if c then leadAgain e else e).linkMarks = e.linkMarks := by
    split
    · exact linkMarks_leadAgain e
    · rfl
  have counted := linkMarks_answerCounted h r d
  simp only [Dev.linkMarks, Prod.mk.injEq] at counted
  obtain ⟨ports, seq, deposed⟩ := counted
  refine (releaseManager_spec _).1.trans ((returned ..).trans ((linkMarks_depositionOver h r (answerCounted h r d)).trans ?_))
  rw [ports, seq, deposed]

/-! ### Cues that come in (R57) -/

/-- The time base, and whether a takeover is known of. -/
def Dev.pace (d : Dev) : Tmb × Bool := (d.tmb, d.hrk.takeover)

theorem Dev.Sends.pace_eq {d e : Dev} (h : d.Sends e) : e.pace = d.pace :=
  h.keep Dev.pace (fun _ => rfl) (by intros; rfl)

theorem Dev.Reports.pace_eq {d e : Dev} (h : d.Reports e) : e.pace = d.pace := h.sends.pace_eq

theorem pace_tryC2 (d : Dev) : (tryC2 d).pace = d.pace := by
  unfold tryC2
  dsimp only
  (repeat' split)
  · rfl
  · exact (sends_sendKeyFrames ..).pace_eq.trans (reports_trace ..).pace_eq
  · exact (reports_trace ..).pace_eq

theorem pace_answerCue (p : Nat) (c : CueFrame) (t2 : Nat) (d : Dev) : (answerCue p c t2 d).pace
    = ({ d.tmb with prevCue := some (c.seq, c.t1, t2, d.tmb.ht) }, d.hrk.takeover) := (sends_sendOn ..).pace_eq

theorem pace_leadFromCue (c : CueFrame) (d : Dev) : (leadFromCue c d).pace = (d.tmb, c.takeover) := by
  unfold leadFromCue endStandby
  dsimp only
  (repeat' split) <;> rfl

theorem tmb_leadFromCue (c : CueFrame) (d : Dev) : (leadFromCue c d).tmb = d.tmb :=
  congrArg Prod.fst (pace_leadFromCue c d)

theorem takeover_leadFromCue (c : CueFrame) (d : Dev) : (leadFromCue c d).hrk.takeover = c.takeover :=
  congrArg Prod.snd (pace_leadFromCue c d)

/-- A cue's steering lasts over what follows it on the device. -/
theorem pace_cueFrame (h : FrameIn) (c : CueFrame) (d : Dev) : (cueFrame h c d).pace
    = (tracingTime (cue h.port c) (updPort h.port (fun q => { q with peer := h.src }) d)).pace := by
  unfold cueFrame
  dsimp only
  split
  · rfl
  · exact (sends_resendRecon _).pace_eq

/-- A cue that a worker follows (R57, R178): on its uplink, with a depth to follow and of its own epoch. -/
structure Follows (p : Nat) (c : CueFrame) (d : Dev) : Prop where
  uplink : p = uplink d
  waiting : d.hrk.inWaiting = false
  worker : d.hrk.role = 2
  lead : d.hrk.lead = false
  depth : c.depth < 3
  epoch : c.epochId = d.tmb.epochId

section
variable {p : Nat} {c : CueFrame} {d : Dev} (hf : Follows p c d)
include hf

theorem cue_kept (hx : exchange d c = none) : cue p c d = answerCue p c d.tmb.ht (leadFromCue c d) := by
  obtain ⟨up, waiting, worker, lead, depth, epoch⟩ := hf
  have below : ¬ 3 ≤ c.depth := by omega
  rw [cue, if_neg (by simp [up]), if_neg (by simp [lead]), if_neg (by simp [subordinate, lead, worker, waiting]),
    if_neg (by simp [below, mayFollow, epoch])]
  simp only [hx]

theorem cue_steers {x : Nat × Nat × Nat × Nat} (hx : exchange d c = some x) (ha : cueAccepted d x = true) :
    cue p c d = answerCue p c d.tmb.ht
      (followCue p c x (updPort p (fun q => { q with following := true }) (leadFromCue c d))) := by
  obtain ⟨up, waiting, worker, lead, depth, epoch⟩ := hf
  have below : ¬ 3 ≤ c.depth := by omega
  rw [cue, if_neg (by simp [up]), if_neg (by simp [lead]), if_neg (by simp [subordinate, lead, worker, waiting]),
    if_neg (by simp [below, mayFollow, epoch])]
  simp only [hx]
  rw [if_neg (by simp [ha])]
  simp only [updPort_tmb, tmb_leadFromCue]

end

/-- The time base with a cue taken, before it is steered. -/
def Tmb.cued (c : CueFrame) (off delay : Int) (good : Nat) (belowImage : Bool) (t : Tmb) : Tmb :=
  { t with
    follower := true, everCue := true, cueOffset := off, cueDelay := delay, delays := (delay :: t.delays).take 16
    goodCues := good, uUp := c.u, floorU := c.f, depth := c.depth + 1, belowImage }

/-- The end of a cue's steering. -/
def cueDone (p good : Nat) (d : Dev) : Dev :=
  let d := { d with tmb := { d.tmb with lastCueHt := d.tmb.ht, state := followState d good } }
  countPort p 4 1 { d with tmb := { d.tmb with uLast := d.tmb.cueU } }

theorem followCue_eq {p : Nat} {c : CueFrame} {x : Nat × Nat × Nat × Nat} {d : Dev} (he : c.epochId = d.tmb.epochId) :
    ∃ target good below, followCue p c x d = cueDone p good
      (steer target { d with tmb := d.tmb.cued c (cueOffset d x) (cueDelay d x) good below }) := by
  have own : adoptEpoch c.epochId d = d := if_pos he.symm
  unfold followCue
  rw [own]
  exact ⟨_, _, _, rfl⟩

/-- The time base of a follower of cue `c`, with the offset and the delay of its exchange. -/
structure Tmb.Cued (t : Tmb) (c : CueFrame) (off delay : Int) : Prop where
  follower : t.follower = true
  everCue : t.everCue = true
  cueOffset : t.cueOffset = off
  cueDelay : t.cueDelay = delay
  uUp : t.uUp = c.u
  depth : t.depth = c.depth + 1
  lastCueHt : t.lastCueHt = t.ht
  state : t.state ≠ 3

theorem cued_followCue {p : Nat} {c : CueFrame} {x : Nat × Nat × Nat × Nat} {d : Dev}
    (he : c.epochId = d.tmb.epochId) : (followCue p c x d).tmb.Cued c (cueOffset d x) (cueDelay d x)
      ∧ (followCue p c x d).hrk = d.hrk := by
  obtain ⟨target, good, below, done⟩ := followCue_eq (p := p) (x := x) he
  have steered := reports_steer target { d with tmb := d.tmb.cued c (cueOffset d x) (cueDelay d x) good below }
  rw [done]
  generalize steer target { d with tmb := d.tmb.cued c (cueOffset d x) (cueDelay d x) good below } = e at steered
  have tmb : e.tmb = (d.tmb.cued c (cueOffset d x) (cueDelay d x) good below).steered target := steered.tmb_eq
  have kept {α : Type} (g : Tmb → α) (hg : ∀ (t : Tmb) ht slot lag held stepped steps,
      g { t with ht, slot, lag, held, stepped, steps } = g t) :
      g e.tmb = g (d.tmb.cued c (cueOffset d x) (cueDelay d x) good below) := by
    rw [tmb, Tmb.steered_keep g hg]
  refine ⟨⟨kept Tmb.follower (by intros; rfl), kept Tmb.everCue (by intros; rfl), kept Tmb.cueOffset (by intros; rfl),
    kept Tmb.cueDelay (by intros; rfl), kept Tmb.uUp (by intros; rfl), kept Tmb.depth (by intros; rfl), rfl, ?_⟩,
    steered.hrk_eq⟩
  show followState e good ≠ 3
  unfold followState
  (repeat' split) <;> decide

section
variable {p : Nat} {c : CueFrame} {d : Dev} (hf : Follows p c d)
include hf

/-- A cue that completes no exchange is kept for the next. -/
theorem pace_cue_kept (hx : exchange d c = none) : (tracingTime (cue p c) d).pace
    = ({ d.tmb with prevCue := some (c.seq, c.t1, d.tmb.ht, d.tmb.ht) }, c.takeover) := by
  have answered : (cue p c d).pace
      = ({ d.tmb with prevCue := some (c.seq, c.t1, d.tmb.ht, d.tmb.ht) }, c.takeover) := by
    rw [cue_kept hf hx, pace_answerCue, tmb_leadFromCue, takeover_leadFromCue]
  have same : (cue p c d).tmb = { d.tmb with prevCue := some (c.seq, c.t1, d.tmb.ht, d.tmb.ht) } :=
    congrArg Prod.fst answered
  have kept : lostSteering d (cue p c d) = false := by
    refine lostSteering_eq_false (fun hr => ?_) (fun hs => ?_)
    · rwa [refOk, same]
    · rwa [same] at hs
  rw [(tracingTime_of_kept kept).pace_eq, answered]

/-- A cue that completes an exchange steers; with no accepted delay yet, any delay is. -/
theorem pace_cue_steers {x : Nat × Nat × Nat × Nat} (hx : exchange d c = some x) (hd : d.tmb.delays = []) :
    (tracingTime (cue p c) d).tmb.Cued c (cueOffset d x) (cueDelay d x)
      ∧ (tracingTime (cue p c) d).hrk.takeover = c.takeover := by
  have accepted : cueAccepted d x = true := by simp [cueAccepted, hd]
  have offset : cueOffset (updPort p (fun q => { q with following := true }) (leadFromCue c d)) x = cueOffset d x := by
    simp only [cueOffset, cueDelay, updPort_tmb, tmb_leadFromCue]
  have delay : cueDelay (updPort p (fun q => { q with following := true }) (leadFromCue c d)) x = cueDelay d x := by
    simp only [cueDelay, updPort_tmb, tmb_leadFromCue]
  obtain ⟨cued, hrk⟩ := cued_followCue (p := p) (c := c) (x := x)
    (d := updPort p (fun q => { q with following := true }) (leadFromCue c d))
    (by rw [updPort_tmb, tmb_leadFromCue]; exact hf.epoch)
  rw [offset, delay] at cued
  have answered := pace_answerCue p c d.tmb.ht
    (followCue p c x (updPort p (fun q => { q with following := true }) (leadFromCue c d)))
  rw [← cue_steers hf hx accepted, Dev.pace, Prod.mk.injEq] at answered
  obtain ⟨after, under⟩ := answered
  obtain ⟨held, up, gap, traced⟩ := tmb_tracingTime (cue p c) d
  rw [after] at traced
  refine ⟨?_, ?_⟩
  · rw [traced]
    exact ⟨cued.follower, cued.everCue, cued.cueOffset, cued.cueDelay, cued.uUp, cued.depth, cued.lastCueHt, cued.state⟩
  · rw [hrk_tracingTime, under, hrk]
    exact takeover_leadFromCue c d

end

/-! ### Ports and cues -/

theorem carried_iff {d : Dev} {q : FrameIn} :
    carried d q = true ↔ harkaOn d = true ∧ (getPort d q.port).trained = true ∧ q.intact = true := by
  simp only [carried, Bool.and_eq_true, and_assoc]

/-- What its uplink and its cues are to a follower is no matter of the ports. -/
theorem Follows.of_ports {p : Nat} {c : CueFrame} {d e : Dev} {ports : Tab Port} (hf : Follows p c d)
    (tmb : e.tmb = d.tmb) (hrk : e.hrk = { d.hrk with ports }) : Follows p c e where
  uplink := by
    rw [hf.uplink]
    simp only [Machine.uplink, hrk, hf.waiting, Bool.false_eq_true, if_false]
    rfl
  waiting := by rw [hrk]; exact hf.waiting
  worker := by rw [hrk]; exact hf.worker
  lead := by rw [hrk]; exact hf.lead
  depth := hf.depth
  epoch := by rw [tmb]; exact hf.epoch

/-- A cue that comes in reaches the follower. -/
theorem cue_arrives {q : FrameIn} {c : CueFrame} {d : Dev} (hon : harkaOn d = true)
    (ht : (getPort d q.port).trained = true) (hi : q.intact = true) (hf : Follows q.port c d) :
    ∃ e, Follows q.port c e ∧ e.tmb = d.tmb
      ∧ (tryC2 (arrive q (cueBytes c) (cueFrame q c) d)).pace = (tracingTime (cue q.port c) e).pace := by
  obtain ⟨e, he, arrived⟩ := arrive_carried (carried_iff.mpr ⟨hon, ht, hi⟩) (cueBytes c) (cueFrame q c)
  have tmb : e.tmb = d.tmb := arrived.tmb_eq
  have hrk : e.hrk = d.hrk := arrived.hrk_eq
  refine ⟨updPort q.port (fun r => { r with peer := q.src }) e, ?_, tmb, ?_⟩
  · refine hf.of_ports (ports := Tab.upd {} e.hrk.ports q.port (fun r => { r with peer := q.src })) tmb ?_
    rw [← hrk]
    rfl
  · rw [he, pace_tryC2, pace_cueFrame]

/-- Settles O57: the frame reaches its taker past the frame layer, whose reports leave the port and the time base, and
the cue that completes an exchange is read by `pace_cue_steers`, the other by `pace_cue_kept`. -/
theorem portsAndCues : Obligations.PortsAndCues := by
  refine ⟨fun p s hon hen hm hd => ?_, fun p s h => onDev_idle (portTrained_idle h), fun p s h => ?_,
    fun p s h => onDev_idle (tracingTime_idle (portLost_idle h)), fun s hon => ?_,
    fun s hoff => onDev_idle (tracingTime_idle (if_pos (by simp [hoff]))), fun q r s hon htr hin => ?_,
    fun q c x s hon htr hin hup hw hr hl hdp hep hx hdl => ?_, fun q c s hon htr hin hup hw hr hl hdp hep hx => ?_⟩
  · obtain ⟨t, ht, ho, hd'⟩ := onDev_next (portTrained p) s
    rw [portTrained_up hon hen hm hd] at hd'
    have port : getPort t.dev p = (getPort s.dev p).up (dirOf s.dev p) := by
      rw [hd']
      split
      · exact ((sends_sendOn ..).keep (fun d => getPort d p) (fun _ => rfl) (by intros; rfl)).trans getPort_portUp
      · exact getPort_portUp
    refine ⟨t, ht, ho, congrArg Port.trained port, congrArg Port.responses port, fun hp => ?_⟩
    rw [hd', if_neg hp]
    exact .refl _
  · obtain ⟨t, ht, ho, hd⟩ := onDev_next (tracingTime (portLost p)) s
    refine ⟨t, ht, ho, ?_⟩
    rw [hd, getPort, hrk_tracingTime]
    exact trained_portLost h
  · obtain ⟨t, ht, ho, hd⟩ := onDev_next (tracingTime sendCues) s
    obtain ⟨seq, sent⟩ := sendCues_spec hon
    refine ⟨t, ht, ho, ?_, fun p hp => ?_⟩
    · rw [hd, hrk_tracingTime, seq]
    · obtain ⟨f, out, type, dst, payload⟩ := sent p hp
      exact ⟨f, hd ▸ tells_tracingTime sendCues s.dev out, type, dst, payload, rfl⟩
  · obtain ⟨t, ht, ho, hd⟩ := onDev_next (arrive q (cueRespBytes r) (tracingTime (cueResp q r))) s
    obtain ⟨e, he, arrived⟩ := arrive_carried (carried_iff.mpr ⟨hon, htr, hin⟩) (cueRespBytes r)
      (tracingTime (cueResp q r))
    have hrk : e.hrk = s.dev.hrk := arrived.hrk_eq
    have marks := linkMarks_cueResp q r e
    rw [he] at hd
    rw [Dev.linkMarks, ← hrk_tracingTime, ← hd, Prod.mk.injEq, Prod.mk.injEq, hrk] at marks
    obtain ⟨ports, -, deposed⟩ := marks
    have port : getPort t.dev q.port = (getPort s.dev q.port).answered q.src := by
      rw [getPort, ports, Tab.get_upd, if_pos rfl]
      rfl
    refine ⟨t, ht, ho, congrArg Port.responses port, congrArg Port.peer port, fun _ hsrc hgm => ?_⟩
    rw [deposed]
    simp [hsrc, hgm]
  · obtain ⟨e, follows, tmb, paced⟩ := cue_arrives hon htr hin ⟨hup, hw, hr, hl, hdp, hep⟩
    obtain ⟨t, ht, ho, hd⟩ := onDev_next (fun d => tryC2 (arrive q (cueBytes c) (cueFrame q c) d)) s
    rw [← hd, Dev.pace, Dev.pace, Prod.mk.injEq] at paced
    obtain ⟨pace, under⟩ := paced
    obtain ⟨cued, takeover⟩ := pace_cue_steers follows (x := x) (by rwa [exchange, tmb]) (by rwa [tmb])
    have offset : cueOffset e x = cueOffset s.dev x := by simp only [cueOffset, cueDelay, tmb]
    have delay : cueDelay e x = cueDelay s.dev x := by simp only [cueDelay, tmb]
    rw [← pace, offset, delay] at cued
    exact ⟨t, ht, ho, cued.follower, cued.everCue, cued.cueOffset, cued.cueDelay, cued.uUp, cued.depth,
      under.trans takeover, cued.lastCueHt⟩
  · obtain ⟨e, follows, tmb, paced⟩ := cue_arrives hon htr hin ⟨hup, hw, hr, hl, hdp, hep⟩
    obtain ⟨t, ht, ho, hd⟩ := onDev_next (fun d => tryC2 (arrive q (cueBytes c) (cueFrame q c) d)) s
    rw [← hd, pace_cue_kept follows (by rwa [exchange, tmb]), tmb, Dev.pace, Prod.mk.injEq] at paced
    exact ⟨t, ht, ho, paced⟩

end Sys2Proof.Machine
end

section
/-!
PROOFS. JOIN and ASSIGN, takeover, deposition and the standby uplink (R59, R179, R180, R192 to R194; O58).
-/

namespace Sys2Proof.Machine

/-- Frames lose no reference. -/
theorem lostSteering_of_tmb {d e : Dev} (h : e.tmb = d.tmb) : lostSteering d e = false := by
  refine lostSteering_eq_false (fun hr => ?_) (fun hs => ?_)
  · rwa [refOk, h]
  · rwa [h] at hs

theorem Dev.FrameOnly.tmb_eq {d e : Dev} (h : d.FrameOnly e) : e.tmb = d.tmb :=
  h.keep Dev.tmb (fun _ => rfl) (by intros; rfl)

/-! ### JOIN (R180) -/

/-- What the answer to a JOIN turns on. -/
theorem decideJoin_congr {d e : Dev} (hn : e.hrk.nodes = d.hrk.nodes) (hi : e.hrk.index = d.hrk.index) (f : JoinFrame)
    (depth : Nat) : decideJoin e f depth = decideJoin d f depth := by
  have held : indexHeld e = indexHeld d := by
    funext i f
    rw [indexHeld, indexHeld, getNode, getNode, hn, hi]
  have workers : otherWorkers e f = otherWorkers d f := by rw [otherWorkers, otherWorkers, hn, hi]
  rw [decideJoin, decideJoin, held, workers]

/-- An entry that a filter keeps is read as before. -/
theorem tab_get_filter {α : Type} (dflt : α) (keeps : Nat × α → Bool) (t : Tab α) (j : Nat)
    (h : keeps (j, Tab.get dflt t j) = true) : Tab.get dflt (t.filter keeps) j = Tab.get dflt t j := by
  induction t with
  | nil => rfl
  | cons e rest ih =>
    obtain ⟨i, v⟩ := e
    by_cases hij : i = j
    · subst hij
      have kept : keeps (i, v) = true := by simpa [Tab.get] using h
      simp [kept, Tab.get]
    · have others : Tab.get dflt ((i, v) :: rest) j = Tab.get dflt rest j := by simp [Tab.get, hij]
      rw [others] at h ⊢
      rw [← ih h, List.filter_cons]
      split
      · simp [Tab.get, hij]
      · rfl

/-- A node once its device is granted the index. -/
def Node.granted (f : JoinFrame) (depth : Nat) (n : Node) : Node :=
  { n with present := true, reported := false, status := {}, serial := f.serial, depth, takeoverEn := f.takeoverEn }

/-- The lead with index `i` granted to the device of a JOIN over port `p`. -/
def joinGranted (p i : Nat) (f : JoinFrame) (depth : Nat) (d : Dev) : Dev :=
  { d with hrk := { d.hrk with
    nodes := Tab.upd {} (d.hrk.nodes.filter (fun e => e.2.serial ≠ f.serial || e.1 = i)) i (Node.granted f depth)
    seenSeqs := d.hrk.seenSeqs.filter (fun e => !(e.1 = p && e.2.1 = i))
    routes := (i, p) :: d.hrk.routes.filter (fun e => e.1 ≠ i), dismissed := d.hrk.dismissed && i ≠ 1 } }

section
variable {p i res depth : Nat} {f : JoinFrame} {d : Dev}

theorem sends_answerJoin (h : decideJoin d f depth = (res, some i)) :
    (joinGranted p i f depth d).Sends (answerJoin p f depth d) := by
  simp only [answerJoin, h]
  exact (sends_sendOn ..).trans (reports_trace ..).sends

theorem getNode_joinGranted_same : getNode (joinGranted p i f depth d) i
    = Node.granted f depth (Tab.get {} (d.hrk.nodes.filter (fun e => e.2.serial ≠ f.serial || e.1 = i)) i) :=
  (Tab.get_upd ..).trans (if_pos rfl)

theorem getNode_joinGranted_other {j : Nat} (hj : j ≠ i) (hs : (getNode d j).serial ≠ f.serial) :
    getNode (joinGranted p i f depth d) j = getNode d j := by
  refine (Tab.get_upd ..).trans ((if_neg (Ne.symm hj)).trans (tab_get_filter _ _ _ _ ?_))
  simpa using .inl hs

theorem portTo_joinGranted : portTo (joinGranted p i f depth d) i = p := by simp [portTo, joinGranted]

end

/-- A JOIN that reaches the lead is answered; before that the ports and routes may have changed, and the frame been
acknowledged. -/
theorem join_arrives {q : FrameIn} {f : JoinFrame} {depth res i : Nat} {d : Dev} (hc : carried d q = true)
    (hd : (getPort d q.port).dir ≠ 2) (ha : actsLead d = true)
    (hs : d.hrk.seenSeqs.contains (q.port, 0x10000 + f.serial, q.seq) = false)
    (hj : decideJoin d f depth = (res, some i)) :
    ∃ e, d.FrameOnly e ∧ e.hrk.nodes = d.hrk.nodes
      ∧ (joinGranted q.port i f depth e).Sends
        (arrive q (joinBytes f) (overTree q (tracingTime (joinFrame q f depth))) d) := by
  obtain ⟨e₁, h₁, arrived⟩ := arrive_carried hc (joinBytes f) (overTree q (tracingTime (joinFrame q f depth)))
  have hrk₁ : e₁.hrk = d.hrk := arrived.hrk_eq
  obtain ⟨e₂, h₂, treed, hrk₂⟩ := overTree_live (d := e₁) (q := q) (by rwa [getPort, hrk₁])
    (tracingTime (joinFrame q f depth))
  have leads : actsLead e₂ = true := by
    rw [actsLead, hrk₂, hrk₁]
    exact ha
  obtain ⟨e₃, h₃, acks⟩ := acked_taken (q := q) (d := e₂) (who := 0x10000 + f.serial)
    (by rw [hrk₂, hrk₁, hs, Bool.and_false]) (answerJoin q.port f depth)
  have nodes : e₃.hrk.nodes = d.hrk.nodes := by
    refine (acks.keep (fun e => e.hrk.nodes) (fun _ => rfl) (by intros; rfl)).trans ?_
    rw [hrk₂, hrk₁]
  have index : e₃.hrk.index = d.hrk.index := by
    refine (acks.keep (fun e => e.hrk.index) (fun _ => rfl) (by intros; rfl)).trans ?_
    rw [hrk₂, hrk₁]
  have granted := sends_answerJoin (p := q.port) ((decideJoin_congr nodes index f depth).trans hj)
  have answered : joinFrame q f depth e₂ = answerJoin q.port f depth e₃ := by
    rw [joinFrame, if_pos leads, h₃]
  have kept := tracingTime_of_kept (f := joinFrame q f depth) (d := e₂) (lostSteering_of_tmb (by
    rw [answered, granted.tmb_eq]
    exact acks.tmb_eq))
  rw [answered, ← h₂, ← h₁] at kept
  exact ⟨e₃, arrived.frameOnly.trans (treed.trans acks.frameOnly), nodes, granted.trans kept.sends⟩

/-! ### ASSIGN (R180) -/

/-- The place of a device in the hierarchy, and the index that it has stored. -/
def Dev.seat (d : Dev) : Nat × Bool × Nat × Nat × Bool × Option Nat :=
  (d.hrk.role, d.hrk.lead, d.hrk.index, d.hrk.depth, d.hrk.joining, d.flash.hidx)

theorem Dev.Sends.seat_eq {d e : Dev} (h : d.Sends e) : e.seat = d.seat :=
  h.keep Dev.seat (fun _ => rfl) (by intros; rfl)

/-- An ASSIGN for the device's own JOIN is taken. -/
theorem assign_arrives {q : FrameIn} {f : AssignFrame} {d : Dev} (hh : heard d q = true) (hj : d.hrk.joining = true) :
    ∃ e, d.FrameOnly e ∧ e.hrk.joining = true
      ∧ (takeAnswer f e).Timed (arrive q (assignBytes f) (overTree q (tracingTime (assignFrame q f))) d) := by
  simp only [heard, Bool.and_eq_true, decide_eq_true_eq, Bool.not_eq_true'] at hh
  obtain ⟨⟨⟨carries, ours⟩, live⟩, unseen⟩ := hh
  obtain ⟨e₁, h₁, arrived⟩ := arrive_carried carries (assignBytes f) (overTree q (tracingTime (assignFrame q f)))
  have hrk₁ : e₁.hrk = d.hrk := arrived.hrk_eq
  obtain ⟨e₂, h₂, treed, hrk₂⟩ := overTree_live (d := e₁) (q := q) (by rwa [getPort, hrk₁])
    (tracingTime (assignFrame q f))
  obtain ⟨e₃, h₃, routes⟩ := routed_forUs (d := e₂) (q := q) (by rw [forUs, ownIndex, hrk₂, hrk₁]; exact ours)
    4 (assignBytes f) (acked q q.src (takeAnswer f))
  have hrk₃ : e₃.hrk = e₂.hrk := routes.hrk_eq
  obtain ⟨e₄, h₄, acks⟩ := acked_taken (d := e₃) (q := q) (who := q.src) (by rw [hrk₃, hrk₂, hrk₁]; exact unseen)
    (takeAnswer f)
  have joining : e₂.hrk.joining = true := by
    rw [hrk₂, hrk₁]
    exact hj
  have taken : assignFrame q f e₂ = takeAnswer f e₄ := by
    rw [assignFrame, if_neg (by simp [joining]), h₃, h₄]
  have traced := timed_tracingTime (assignFrame q f) e₂
  rw [taken, ← h₂, ← h₁] at traced
  refine ⟨e₄, arrived.frameOnly.trans (treed.trans (routes.frameOnly.trans acks.frameOnly)), ?_, traced⟩
  exact (acks.keep (fun e => e.hrk.joining) (fun _ => rfl) (by intros; rfl)).trans (by rw [hrk₃]; exact joining)

theorem seat_takeAnswer_granted {f : AssignFrame} {d : Dev} (hj : d.hrk.joining = true) (hr : f.result < 2) :
    (takeAnswer f d).seat = (2, false, f.index, f.depth, false, some f.index) := by
  have redirected (e : Dev) : (redirect e).seat = e.seat := rfl
  rw [takeAnswer, if_neg (by simp [hj]), if_pos hr, (reports_trace ..).sends.seat_eq, takeAssign,
    (sends_sendAllDir _).seat_eq, redirected]
  rfl

theorem takeAnswer_refused {f : AssignFrame} {d : Dev} (hj : d.hrk.joining = true) (hr : 2 ≤ f.result) :
    takeAnswer f d = refuseAssign d := by
  rw [takeAnswer, if_neg (by simp [hj]), if_neg (by omega)]

/-! ### Takeover (R59, R192) -/

section
variable {d : Dev}

/-- Worker 1 as it becomes the lead. -/
def leadTaken (d : Dev) : Dev := { d with
  hrk := { d.hrk with lead := true, takeover := true, nodes := [], summaries := [], keys := [] }
  tmb := { d.tmb with follower := false, floorU := uField d, depth := 0, lag := 0 } }

theorem takeover_spec (hon : harkaOn d = true) (hen : bit d.hrk.ctl 10 = true) (hr : d.hrk.role = 2)
    (hi : d.hrk.index = 1) (hd : d.hrk.depth = 1) (hl : d.hrk.lead = false) (he : d.flash.epoch.isSome = true)
    (hm : takeoverMode d.chp.mode = true) (hp : powerEvent d.hrk.upMode = false) :
    (takeover d).tmb = (leadTaken d).tmb ∧ (takeover d).hrk.lead = true ∧ (takeover d).hrk.takeover = true := by
  have told (u : Nat) (e : Dev) : e.Reports (traceLead (postEvent 0x0E 0 [u] e)) :=
    (reports_postEvent ..).trans (reports_trace ..)
  have cut (path : Prop) [Decidable path] : (if path then xferPathLost (leadTaken d) else leadTaken d).tmb
      = (leadTaken d).tmb ∧ (if path then xferPathLost (leadTaken d) else leadTaken d).hrk.lead = true
        ∧ (if path then xferPathLost (leadTaken d) else leadTaken d).hrk.takeover = true := by
    split
    · obtain ⟨tmb, _, _, _, hrk⟩ := xferPathLost_links (leadTaken d)
      exact ⟨tmb, by rw [hrk]; rfl, by rw [hrk]; rfl⟩
    · exact ⟨rfl, rfl, rfl⟩
  rw [takeover, if_neg (by simp [hon, hen, hr, hi, hd, hl, he, hm, hp])]
  dsimp only
  rw [(told ..).tmb_eq, (told ..).hrk_eq]
  exact cut _

theorem takeover_idle (h : harkaOn d = false ∨ bit d.hrk.ctl 10 = false ∨ d.hrk.role ≠ 2 ∨ d.hrk.index ≠ 1
    ∨ d.hrk.depth ≠ 1 ∨ d.hrk.lead = true ∨ d.flash.epoch = none ∨ takeoverMode d.chp.mode = false
    ∨ powerEvent d.hrk.upMode = true) : takeover d = d := by
  rw [takeover, if_pos]
  obtain h | h | h | h | h | h | h | h | h := h <;> simp [h]

/-! ### Deposition (R194) -/

theorem reports_depose (hon : harkaOn d = true) (hr : d.hrk.role = 1) (ha : actsLead d = true)
    (hd : d.hrk.deposed = false) (hp : (getNode d 1).present = true) (ht : (getNode d 1).takeoverEn = true)
    (hm : powerEvent (getNode d 1).status.mode = false) :
    Dev.Reports { d with hrk := { d.hrk with deposed := true } } (depose d) := by
  rw [depose, if_neg (by simp [hon, hr, ha, hd, hp, ht, hm])]
  exact reports_trace ..

theorem depose_idle (h : harkaOn d = false ∨ d.hrk.role ≠ 1 ∨ actsLead d = false ∨ d.hrk.deposed = true
    ∨ (getNode d 1).present = false ∨ (getNode d 1).takeoverEn = false
    ∨ powerEvent (getNode d 1).status.mode = true) : depose d = d := by
  rw [depose]
  dsimp only
  rw [if_pos]
  obtain h | h | h | h | h | h | h := h <;> simp [h]

/-- Worker 1 counts as absent. -/
def Node.gone (n : Node) : Node := { n with present := false, reported := false, status := {} }

/-- The lead told to dismiss worker 1. -/
def dismissUs (d : Dev) : Dev :=
  if !d.hrk.deposed then d
  else updNode 1 Node.gone { d with hrk := { d.hrk with deposed := false, dismissed := true } }

/-! ### The standby uplink (R193) -/

/-- The uplink and what it stands on. -/
def Dev.standby (d : Dev) : Bool × Nat × Bool := (d.hrk.onStandby, uplink d, d.hrk.takeover)

theorem standby_standbySwitch (hon : harkaOn d = true) (hr : d.hrk.role = 2) (hd : d.hrk.depth = 1)
    (hi : d.hrk.index ≠ 1) (h1 : 1 ≤ d.hrk.standbyPort) (h8 : d.hrk.standbyPort ≤ 8) (hs : d.hrk.onStandby = false)
    (ht : d.hrk.sawTakeover = true) (hp : (getPort d d.hrk.standbyPort).trained = true)
    (hw : d.hrk.inWaiting = false) : (standbySwitch d).standby = (true, d.hrk.standbyPort, true) := by
  rw [standbySwitch, if_neg (by simp [hon, hr, hd, hi, h1, h8, hs, ht, hp])]
  refine ((sends_resendRecon _).keep Dev.standby (fun _ => rfl) (by intros; rfl)).trans ?_
  exact congrArg (fun p => (true, p, true)) (if_neg (by simp [updPort, hw]))

theorem standbySwitch_idle (h : harkaOn d = false ∨ d.hrk.role ≠ 2 ∨ d.hrk.depth ≠ 1 ∨ d.hrk.index = 1
    ∨ d.hrk.standbyPort = 0 ∨ 8 < d.hrk.standbyPort ∨ d.hrk.onStandby = true ∨ d.hrk.sawTakeover = false
    ∨ (getPort d d.hrk.standbyPort).trained = false) : standbySwitch d = d := by
  rw [standbySwitch, if_pos]
  obtain h | h | h | h | h | h | h | h | h := h <;> simp [h]

end

/-! ### The statement -/

/-- Settles O58: JOIN and ASSIGN reach their taker past the frame layer; what each other command writes is
stated once, tracing the timing state adds only to the time base, and where its guard fails it is the identity. -/
theorem joinTakeoverAndStandby : Obligations.JoinTakeoverAndStandby := by
  refine ⟨fun q i res dep f s hc hd ha hs hj => ?_, fun q f s hh hj hr => ?_, fun q f s hh hj hr => ?_,
    fun s hon hen hr hi hd hl he hm hp => ?_, fun s h => onDev_idle (tracingTime_idle (takeover_idle h)),
    fun s hon hr ha hd hp ht hm => ?_, fun s h => onDev_idle (tracingTime_idle (depose_idle h)), fun s hd => ?_,
    fun s hd => onDev_idle (tracingTime_idle (f := dismissUs) (if_pos (by simp [hd]))),
    fun s hon hr hd hi h1 h8 hs ht hp hw => ?_, fun s h => onDev_idle (tracingTime_idle (standbySwitch_idle h))⟩
  · obtain ⟨e, frames, nodes, sends⟩ := join_arrives hc hd ha hs hj
    obtain ⟨t, run, only, ran⟩ := onDev_next (arrive q (joinBytes f) (overTree q (tracingTime (joinFrame q f dep)))) s
    rw [← ran] at sends
    have node (j : Nat) : getNode t.dev j = getNode (joinGranted q.port i f dep e) j :=
      sends.keep (fun d => getNode d j) (fun _ => rfl) (by intros; rfl)
    have route : portTo t.dev i = portTo (joinGranted q.port i f dep e) i :=
      sends.keep (fun d => portTo d i) (fun _ => rfl) (by intros; rfl)
    have earlier (j : Nat) : getNode e j = getNode s.dev j := by rw [getNode, getNode, nodes]
    refine ⟨t, run, only, ?_, ?_, ?_, route.trans portTo_joinGranted, fun j other held => ?_,
      frames.trans ((frameOnly_hrk e _).trans sends.frameOnly)⟩
    · rw [node, getNode_joinGranted_same]
      rfl
    · rw [node, getNode_joinGranted_same]
      rfl
    · rw [node, getNode_joinGranted_same]
      rfl
    · rw [node, getNode_joinGranted_other other (by rwa [earlier]), earlier]
  · obtain ⟨e, _, joining, traced⟩ := assign_arrives hh hj
    obtain ⟨t, run, only, ran⟩ := onDev_next (arrive q (assignBytes f) (overTree q (tracingTime (assignFrame q f)))) s
    rw [← ran] at traced
    have seat : t.dev.seat = (2, false, f.index, f.depth, false, some f.index) :=
      (traced.keep Dev.seat (fun _ => rfl) (by intros; rfl)).trans (seat_takeAnswer_granted joining hr)
    simp only [Dev.seat, Prod.mk.injEq] at seat
    obtain ⟨role, lead, index, depth, joined, stored⟩ := seat
    exact ⟨t, run, only, role, lead, index, depth, stored, joined⟩
  · obtain ⟨e, frames, joining, traced⟩ := assign_arrives hh hj
    obtain ⟨t, run, only, ran⟩ := onDev_next (arrive q (assignBytes f) (overTree q (tracingTime (assignFrame q f)))) s
    rw [← ran, takeAnswer_refused joining hr] at traced
    have links : t.dev.hrk = (refuseAssign e).hrk := traced.keep Dev.hrk (fun _ => rfl) (by intros; rfl)
    have flash : t.dev.flash = e.flash := traced.keep Dev.flash (fun _ => rfl) (by intros; rfl)
    exact ⟨t, run, only, by rw [links]; rfl, by rw [links]; rfl, by rw [links]; rfl,
      flash.trans (frames.keep Dev.flash (fun _ => rfl) (by intros; rfl))⟩
  · obtain ⟨t, run, only, ran⟩ := onDev_next (tracingTime takeover) s
    obtain ⟨tmb, lead, taken⟩ := takeover_spec hon hen hr hi hd hl he hm hp
    have time {α : Type} (g : Tmb → α)
        (hg : ∀ (t : Tmb) held up gap, g { t with held, heldUp := up, heldGap := gap } = g t) :
        g t.dev.tmb = g (leadTaken s.dev).tmb := by
      rw [ran, tracingTime_keep _ _ g hg, tmb]
    refine ⟨t, run, only, ?_, ?_, time Tmb.follower (by intros; rfl), time Tmb.depth (by intros; rfl),
      time Tmb.floorU (by intros; rfl), time Tmb.ht (by intros; rfl)⟩
    · rw [ran, hrk_tracingTime, lead]
    · rw [ran, hrk_tracingTime, taken]
  · obtain ⟨t, run, only, ran⟩ := onDev_next (tracingTime depose) s
    have deposed := reports_depose hon hr ha hd hp ht hm
    refine ⟨t, run, only, deposed.trans ?_⟩
    rw [ran]
    exact tracingTime_of_kept (lostSteering_of_tmb deposed.tmb_eq)
  · obtain ⟨t, run, only, ran⟩ := onDev_next (tracingTime dismissUs) s
    have told : dismissUs s.dev = updNode 1 Node.gone
        { s.dev with hrk := { s.dev.hrk with deposed := false, dismissed := true } } := if_neg (by simp [hd])
    have kept : (dismissUs s.dev).Reports t.dev := by
      rw [ran]
      exact tracingTime_of_kept (lostSteering_of_tmb (by rw [told]; rfl))
    rw [told] at kept
    have links := kept.hrk_eq
    refine ⟨t, run, only, by rw [links]; rfl, by rw [links]; rfl, ?_, by rw [links]; exact kept⟩
    rw [getNode, links]
    exact congrArg Node.present ((Tab.get_upd ..).trans (if_pos rfl))
  · obtain ⟨t, run, only, ran⟩ := onDev_next (tracingTime standbySwitch) s
    have standby : t.dev.standby = (true, s.dev.hrk.standbyPort, true) := by
      rw [ran, (timed_tracingTime standbySwitch s.dev).keep Dev.standby (fun _ => rfl) (by intros; rfl)]
      exact standby_standbySwitch hon hr hd hi h1 h8 hs ht hp hw
    simp only [Dev.standby, Prod.mk.injEq] at standby
    obtain ⟨moved, uplink, taken⟩ := standby
    exact ⟨t, run, only, moved, uplink, taken⟩

end Sys2Proof.Machine
end

section
/-!
PROOFS. Writes of ADM_E_FIXED and ADM_SEAL_RESERVE (R72): a change of the energy terms, with whatever it brings, leaves
the two registers as they were written (O18).
-/

namespace Sys2Proof.Machine

/-! ### What leaves the two registers alone -/

/-- What is held back of the pack's energy: ADM_E_FIXED and ADM_SEAL_RESERVE. -/
def Dev.heldBack (d : Dev) : W32 × Tab W32 := (d.adm.eFixed, d.adm.sealReserve)

theorem Dev.Recounts.heldBack_eq {d e : Dev} (h : d.Recounts e) : e.heldBack = d.heldBack :=
  h.keep Dev.heldBack fun _ => rfl

theorem Dev.Answers.heldBack_eq {d e : Dev} (h : d.Answers e) : e.heldBack = d.heldBack := h.recounts.heldBack_eq

theorem Dev.Reports.heldBack_eq {d e : Dev} (h : d.Reports e) : e.heldBack = d.heldBack := h.recounts.heldBack_eq

theorem Dev.ImageOnly.heldBack_eq {d e : Dev} (h : d.ImageOnly e) : e.heldBack = d.heldBack :=
  h.keep Dev.heldBack (fun _ => rfl) (fun _ _ _ => rfl)

theorem heldBack_foldl {α : Type} {f : Dev → α → Dev} (hf : ∀ e a, (f e a).heldBack = e.heldBack) (l : List α)
    (d : Dev) : (l.foldl f d).heldBack = d.heldBack := by
  induction l generalizing d with
  | nil => rfl
  | cons a l ih => exact (ih _).trans (hf d a)

/-! ### Rows 16 to 19 of Table 2.3 (R34) -/

theorem heldBack_transition (m : Mode) (cause : Nat) (d : Dev) : (transition m cause d).heldBack = d.heldBack :=
  (reports_transition m cause d).heldBack_eq

theorem heldBack_abortRehearsal (answer : Bool) (d : Dev) : (abortRehearsal answer d).heldBack = d.heldBack := by
  have soiled : (soilArea d).heldBack = d.heldBack := by
    unfold soilArea
    split <;> rfl
  unfold abortRehearsal
  split
  · rfl
  refine Eq.trans ?_ soiled
  dsimp only
  split
  · split
    · exact (answers_endWith ..).heldBack_eq
    · exact (answers_dropDesc ..).heldBack_eq
  · rfl

theorem heldBack_writeLists47 (trigger : Nat) (d : Dev) : (writeLists47 trigger d).heldBack = d.heldBack := by
  have parts (lb : Nat) (l : CallList) (ps : List (Nat × Nat)) (e : Dev) :
      (ps.foldl (fun d p => writePart lb l p d) e).heldBack = e.heldBack :=
    (imageOnly_foldl (fun _ _ => imageOnly_writePart ..) ps e).heldBack_eq
  refine heldBack_foldl (fun e b => ?_) _ d
  split
  · rfl
  unfold writeList writeEntries
  split
  · rfl
  dsimp only
  split
  · exact parts ..
  · rfl

theorem heldBack_enterWriteThrough (cause trigger : Nat) (d : Dev) :
    (enterWriteThrough cause trigger d).heldBack = d.heldBack := by
  have marked (e : Dev) : ((blockList e).foldl (fun d b => safeMark b d) e).heldBack = e.heldBack :=
    (imageOnly_foldl (fun _ _ => imageOnly_safeMark ..) _ e).heldBack_eq
  have noted (e : Dev) (pages : Tab Page) (n : Nat) (b : Bool) :
      Dev.heldBack { e with pages, adm := { e.adm with wtGood := n, wtBudget := b } } = e.heldBack := rfl
  exact (recounts_updateReclaim _).heldBack_eq.trans ((noted ..).trans ((marked _).trans
    ((heldBack_writeLists47 ..).trans ((heldBack_transition ..).trans (heldBack_abortRehearsal ..)))))

theorem ModeRow.heldBack_eq {d e : Dev} (h : ModeRow d e) : e.heldBack = d.heldBack := by
  cases h with
  | stays => rfl
  | falls => exact heldBack_enterWriteThrough ..
  | derates | recovers => exact heldBack_transition ..
  | returns => exact (imageOnly_exposeAll _).heldBack_eq.trans (heldBack_transition ..)

/-! ### A recomputation and the margin test (R75, R128) -/

theorem heldBack_recompute (d : Dev) : (recompute d).heldBack = d.heldBack := by
  rw [Dev.heldBack, recompute_adm]
  rfl

theorem heldBack_recounted (cadence : Bool) (d : Dev) : (recounted cadence d).heldBack = d.heldBack :=
  (recounts_countsChanged _).heldBack_eq.trans (heldBack_recompute d)

theorem heldBack_recomputeNow (d : Dev) : (recomputeNow d).heldBack = d.heldBack := by
  unfold recomputeNow
  split
  · rw [reevaluate_eq]
    refine Eq.trans ?_ (heldBack_recounted false d)
    obtain h | h := reasonsChanged_cases (recounted false d) <;> rw [h]
    exact (recounts_countsChanged _).heldBack_eq.trans
      ((heldBack_recompute _).trans (modeRow_modeRows _).heldBack_eq)
  · rfl

theorem heldBack_intToCurtain (cause exit : Nat) (d : Dev) : (intToCurtain cause exit d).heldBack = d.heldBack := by
  have restarted : (restartTime d).heldBack = d.heldBack := by
    unfold restartTime awaitResponses
    (repeat' split) <;> rfl
  have left (e : Dev) : (leaveSelfRefresh e).heldBack = e.heldBack :=
    (reports_foldl (fun e b => reports_countBlk b 16 8 e) _ e).heldBack_eq
  exact (heldBack_recomputeNow _).trans ((heldBack_transition ..).trans ((left _).trans restarted))

theorem heldBack_marginTest (d : Dev) : (marginTest d).heldBack = d.heldBack := by
  have falls (c : Prop) [Decidable c] : (if c then intToCurtain 0x0B 3 d else d).heldBack = d.heldBack := by
    split
    · exact heldBack_intToCurtain ..
    · rfl
  unfold marginTest
  split
  · rfl
  · exact falls _

theorem heldBack_energyChanged (d : Dev) : (energyChanged d).heldBack = d.heldBack := by
  unfold energyChanged
  split
  · exact heldBack_marginTest d
  · exact heldBack_recomputeNow d

/-! ### The two writes (R10, R72) -/

/-- A whole write of a 32-bit register, outside a port's window, over a link that is up: counted, and taken. -/
theorem registerWrite_take32 {w : RegWrite} {d : Dev} (hl : linkUp d = true) (hw : w.size = .whole)
    (hp : regPresent (count 0 1 d) w.reg = true) (h32 : is64 w.reg = false) (hd : ∀ c off, w.reg ≠ .flcData c off) :
    registerWrite w d = take32 w.reg (w.value.truncate 32) (count 0 1 d) := by
  simp only [registerWrite, hl, hw, hp, Bool.not_true, Bool.false_eq_true, if_false]
  -- `hd` has ruled out the rows of a port's window.
  exact if_neg (by simp [h32])

theorem dsEFixed_le (n : Nat) : dsEFixed n ≤ 110000 := by
  unfold dsEFixed
  (repeat' split) <;> decide

theorem eFixed_eFixedWrite (x : W32) (d : Dev) :
    (eFixedWrite x d).adm.eFixed.toNat = max x.toNat (dsEFixed d.board.blocks) := by
  have taken : (eFixedWrite x d).adm.eFixed = BitVec.ofNat 32 (max x.toNat (dsEFixed d.board.blocks)) :=
    congrArg Prod.fst (heldBack_energyChanged _)
  have floor := dsEFixed_le d.board.blocks
  have word := x.isLt
  rw [taken, BitVec.toNat_ofNat, Nat.mod_eq_of_lt (by omega)]

theorem clamp_eq_min_max {lo hi : Nat} (h : lo ≤ hi) (v : Nat) : clamp lo hi v = min hi (max lo v) := by
  unfold clamp
  (repeat' split) <;> omega

theorem sealReserve_take32 (b : Nat) (x : W32) (d : Dev) : (take32 (.admSealReserve b) x d).adm.sealReserve
    = Tab.set d.adm.sealReserve b (BitVec.ofNat 32 (min 100000 (max 5000 x.toNat))) := by
  rw [← clamp_eq_min_max (by decide)]
  exact congrArg Prod.snd (heldBack_energyChanged _)

/-- Settles O18. -/
theorem energyReserveWrites : Obligations.EnergyReserveWrites := by
  refine ⟨fun w s hl hw hr => ?_, fun w b s hl hw hr hb => ?_⟩
  · obtain ⟨t, run, only, ran⟩ := onDev_next (registerWrite w) s
    refine ⟨t, run, only, ?_⟩
    rw [ran, registerWrite_take32 hl hw (by rw [hr]; rfl) (by rw [hr]; rfl) (by simp [hr]), hr]
    exact (eFixed_eFixedWrite ..).trans (by rw [BitVec.truncate_eq_setWidth, BitVec.toNat_setWidth]; rfl)
  · obtain ⟨t, run, only, ran⟩ := onDev_next (registerWrite w) s
    have set : t.dev.adm.sealReserve = Tab.set s.dev.adm.sealReserve b
        (BitVec.ofNat 32 (min 100000 (max 5000 (w.value.toNat % 2 ^ 32)))) := by
      rw [ran, registerWrite_take32 hl hw (by rw [hr]; exact hb) (by rw [hr]; rfl) (by simp [hr]), hr,
        sealReserve_take32, BitVec.truncate_eq_setWidth, BitVec.toNat_setWidth]
      rfl
    refine ⟨t, run, only, ?_, fun c hc => ?_⟩
    · rw [set, Tab.get_set, if_pos rfl, BitVec.toNat_ofNat, Nat.mod_eq_of_lt (by omega)]
    · rw [set, Tab.get_set, if_neg (Ne.symm hc)]

end Sys2Proof.Machine
end

section
/-!
PROOFS. Wear credit: a millisecond's fill and the stored state (R91); and the shift of the log window (R94; O23).
-/

namespace Sys2Proof.Machine

/-! ### Folds over the blocks -/

section
variable {f : Dev → Nat → Dev} (other : ∀ e b j, j ≠ b → getBlk (f e b) j = getBlk e j)
include other

theorem getBlk_foldl_of_not_mem {l : List Nat} {j : Nat} (hj : j ∉ l) (d : Dev) :
    getBlk (l.foldl f d) j = getBlk d j := by
  induction l generalizing d with
  | nil => rfl
  | cons b l ih =>
    rw [List.mem_cons, not_or] at hj
    rw [List.foldl_cons, ih hj.2, other _ _ _ hj.1]

/-- A fold that works on each block once brings each of its blocks to what one step makes of it. -/
theorem getBlk_foldl_of_mem {R : Blk → Blk → Prop} (own : ∀ e b, R (getBlk e b) (getBlk (f e b) b)) {l : List Nat}
    (hl : l.Nodup) {j : Nat} (hj : j ∈ l) (d : Dev) : R (getBlk d j) (getBlk (l.foldl f d) j) := by
  induction l generalizing d with
  | nil => cases hj
  | cons b l ih =>
    obtain ⟨hb, hl⟩ := List.nodup_cons.mp hl
    rw [List.foldl_cons]
    by_cases h : j = b
    · subst h
      rw [getBlk_foldl_of_not_mem other hb]
      exact own d j
    · rw [← other d b j h]
      exact ih hl ((List.mem_cons.mp hj).resolve_left h) _

end

theorem mem_blockList {d : Dev} {b : Nat} : b ∈ blockList d ↔ b < d.board.blocks := List.mem_range

theorem nodup_blockList (d : Dev) : (blockList d).Nodup := List.nodup_range

/-! ### Wear credit (R91) -/

/-- One block's fill, with the time it spent under pressure and short of budget. -/
def fillStep (d : Dev) (b : Nat) : Dev :=
  updBlk b (fillBlock d.debtWarnBytes)
    (countBlk b 9 (boolNat (getBlk d b).pressure) (countBlk b 10 (boolNat (0 < shortB d b)) d))

theorem wearFill_eq (d : Dev) : wearFill d = (blockList d).foldl fillStep d := rfl

theorem blkOnly_fillStep (d : Dev) (b : Nat) : d.BlkOnly (fillStep d b) :=
  (blkOnly_countBlk ..).trans ((blkOnly_countBlk ..).trans (blkOnly_updBlk ..))

theorem blkOnly_wearFill (d : Dev) : d.BlkOnly (wearFill d) := by
  rw [wearFill_eq]
  exact List.foldlRecOn _ _ (Dev.Reports.refl d).blkOnly fun e he b _ => he.trans (blkOnly_fillStep e b)

theorem getBlk_fillStep_same (d : Dev) (b : Nat) :
    getBlk (fillStep d b) b = fillBlock d.debtWarnBytes (getBlk d b) := by
  simp [fillStep, getBlk_countBlk]

theorem getBlk_fillStep_other (d : Dev) (b j : Nat) (h : j ≠ b) : getBlk (fillStep d b) j = getBlk d j := by
  simp [fillStep, getBlk_countBlk, h.symm]

/-- A block `q` is a block `k` after a millisecond's fill. -/
def Blk.Filled (k q : Blk) : Prop :=
  q.debt = k.debt - 100000 ∧ q.credit = min 256000000000 (k.credit + (100000 - k.debt))

/-- Debt is repaid first, and what is left of the fill is credit. -/
theorem filled_fillBlock (warn : Nat) (k : Blk) : k.Filled (fillBlock warn k) := by
  simp only [Blk.Filled, fillBlock]
  omega

theorem filled_wearFill {b : Nat} {d : Dev} (h : b < d.board.blocks) :
    (getBlk d b).Filled (getBlk (wearFill d) b) := by
  refine getBlk_foldl_of_mem getBlk_fillStep_other (fun e b => ?_) (nodup_blockList d) (mem_blockList.mpr h) d
  rw [getBlk_fillStep_same]
  exact filled_fillBlock ..

theorem getBlk_wearFill_beyond {b : Nat} {d : Dev} (h : d.board.blocks ≤ b) :
    getBlk (wearFill d) b = getBlk d b :=
  getBlk_foldl_of_not_mem getBlk_fillStep_other (fun hb => Nat.not_lt.mpr h (mem_blockList.mp hb)) d

/-- A block whose wear state is stored. -/
def Blk.wearStored (k : Blk) : Blk := { k with storedCredit := k.credit, storedDebt := k.debt }

theorem storeWear_eq (d : Dev) : storeWear d = (blockList d).foldl (fun d b => updBlk b Blk.wearStored d) d := rfl

theorem getBlk_storeWear {b : Nat} {d : Dev} (h : b < d.board.blocks) :
    getBlk (storeWear d) b = (getBlk d b).wearStored := by
  refine getBlk_foldl_of_mem (R := fun k q => q = k.wearStored) (f := fun d b => updBlk b Blk.wearStored d)
    (fun e b j hj => ?_) (fun e b => ?_) (nodup_blockList d) (mem_blockList.mpr h) d
  · rw [getBlk_updBlk, if_neg hj.symm]
  · rw [getBlk_updBlk, if_pos rfl]

theorem storeWear_blk (d : Dev) : storeWear d = { d with blk := (storeWear d).blk } := by
  rw [storeWear_eq]
  refine List.foldlRecOn (motive := fun e : Dev => e = { d with blk := e.blk }) _ _ rfl fun e he b _ => ?_
  rw [he]
  rfl

/-! ### The shift of the log window (R94) -/

/-- A shift of the block's window is due, in a mode that takes one. -/
def Dev.shiftDue (d : Dev) (b : Nat) : Prop :=
  (64 ≤ (getBlk d b).sinceShift ∨ (getBlk d b).shiftDeferred = true) ∧ b < d.board.blocks
    ∧ d.chp.mode ≠ .curtain ∧ d.chp.mode ≠ .intermission ∧ d.chp.mode ≠ .encore

/-- Stripes written since a shift that falls due: it takes 64 of them, once. -/
def Blk.sinceDue (k : Blk) : Nat := if k.shiftDeferred then k.sinceShift else k.sinceShift - 64

theorem Blk.sinceDue_eq (k : Blk) : k.sinceDue = k.sinceShift - (if k.shiftDeferred then 0 else 64) := by
  unfold Blk.sinceDue
  split <;> rfl

/-- A block whose shift waits. -/
def Blk.shiftPutOff (k : Blk) : Blk := { k with
  sinceShift := k.sinceDue, shiftDeferred := true
  shiftDeferrals := satAdd 16 k.shiftDeferrals (boolNat (!k.shiftDeferred)) }

/-- A block whose window has moved. -/
def Blk.windowMoved (k : Blk) : Blk := { k with
  sinceShift := k.sinceDue, shiftDeferred := false, wb := (k.wb + 1) % 200, shifts := k.shifts + 1 }

/-- The trace of a shift taken or put off. -/
def traceShift (b put : Nat) (k : Blk) (d : Dev) : Dev :=
  trace 0x2002 (64 + b) (b + k.wb * 256 + k.wp * 65536) put d

theorem shiftWaits_eq_true {d : Dev} {b : Nat} : shiftWaits d b = true ↔ positionLive d b (getBlk d b).wb = true
    ∨ (getBlk d b).wp = (getBlk d b).wb ∨ stripeErased d b (((getBlk d b).wb + 192) % 200) = false := by
  simp [shiftWaits, or_assoc]

theorem windowShift_idle {d : Dev} {b : Nat} (h : ¬ d.shiftDue b) : windowShift b d = d := by
  refine if_pos ?_
  simp only [Dev.shiftDue, not_and_or, not_or, Nat.not_le, Bool.not_eq_true, Nat.not_lt, not_not] at h
  simp only [populated, Bool.or_eq_true, Bool.not_eq_true', Bool.or_eq_false_iff, decide_eq_true_eq,
    decide_eq_false_iff_not, Nat.not_le, Nat.not_lt]
  tauto

section
variable {d : Dev} {b : Nat} (hdue : d.shiftDue b)
include hdue

theorem windowShift_eq : windowShift b d = if shiftWaits d b
    then traceShift b 1 (getBlk d b) (updBlk b Blk.shiftPutOff d)
    else traceShift b 0 (getBlk d b) (countBlk b 6 1 (updBlk b Blk.windowMoved d)) := by
  obtain ⟨due, hb, hcurtain, hint, hencore⟩ := hdue
  refine if_neg ?_
  simpa [populated, hb, hcurtain, hint, hencore, or_iff_not_imp_left] using due

theorem windowShift_waits (hw : shiftWaits d b = true) :
    windowShift b d = traceShift b 1 (getBlk d b) (updBlk b Blk.shiftPutOff d) := by
  rw [windowShift_eq hdue, if_pos hw]

theorem windowShift_moves (hw : shiftWaits d b = false) :
    windowShift b d = traceShift b 0 (getBlk d b) (countBlk b 6 1 (updBlk b Blk.windowMoved d)) := by
  rw [windowShift_eq hdue, if_neg (by simp [hw])]

end

theorem getBlk_traceShift (b put : Nat) (k : Blk) (d : Dev) (j : Nat) : getBlk (traceShift b put k d) j = getBlk d j :=
  (reports_trace ..).getBlk_eq j

/-- Settles O23: a fill and a store go once over the populated blocks, and a window's shift that is due moves its base or
is put off. -/
theorem wearAndWindow : Obligations.WearAndWindow := by
  refine ⟨fun s => ?_, fun s hr => ?_, fun b s hs hb hc hi he hl hwp her => ?_, fun b s hs hb hc hi he hw => ?_,
    fun b s h => onDev_idle (windowShift_idle ?_)⟩
  · obtain ⟨t, ht, ho, hd⟩ := onDev_next wearFill s
    refine ⟨t, ht, ho, ?_⟩
    rw [hd]
    exact ⟨fun b hb => filled_wearFill hb, fun b hb => getBlk_wearFill_beyond hb, blkOnly_wearFill s.dev⟩
  · obtain ⟨t, ht, ho, hd⟩ := onDev_next (fun d => if stagingRuns d then storeWear d else d) s
    rw [if_pos hr] at hd
    refine ⟨t, ht, ho, ?_⟩
    rw [hd]
    exact ⟨fun b hb => getBlk_storeWear hb, storeWear_blk s.dev⟩
  · obtain ⟨t, ht, ho, hd⟩ := onDev_next (windowShift b) s
    have stays : shiftWaits s.dev b = false := by
      rw [← Bool.not_eq_true, shiftWaits_eq_true]
      simp [hl, hwp, her]
    rw [windowShift_moves ⟨hs, hb, hc, hi, he⟩ stays] at hd
    have blk (j : Nat) : getBlk t.dev j = if b = j then (getBlk s.dev b).windowMoved else getBlk s.dev j := by
      rw [hd, getBlk_traceShift, getBlk_countBlk, getBlk_updBlk]
    have own := (blk b).trans (if_pos rfl)
    refine ⟨t, ht, ho, ?_, ?_, ?_, ?_, fun c hbc => (blk c).trans (if_neg hbc.symm), hd ▸
      (blkOnly_updBlk ..).trans ((blkOnly_countBlk ..).trans (reports_trace ..).blkOnly)⟩ <;> rw [own]
    · rfl
    · rfl
    · rfl
    · exact Blk.sinceDue_eq _
  · obtain ⟨t, ht, ho, hd⟩ := onDev_next (windowShift b) s
    rw [windowShift_waits ⟨hs, hb, hc, hi, he⟩ (shiftWaits_eq_true.mpr hw)] at hd
    have own : getBlk t.dev b = (getBlk s.dev b).shiftPutOff := by
      rw [hd, getBlk_traceShift, getBlk_updBlk, if_pos rfl]
    refine ⟨t, ht, ho, ?_, ?_, ?_, hd ▸ (blkOnly_updBlk ..).trans (reports_trace ..).blkOnly⟩ <;> rw [own]
    · rfl
    · rfl
    · show satAdd 16 _ (boolNat (!(getBlk s.dev b).shiftDeferred)) = _
      cases (getBlk s.dev b).shiftDeferred <;> rfl
  · rintro ⟨due, hb, hcurtain, hint, hencore⟩
    obtain ⟨hsince, hdeferred⟩ | h | h | h | h := h
    · obtain h | h := due
      · exact Nat.not_lt.mpr h hsince
      · simp [h] at hdeferred
    · exact Nat.not_lt.mpr h hb
    · exact hcurtain h
    · exact hint h
    · exact hencore h

end Sys2Proof.Machine
end

section
/-!
PROOFS. What the work of admission leaves of the log: every record stands, a stripe that is being erased is not opened,
and no refresh of the scrub is counted. This is what a recomputation keeps for the steps of cleaning and scrub that end
with one.
-/

namespace Sys2Proof.Machine

/-- `e` is `d` with records added behind the others; the stripes that an erase holds are not opened, and the refreshes
of the scrub counted as before. -/
structure Dev.Grows (d e : Dev) : Prop where
  records : d.flash.records <+: e.flash.records
  erasing : ∀ b p, Tab.get .erased (getBlk d b).stripes p = .erasing →
    Tab.get .erased (getBlk e b).stripes p = .erasing
  refreshes : ∀ b, (getBlk e b).scrubRefresh = (getBlk d b).scrubRefresh

theorem Dev.Grows.refl (d : Dev) : d.Grows d := ⟨⟨[], List.append_nil _⟩, fun _ _ h => h, fun _ => rfl⟩

theorem Dev.Grows.trans {d e a : Dev} (h : d.Grows e) (g : e.Grows a) : d.Grows a :=
  ⟨h.records.trans g.records, fun b p hp => g.erasing b p (h.erasing b p hp),
    fun b => (g.refreshes b).trans (h.refreshes b)⟩

/-- `trans` with the later change first. -/
theorem Dev.Grows.after {d e a : Dev} (g : e.Grows a) (h : d.Grows e) : d.Grows a := h.trans g

theorem grows_foldl {α : Type} {f : Dev → α → Dev} (hf : ∀ e a, Dev.Grows e (f e a)) (l : List α) (d : Dev) :
    d.Grows (l.foldl f d) :=
  List.foldlRecOn _ _ (.refl d) fun e he a _ => he.trans (hf e a)

theorem grows_of_records {d e : Dev} (hr : d.flash.records <+: e.flash.records) (hb : e.blk = d.blk) : d.Grows e := by
  have blk (b : Nat) : getBlk e b = getBlk d b := congrArg (fun t => Tab.get ({} : Blk) t b) hb
  exact ⟨hr, fun b p h => by rwa [blk], fun b => by rw [blk]⟩

theorem grows_of_eq {d e : Dev} (hr : e.flash.records = d.flash.records) (hb : e.blk = d.blk) : d.Grows e :=
  grows_of_records (by rw [hr]) hb

theorem Dev.Answers.grows {d e : Dev} (h : d.Answers e) : d.Grows e :=
  grows_of_eq (congrArg Flash.records h.flash_eq) h.blk_eq

theorem Dev.Reports.grows {d e : Dev} (h : d.Reports e) : d.Grows e := h.answers.grows

/-! ### The log's operations -/

theorem grows_updBlk {b : Nat} {f : Blk → Blk} {d : Dev} (hs : ∀ k, (f k).stripes = k.stripes := by intro k; rfl)
    (hr : ∀ k, (f k).scrubRefresh = k.scrubRefresh := by intro k; rfl) : d.Grows (updBlk b f d) := by
  refine ⟨⟨[], List.append_nil _⟩, fun j p h => ?_, fun j => ?_⟩ <;> rw [getBlk_updBlk] <;> split
  · next hj => rwa [hs, hj]
  · exact h
  · next hj => rw [hr, hj]
  · rfl

/-- The stripe that opens was erased, so no erase held it. -/
theorem grows_openAt {b p : Nat} {d : Dev} (h : stripeErased d b p = true) : d.Grows (openAt b p d) := by
  have erased : Tab.get .erased (getBlk d b).stripes p = .erased := by
    simp only [stripeErased, Bool.and_eq_true, decide_eq_true_eq] at h
    exact h.1
  refine ⟨⟨[], List.append_nil _⟩, fun j q hq => ?_, fun j => ?_⟩ <;> rw [openAt, getBlk_updBlk] <;> split
  · next hj =>
    subst hj
    have other : p ≠ q := by
      rintro rfl
      rw [erased] at hq
      cases hq
    simpa [other] using hq
  · exact hq
  · next hj => rw [hj]
  · rfl

theorem grows_newId (b : Nat) (d : Dev) : d.Grows (newId b d).2 := grows_updBlk

theorem grows_addRec (r : Rec) (d : Dev) : d.Grows (addRec r d) := grows_of_records ⟨[r], rfl⟩ rfl

theorem blk_journalAdd (c : Nat) (avoid : Option Nat) (h : JHead) (d : Dev) :
    (journalAdd c avoid h d).2.blk = d.blk := by
  have renewed (u : Nat) (full : Bool) : (renewJournal c u full d).blk = d.blk := by
    unfold renewJournal
    dsimp only
    split <;> rfl
  simp only [journalAdd]
  split
  · exact renewed ..
  · split <;> rfl

theorem blk_journalBoth (c id : Nat) (d : Dev) : (journalBoth c id d).blk = d.blk :=
  (blk_journalAdd ..).trans (blk_journalAdd ..)

theorem grows_journalBoth (c id : Nat) (d : Dev) : d.Grows (journalBoth c id d) :=
  grows_of_eq (records_journalBoth ..) (blk_journalBoth ..)

theorem grows_closeUnits (d : Dev) : d.Grows (closeUnits d) := grows_of_eq rfl rfl

theorem grows_drawCredit (b n : Nat) (d : Dev) : d.Grows (drawCredit b n d) := by
  have marked (m : Nat) (e : Dev) : e.Grows (updBlk b (fun k => { k with debtMark := m }) e) :=
    grows_updBlk
  have debt (e : Dev) : e.Grows (debtEvent b e) := by
    unfold debtEvent
    dsimp only
    split
    · exact (marked ..).trans (reports_postEvent ..).grows
    · exact marked ..
  unfold drawCredit
  refine Dev.Grows.trans ?_ ((reports_countBlk ..).grows.trans ((reports_countBlk ..).grows.trans (debt _)))
  exact grows_updBlk

section
variable {b pos id segs hl bytes : Nat} {cells : List Nat} {ok : Nat × Nat → Bool} {d e : Dev}
  {p : Nat × Nat × Nat × Nat}

theorem grows_roomAt (h : roomAt b pos id segs hl cells ok d = some (p, e)) : d.Grows e := by
  have opened (c t : Nat) (a : Dev) : (openUnit c t pos a).blk = a.blk := by
    unfold openUnit
    split <;> rfl
  unfold roomAt at h
  simp only at h
  split at h
  · cases h
  · cases Option.some.inj h
    exact Dev.Grows.after grows_updBlk (grows_of_eq (records_openUnit ..) (opened ..))

theorem grows_openStripe (h : openStripe b d = some e) : d.Grows e := by
  unfold openStripe at h
  split at h
  · next erased =>
    rw [← Option.some.inj h]
    exact grows_openAt erased
  · cases h

theorem grows_takeRoom (h : takeRoom b id bytes hl d = some (p, e)) : d.Grows e := by
  unfold takeRoom takeRoomOn at h
  simp only at h
  split at h
  · next hr =>
    cases Option.some.inj h
    split at hr
    · exact grows_roomAt hr
    · cases hr
  · split at h
    · next ho => exact (grows_openStripe ho).trans (grows_roomAt h)
    · cases h

end

/-! ### Marks and lists -/

theorem grows_mark (kind : RKind) (mask b : Nat) (d : Dev) : d.Grows (mark kind mask b d) := by
  unfold mark
  split
  · simp only [headOnly, if_true]
    exact Dev.Grows.after (grows_journalBoth ..) ((grows_newId ..).trans (grows_addRec ..))
  · exact .refl d

theorem grows_safeMark (b : Nat) (d : Dev) : d.Grows (safeMark b d) := by
  unfold safeMark
  split
  · exact grows_mark ..
  · exact .refl d

theorem grows_writePart (lb : Nat) (l : CallList) (part : Nat × Nat) (d : Dev) : d.Grows (writePart lb l part d) := by
  unfold writePart
  simp only
  split
  · exact .refl d
  · next ht =>
    exact (grows_takeRoom ht).trans ((grows_newId ..).trans ((grows_addRec ..).trans
      ((grows_drawCredit ..).trans ((grows_journalBoth ..).trans (grows_closeUnits _)))))

theorem grows_writeList (b trigger triggerHt : Nat) (unack : List ListEntry) (base : Nat) (d : Dev) :
    d.Grows (writeList b trigger triggerHt unack base d) := by
  unfold writeList writeEntries
  split
  · exact .refl d
  dsimp only
  split
  · exact (grows_foldl (fun _ _ => grows_writePart ..) _ d).trans (grows_of_eq rfl rfl)
  · exact .refl d

theorem grows_writeLists47 (trigger : Nat) (d : Dev) : d.Grows (writeLists47 trigger d) := by
  refine grows_foldl (fun e b => ?_) _ d
  split
  · exact .refl e
  · exact grows_writeList ..

/-! ### A change of the counts (R80, R83, R84, R92, R215) -/

theorem blk_updateShortfall (d : Dev) : (updateShortfall d).blk = d.blk := by
  unfold updateShortfall
  dsimp only
  split
  · exact ((reports_trace ..).trans (reports_postEvent ..)).blk_eq
  split
  · exact ((reports_trace ..).trans (reports_postEvent ..)).blk_eq
  · rfl

theorem blk_updateReclaim (d : Dev) : (updateReclaim d).blk = d.blk := by
  unfold updateReclaim
  dsimp only
  split
  · exact ((reports_trace ..).trans (reports_postEvent ..)).blk_eq
  split
  · exact ((reports_trace ..).trans (reports_postEvent ..)).blk_eq
  · rfl

theorem blk_refuse (x : Desc) (st : Nat) (d : Dev) : (refuse x st d).blk = d.blk := (answers_refuse ..).blk_eq

theorem blk_commitHold (x : Desc) (d : Dev) : (commitHold x none d).blk = d.blk :=
  (answers_commitHold x d).blk_eq.trans
    ((prune_keep Dev.blk (fun _ => rfl) (fun _ _ => rfl) _).trans (holdPages_keep Dev.blk (fun _ _ => rfl) x d))

theorem blk_evaluate (xs : List Desc) (k : Blocks) (d : Dev) : (evaluate xs k d).blk = d.blk := by
  induction xs generalizing k d with
  | nil => rfl
  | cons x xs ih =>
    unfold evaluate
    dsimp only
    split
    · rw [ih, blk_refuse, blk_updateReclaim]
    split
    · rw [ih, apply_ite Dev.blk, blk_commitHold, ite_self, blk_updateReclaim]
    · rw [ih, updDesc_blk, blk_updateReclaim]

theorem blk_evaluateAll (n : Nat) (d : Dev) : (evaluateAll n d).blk = d.blk := by
  induction n generalizing d with
  | zero => rfl
  | succ n ih =>
    unfold evaluateAll
    dsimp only
    split <;> simp only [ih, blk_updateReclaim, blk_evaluate]

theorem blk_evaluateWaiting (d : Dev) : (evaluateWaiting d).blk = d.blk := by
  unfold evaluateWaiting
  split
  · exact blk_updateReclaim d
  split
  · refine (blk_updateReclaim _).trans ?_
    exact List.foldlRecOn (motive := fun e : Dev => e.blk = d.blk) _ _ rfl fun e he x _ => (blk_refuse ..).trans he
  · exact blk_evaluateAll ..

theorem blk_floorTest (d : Dev) : (floorTest d).blk = d.blk := by
  unfold floorTest
  split
  swap
  · rfl
  unfold endLearning
  split
  · rfl
  split
  · exact (reports_trace ..).blk_eq
  · exact ((reports_postEvent ..).trans (reports_trace ..)).blk_eq

theorem grows_updatePressure (d : Dev) : d.Grows (updatePressure d) :=
  grows_foldl (fun _ _ => grows_updBlk) _ d

/-- A change of the counts writes of the blocks their pressure alone. -/
theorem grows_countsChanged (d : Dev) : d.Grows (countsChanged d) := by
  have kept {a e : Dev} (hr : a.Recounts e) (hb : e.blk = a.blk) : a.Grows e :=
    grows_of_eq (hr.keep (fun x => x.flash.records) fun _ => rfl) hb
  have floor (e : Dev) : e.Grows (floorTest e) :=
    grows_of_eq (Dev.records_eq_of_flash (facet_floorTest e)) (blk_floorTest e)
  exact (kept (recounts_updateShortfall d) (blk_updateShortfall d)).trans ((grows_updatePressure _).trans
    ((kept (recounts_evaluateWaiting _) (blk_evaluateWaiting _)).trans
      ((kept (recounts_updateShortfall _) (blk_updateShortfall _)).trans ((grows_updatePressure _).trans (floor _)))))

/-! ### A recomputation (R34, R75) -/

theorem grows_recompute (d : Dev) : d.Grows (recompute d) :=
  Dev.Grows.after (reports_recompute d).grows (grows_of_eq rfl rfl)

theorem grows_transition (m : Mode) (cause : Nat) (d : Dev) : d.Grows (transition m cause d) :=
  Dev.Grows.after (reports_transition m cause d).grows (grows_of_eq rfl rfl)

/-- Outside REHEARSAL an entry to WRITE_THROUGH adds lists and SAFE marks, and drops no record. -/
theorem grows_enterWriteThrough {cause trigger : Nat} {d : Dev} (h : d.chp.mode ≠ .rehearsal) :
    d.Grows (enterWriteThrough cause trigger d) := by
  have calm : abortRehearsal true d = d := if_pos h
  have reclaimed (e : Dev) : e.Grows (updateReclaim e) :=
    grows_of_eq (Dev.records_eq_of_flash (facet_updateReclaim e)) (blk_updateReclaim e)
  have marked (e : Dev) : e.Grows ((blockList e).foldl (fun d b => safeMark b d) e) :=
    grows_foldl (fun _ _ => grows_safeMark ..) _ e
  have noted (e : Dev) (pages : Tab Page) (adm : Adm) : e.Grows { e with pages, adm } := grows_of_eq rfl rfl
  rw [enterWriteThrough, calm]
  exact (grows_transition ..).trans ((grows_writeLists47 ..).trans ((marked _).trans ((noted ..).trans (reclaimed _))))

theorem grows_enterAdmitting (m : Mode) (cause : Nat) (d : Dev) : d.Grows (enterAdmitting m cause d) :=
  (grows_transition ..).trans (grows_foldl (fun _ _ => grows_mark ..) _ _)

theorem ModeRow.grows {d e : Dev} (h : ModeRow d e) (hm : d.chp.mode ≠ .rehearsal) : d.Grows e := by
  cases h with
  | stays => exact .refl d
  | falls => exact grows_enterWriteThrough hm
  | derates | recovers => exact grows_transition ..
  | returns => exact grows_enterAdmitting ..

theorem grows_countGood (cadence : Bool) (d : Dev) : d.Grows (countGood cadence d) := grows_of_eq rfl rfl

theorem grows_reevaluate {cadence : Bool} {d : Dev} (h : d.chp.mode ≠ .rehearsal) : d.Grows (reevaluate cadence d) := by
  have counted : d.Grows (recounted cadence d) :=
    (grows_recompute d).trans ((grows_countGood ..).trans (grows_countsChanged _))
  refine counted.trans ?_
  rw [reevaluate_eq]
  obtain hr | hr := reasonsChanged_cases (recounted cadence d) <;> rw [hr]
  · exact .refl _
  · exact ((modeRow_modeRows _).grows (by rwa [chp_recounted])).trans
      ((grows_recompute _).trans (grows_countsChanged _))

theorem grows_recomputeNow {d : Dev} (h : d.chp.mode ≠ .rehearsal) : d.Grows (recomputeNow d) := by
  unfold recomputeNow
  split
  · exact grows_reevaluate h
  · exact .refl d

end Sys2Proof.Machine
end

section
/-!
PROOFS. Compaction and its verification (R98, R99), the cleaning of a stripe (R96, R323), and scrub reads (R100, R101;
O25).
-/

namespace Sys2Proof.Machine

/-! ### Compaction (R98) -/

theorem tlcClean_idle {b : Nat} {d : Dev} (h : 4 ≤ tlcErasedCount d b) : tlcClean b d = d := if_pos h

/-- Room taken in TLC leaves the records; it is a matter of the image and the block. -/
theorem tlcRoom_spec {b : Nat} {r : Rec} {d e : Dev} {q : Nat × Nat × Nat × Nat} (h : tlcRoom b r d = some (q, e)) :
    e.flash.records = d.flash.records ∧ d.ImageOnly e := by
  unfold tlcRoom at h
  dsimp only at h
  split at h
  · next hr =>
    cases Option.some.inj h
    split at hr
    · exact ⟨(roomAt_spec hr).1, imageOnly_roomAt hr⟩
    · cases hr
  · split at h
    · cases h
    · exact ⟨(roomAt_spec h).1, (imageOnly_updBlk ..).trans (imageOnly_roomAt h)⟩

/-- A record whose copy goes to a place in TLC. -/
def Rec.compacted (q : Nat × Nat × Nat × Nat) (r : Rec) : Rec := { r with
  tlc := some (q.2.2.1 - 200), tlcCell := q.1, tlcTarget := q.2.1, tlcSegment := q.2.2.2
  tlcVerified := false, tlcReadable := true, tlcAuthentic := true }

section
variable {b id : Nat} {rest : List Nat} {r : Rec} {q : Nat × Nat × Nat × Nat} {d e : Dev}

theorem compactCopy_eq (hc : cleaningRuns d = true) (hs : canStage d b = true) (h4 : 4 ≤ tlcErasedCount d b)
    (hq : (getBlk d b).compactQ = id :: rest) (hr : findRec d id = some r) (hl : recLive d id = true)
    (ht : r.tlc = none) (hm : r.moving = none) (hroom : tlcRoom b r d = some (q, e)) :
    compactCopy b d = countBlk b 5 r.bytes
      (updBlk b (fun k => { k with compactQ := rest }) (updRec id (Rec.compacted q) e)) := by
  simp only [compactCopy, hc, hs, tlcClean_idle h4, hq, hr, hl, ht, hm, hroom]
  rfl

theorem findRec_compacted (hr : findRec d id = some r) (he : e.flash.records = d.flash.records) :
    findRec (updRec id (Rec.compacted q) e) id = some (r.compacted q) := by
  rw [findRec_updRec_same (fun _ => by rfl), findRec_eq_of_records he, hr]
  rfl

end

/-! ### A group's verification (R99) -/

/-- A record whose copy in TLC has been verified. -/
def Rec.tlcChecked (r : Rec) : Rec := { r with tlcVerified := true }

section
variable {id : Nat} {r : Rec} {d : Dev}

theorem tlcVerified_eq (hr : findRec d id = some r) (hm : r.moving = none) (ht : r.tlc.isSome = true)
    (hv : r.tlcVerified = false) (hp : placeWorks d r.tlcCell r.tlcTarget = true) :
    tlcVerified id d = closeUnits (trace 0x2003 (64 + r.block) id 0
      (journalBoth r.tlcCell id (updRec id Rec.tlcChecked d))) := by
  simp only [tlcVerified, hr, hm, ht, hv, hp]
  rfl

theorem findRec_verified (hr : findRec d id = some r) (c : Nat) (type island a b : Nat) :
    findRec (closeUnits (trace type island a b (journalBoth c id (updRec id Rec.tlcChecked d)))) id
      = some r.tlcChecked := by
  have records : (trace type island a b (journalBoth c id (updRec id Rec.tlcChecked d))).flash.records
      = (updRec id Rec.tlcChecked d).flash.records :=
    (Dev.records_eq_of_flash (facet_trace ..)).trans (records_journalBoth ..)
  rw [findRec_eq_of_records ((records_closeUnits _).trans records), findRec_updRec_same (fun _ => by rfl), hr]
  rfl

end

/-- A change of the image that leaves the blocks. -/
theorem Dev.ImageOnly.flashOnly {d e : Dev} (h : d.ImageOnly e) (hb : e.blk = d.blk) :
    Dev.Reports { d with flash := e.flash } e := by
  have kept : Dev.Reports { d with flash := e.flash, blk := e.blk } e := h
  rwa [hb] at kept

/-! ### The erase of a stripe (R96, R323) -/

theorem retired_startErase (c t pos mode : Nat) (port : Bool) (d : Dev) :
    (startErase c t pos mode port d).flash.retired = d.flash.retired :=
  facet_startErase (q := .retired) (by decide) c t pos mode port d

theorem placeWorks_startErase (c t pos mode : Nat) (port : Bool) (d : Dev) (j k : Nat) :
    placeWorks (startErase c t pos mode port d) j k = placeWorks d j k := by
  have same := congrArg (fun q : CellSt => !q.failed && !q.deadTargets.contains k)
    (sansErases_startErase c t pos mode port d j)
  exact same

/-- An erase that starts is journalled before all that waits (R323). -/
theorem intents_startErase (c t pos mode : Nat) (port : Bool) (d : Dev) : (startErase c t pos mode port d).flash.intents
    = (c, t, pos) :: d.flash.intents.filter (fun i => i ≠ (c, t, pos)) := by
  have started (e : Dev) : (eraseNow c t pos mode port e).flash.intents = e.flash.intents :=
    facet_eraseNow (q := .intents) nofun c t pos mode port e
  unfold startErase
  dsimp only
  split
  · rfl
  · exact started _

theorem grows_startErase (c t pos mode : Nat) (port : Bool) (d : Dev) : d.Grows (startErase c t pos mode port d) := by
  have started (e : Dev) : e.Grows (eraseNow c t pos mode port e) :=
    Dev.Grows.after (reports_trace ..).grows (grows_of_eq rfl rfl)
  unfold startErase
  dsimp only
  split
  · exact grows_of_eq rfl rfl
  · exact Dev.Grows.after (started _) (grows_of_eq rfl rfl)

/-- The erase of one unit of a stripe, where it can take one. -/
def eraseUnit (pos c : Nat) (d : Dev) (t : Nat) : Dev :=
  if !placeWorks d c t || d.flash.retired.contains (c, t, pos) then d
  else startErase c t pos (unitMode pos) false d

/-- The erases of a cell's units of a stripe. -/
def eraseRow (pos : Nat) (d : Dev) (c : Nat) : Dev := (List.range 8).foldl (eraseUnit pos c) d

theorem eraseUnitsOf_eq (b pos : Nat) (d : Dev) :
    eraseUnitsOf b pos d = (workingCells d b).foldl (eraseRow pos) d := rfl

/-- The unit is on a live target of a working cell, and not retired. -/
def Dev.erasable (d : Dev) (u : Nat × Nat × Nat) : Prop :=
  placeWorks d u.1 u.2.1 = true ∧ d.flash.retired.contains u = false

section
variable {pos c t : Nat} {u : Nat × Nat × Nat} {d : Dev}

theorem erasable_eraseUnit (h : d.erasable u) : (eraseUnit pos c d t).erasable u := by
  unfold eraseUnit
  split
  · exact h
  · rwa [Dev.erasable, placeWorks_startErase, retired_startErase]

theorem intents_eraseUnit (h : u ∈ d.flash.intents) : u ∈ (eraseUnit pos c d t).flash.intents := by
  unfold eraseUnit
  split
  · exact h
  · rw [intents_startErase, List.mem_cons, List.mem_filter, decide_eq_true_eq]
    exact (eq_or_ne u (c, t, pos)).imp_right fun hne => ⟨h, hne⟩

theorem intents_eraseUnit_same (h : d.erasable (c, t, pos)) : (c, t, pos) ∈ (eraseUnit pos c d t).flash.intents := by
  obtain ⟨works, stands⟩ : placeWorks d c t = true ∧ d.flash.retired.contains (c, t, pos) = false := h
  rw [eraseUnit, if_neg (by rw [works, stands]; nofun), intents_startErase]
  exact List.mem_cons_self

theorem grows_eraseUnit : d.Grows (eraseUnit pos c d t) := by
  unfold eraseUnit
  split
  · exact .refl d
  · exact grows_startErase ..

end

section
variable {pos c k : Nat} {u : Nat × Nat × Nat} {d : Dev}

theorem erasable_eraseRow (h : d.erasable u) : (eraseRow pos d c).erasable u := by
  unfold eraseRow
  exact List.foldlRecOn (motive := fun e : Dev => e.erasable u) _ _ h fun _ he _ _ => erasable_eraseUnit he

theorem intents_eraseRow (h : u ∈ d.flash.intents) : u ∈ (eraseRow pos d c).flash.intents := by
  unfold eraseRow
  exact List.foldlRecOn (motive := fun e : Dev => u ∈ e.flash.intents) _ _ h fun _ he _ _ => intents_eraseUnit he

theorem intents_eraseRow_same (hk : k < 8) (h : d.erasable (c, k, pos)) :
    (c, k, pos) ∈ (eraseRow pos d c).flash.intents := by
  unfold eraseRow
  exact foldl_reaches (f := eraseUnit pos c) (I := fun e => e.erasable (c, k, pos))
    (Q := fun e => (c, k, pos) ∈ e.flash.intents) (fun _ _ => erasable_eraseUnit) (fun _ _ => intents_eraseUnit)
    (fun _ => intents_eraseUnit_same) (List.mem_range.mpr hk) h

end

theorem grows_eraseUnitsOf (b pos : Nat) (d : Dev) : d.Grows (eraseUnitsOf b pos d) :=
  grows_foldl (f := eraseRow pos) (fun e c => grows_foldl (f := eraseUnit pos c) (fun _ _ => grows_eraseUnit) _ e) _ d

theorem chp_eraseUnitsOf (b pos : Nat) (d : Dev) : (eraseUnitsOf b pos d).chp = d.chp := by
  have unit (e : Dev) (c t : Nat) : (eraseUnit pos c e t).facet .chp = e.facet .chp := by
    simp [eraseUnit]
  have row (e : Dev) (c : Nat) : (eraseRow pos e c).facet .chp = e.facet .chp :=
    facet_foldl (f := eraseUnit pos c) (fun e t => unit e c t) _ e
  exact facet_foldl (f := eraseRow pos) row _ d

/-- Every unit of the stripe that can be erased has its intent journalled. -/
theorem intents_eraseUnitsOf {b pos c k : Nat} {d : Dev} (hc : c ∈ workingCells d b) (hk : k < 8)
    (h : d.erasable (c, k, pos)) : (c, k, pos) ∈ (eraseUnitsOf b pos d).flash.intents := by
  rw [eraseUnitsOf_eq]
  exact foldl_reaches (f := eraseRow pos) (I := fun e => e.erasable (c, k, pos))
    (Q := fun e => (c, k, pos) ∈ e.flash.intents) (fun _ _ => erasable_eraseRow) (fun _ _ => intents_eraseRow)
    (fun _ => intents_eraseRow_same hk) hc h

/-! ### A stripe with nothing left on it (R96) -/

/-- A stripe marked as being erased. -/
def stripeErasing (b p : Nat) (d : Dev) : Dev :=
  updBlk b (fun k => { k with stripes := Tab.set k.stripes p .erasing }) d

theorem dropRecs_idle {f : Rec → Bool} {d : Dev} (h : ∀ r ∈ d.flash.records, f r = false) : dropRecs f d = d := by
  have stands : d.flash.records.filter (fun r => !f r) = d.flash.records :=
    List.filter_eq_self.mpr fun r hr => by simp [h r hr]
  have none (g : Rec → Bool) : d.flash.records.filter (fun r => f r && g r) = [] :=
    List.filter_eq_nil_iff.mpr fun r hr => by simp [h r hr]
  unfold dropRecs
  rw [stands, none, List.append_nil]

section
variable {b p : Nat} {d : Dev} (hb : bodiesAt d b p = [])
include hb

theorem eraseStripe_of_empty : eraseStripe b p d = eraseUnitsOf b p (stripeErasing b p d) := by
  have elsewhere : ∀ r ∈ d.flash.records, (r.block = b && r.position = p && r.slc && r.bytes ≠ 0 : Bool) = false :=
    fun r hr => by simpa using List.filter_eq_nil_iff.mp hb r hr
  have stands : d.flash.records.map (fun r =>
      if r.block = b && r.position = p && r.slc && r.bytes ≠ 0 then { r with slc := false } else r)
      = d.flash.records :=
    (List.map_congr_left fun r hr => if_neg (by rw [elsewhere r hr]; nofun)).trans (List.map_id' _)
  unfold eraseStripe
  dsimp only
  rw [dropRecs_idle fun r hr => by rw [elsewhere r hr, Bool.false_and], stands]
  rfl

theorem cleanStripe_of_empty (hl : positionLive d b p = false) (hw : d.spw.warn = false) :
    cleanStripe b p d = eraseUnitsOf b p (stripeErasing b p d) := by
  rw [← eraseStripe_of_empty hb]
  simp [cleanStripe, hb, hl, hw]

end

theorem logClean_idle {b : Nat} {d : Dev} (h : cleaningRuns d = false ∨ canStage d b = false) : logClean b d = d := by
  refine if_pos ?_
  obtain h | h := h <;> simp [h]

theorem logClean_eq {b p : Nat} {d : Dev} (hc : cleaningRuns d = true) (hs : canStage d b = true)
    (hi : waitingIntents d b = []) (hf : foreignUnits d b = []) (hd : poolDirty (getBlk d b) = none)
    (ho : oldestStripe (getBlk d b) = some p) : logClean b d = recomputeNow (cleanStripe b p d) := by
  simp [logClean, hc, hs, hi, hf, hd, ho]

theorem mode_ne_rehearsal_of_cleaning {d : Dev} (h : cleaningRuns d = true) : d.chp.mode ≠ .rehearsal := by
  intro hm
  simp [cleaningRuns, hm, Mode.settled] at h

/-! ### Scrub reads (R100, R101, R146) -/

/-- The cell that a scrub of the record reads. -/
def Rec.scrubCell (r : Rec) : Nat := if r.inTlc then r.tlcCell else r.cell

/-- A scrub read counted, for the block and for the cell. -/
def scrubCounted (r : Rec) (d : Dev) : Dev := countBlk r.block 7 1 (countCell r.scrubCell 0 (segmentsOf r.bytes) d)

theorem reports_scrubCounted (r : Rec) (d : Dev) : d.Reports (scrubCounted r d) :=
  (reports_countCell ..).trans (reports_countBlk ..)

/-- A record whose copy in force has been read: whether its content decodes and verifies. -/
def Rec.scrubbed (readable authentic : Bool) (r : Rec) : Rec :=
  if r.inTlc then { r with tlcReadable := readable, tlcAuthentic := authentic } else { r with readable, authentic }

/-- A record whose content failed: it is marked, and its pages go back to be staged anew. -/
def scrubMarked (id : Nat) (readable authentic : Bool) (r : Rec) (d : Dev) : Dev :=
  updBlk r.block (fun k => { k with scrubRefresh := satAdd 16 k.scrubRefresh 1 })
    (returnPages (· = id) (updRec id (Rec.scrubbed readable authentic) (scrubCounted r d)))

/-- The report of content that failed. -/
def scrubTold (id : Nat) (readable : Bool) (r : Rec) (d : Dev) : Dev :=
  postEvent 7 0 [r.block, boolNat r.inTlc, if r.inTlc then r.tlc.getD 0 else r.position, id]
    (trace 0x2004 (64 + r.block) id 1
      (if readable then d else raiseFault { code := 0x0102, level := 1, island := r.scrubCell, severity := 0 } d))

theorem reports_scrubTold (id : Nat) (readable : Bool) (r : Rec) (d : Dev) : d.Reports (scrubTold id readable r d) := by
  refine Dev.Reports.after (reports_postEvent ..) (Dev.Reports.after (reports_trace ..) ?_)
  split
  · exact .refl d
  · exact reports_raiseFault ..

section
variable {id load : Nat} {r : Rec} {d : Dev} (hr : findRec d id = some r)
include hr

theorem scrubRead_idle {readable authentic : Bool} (h : blkOut d r.block = true ∨ blkOut d r.home = true
    ∨ cleaningRuns d = false ∨ recLive d id = false) : scrubRead id load readable authentic d = d := by
  simp only [scrubRead, hr]
  refine if_pos ?_
  obtain h | h | h | h := h <;> simp [h]

variable (hc : cleaningRuns d = true) (hl : recLive d id = true) (hb : blkOut d r.block = false)
  (hh : blkOut d r.home = false)
include hc hl hb hh

/-- Content that reads back under the threshold is only counted. -/
theorem scrubRead_sound (ht : load ≤ d.scrubThresh) : scrubRead id load true true d = scrubCounted r d := by
  have under : ¬ (scrubCounted r d).scrubThresh < load := Nat.not_lt.mpr ht
  have stays : ¬ (decide ((scrubCounted r d).scrubThresh < load) && r.moving.isNone) = true := by
    simp [under]
  unfold scrubRead
  rw [hr]
  dsimp only
  rw [if_neg (by simp [hc, hl, hb, hh]), if_neg (by simp)]
  exact if_neg stays

theorem scrubRead_failed {readable authentic : Bool}
    (h : readable = false ∨ (authentic || slotKeyPending d r.slot) = false) :
    scrubRead id load readable authentic d = countsChanged (scrubTold id readable r
      (scrubMarked id readable (authentic || slotKeyPending d r.slot) r d)) := by
  unfold scrubRead
  rw [hr]
  dsimp only
  rw [if_neg (by simp [hc, hl, hb, hh]), if_pos (by obtain h | h := h <;> simp [h])]
  rfl

end

/-- What a failed scrub leaves of the image: the record is marked, and no other. -/
theorem findRec_scrubFailed {id : Nat} {readable authentic : Bool} {r : Rec} {d : Dev} (hr : findRec d id = some r) :
    findRec (countsChanged (scrubTold id readable r (scrubMarked id readable authentic r d))) id
      = some (r.scrubbed readable authentic) := by
  have hid (q : Rec) : (q.scrubbed readable authentic).id = q.id := by
    unfold Rec.scrubbed
    split <;> rfl
  have records : (countsChanged (scrubTold id readable r (scrubMarked id readable authentic r d))).flash.records
      = (updRec id (Rec.scrubbed readable authentic) (scrubCounted r d)).flash.records :=
    (Dev.records_eq_of_flash (facet_countsChanged (q := .flash) nofun _)).trans
      (Dev.records_eq_of_flash (reports_scrubTold ..).facet_eq)
  have counted : findRec (scrubCounted r d) id = some r := hr
  rw [findRec_eq_of_records records, findRec_updRec_same hid, counted]
  rfl

theorem scrubRefresh_scrubFailed (id : Nat) (readable authentic : Bool) (r : Rec) (d : Dev) :
    (getBlk (countsChanged (scrubTold id readable r (scrubMarked id readable authentic r d))) r.block).scrubRefresh
      = satAdd 16 (getBlk d r.block).scrubRefresh 1 := by
  have returned (e : Dev) : getBlk (returnPages (· = id) e) r.block = getBlk e r.block := rfl
  rw [(grows_countsChanged _).refreshes, (reports_scrubTold ..).grows.refreshes, scrubMarked, getBlk_updBlk,
    if_pos rfl, returned, getBlk_updRec, (reports_scrubCounted r d).getBlk_eq]

/-- Settles O25: each step of compaction, cleaning and scrub by its equation, with `Dev.Grows` for the recomputation that
ends it. -/
theorem logKeeping : Obligations.LogKeeping := by
  refine ⟨fun b id rest s r q e hc hs h4 hq hr hl ht hm hroom => ?_, fun id s r hr hm ht hv hp => ?_,
    fun b p s hc hs hw hi hf hd ho hl hb => ?_, fun b s h => onDev_idle (logClean_idle h),
    fun id load s r hr hc hl hb hh ht => ?_, fun id load rd au s r hr hc hl hb hh h => ?_,
    fun id load rd au s r hr h => onDev_idle (scrubRead_idle hr h)⟩
  · obtain ⟨t, run, only, ran⟩ := onDev_next (compactCopy b) s
    obtain ⟨records, image⟩ := tlcRoom_spec hroom
    rw [compactCopy_eq hc hs h4 hq hr hl ht hm hroom] at ran
    refine ⟨t, run, only, ?_, ⟨r.compacted q, ran ▸ findRec_compacted hr records, rfl, rfl, rfl, rfl, rfl⟩, ?_⟩
    · rw [ran, getBlk_countBlk, getBlk_updBlk, if_pos rfl]
    · rw [ran]
      exact image.trans ((imageOnly_updRec ..).trans ((imageOnly_updBlk ..).trans (reports_countBlk ..).imageOnly))
  · obtain ⟨t, run, only, ran⟩ := onDev_next (tlcVerified id) s
    rw [tlcVerified_eq hr hm ht hv hp] at ran
    refine ⟨t, run, only, ran ▸ findRec_verified hr .., ?_⟩
    rw [ran]
    refine Dev.ImageOnly.flashOnly ?_ ?_
    · exact (imageOnly_updRec ..).trans ((imageOnly_journalBoth ..).trans
        ((reports_trace ..).imageOnly.trans (imageOnly_closeUnits _)))
    · exact (reports_trace ..).blk_eq.trans (blk_journalBoth ..)
  · obtain ⟨t, run, only, ran⟩ := onDev_next (logClean b) s
    have mode : (eraseUnitsOf b p (stripeErasing b p s.dev)).chp.mode ≠ .rehearsal := by
      rw [chp_eraseUnitsOf]
      exact mode_ne_rehearsal_of_cleaning hc
    rw [logClean_eq hc hs hi hf hd ho, cleanStripe_of_empty hb hl hw] at ran
    have grown : (stripeErasing b p s.dev).Grows t.dev :=
      ran ▸ (grows_eraseUnitsOf ..).trans (grows_recomputeNow mode)
    have intents : t.dev.flash.intents = (eraseUnitsOf b p (stripeErasing b p s.dev)).flash.intents :=
      ran ▸ facet_recomputeNow (q := .intents) (by decide) _
    refine ⟨t, run, only, grown.erasing b p (by simp [stripeErasing]), fun r hr => grown.records.subset hr,
      fun c k hck hk hplace hret => ?_⟩
    rw [intents]
    exact intents_eraseUnitsOf hck hk ⟨hplace, hret⟩
  · obtain ⟨t, run, only, ran⟩ := onDev_next (scrubRead id load true true) s
    rw [scrubRead_sound hr hc hl hb hh ht] at ran
    exact ⟨t, run, only, ran ▸ reports_scrubCounted r s.dev⟩
  · obtain ⟨t, run, only, ran⟩ := onDev_next (scrubRead id load rd au) s
    have fails : rd = false ∨ (au || slotKeyPending s.dev r.slot) = false :=
      h.imp_right fun ⟨hau, hpend⟩ => by simp [hau, hpend]
    rw [scrubRead_failed hr hc hl hb hh fails] at ran
    refine ⟨t, run, only, ran ▸ scrubRefresh_scrubFailed .., _, ran ▸ findRec_scrubFailed hr, fun hin => ?_,
      fun hin => ?_⟩ <;> simp [Rec.scrubbed, hin]

end Sys2Proof.Machine
end

section
/-!
PROOFS. The frames of the supply, the pack and the pins (O8); SPW_THRESH (R104; O17); a granule's reload (R130; O14).
-/

namespace Sys2Proof.Machine

/-! ### The commands that can change each unit (O8) -/

/-- Settles O8: each clause is `exec_part` for the unit that it names. -/
theorem supplyAndPackFrames : Obligations.SupplyAndPackFrames := fun _ _ _ h =>
  ⟨fun hc => exec_part (q := .pins) hc h, fun hc => exec_part (q := .spw) hc h,
    fun hc => exec_part (q := .int) hc h, fun hc => exec_part (q := .est) hc h,
    fun hc => exec_part (q := .pkb) hc h⟩

/-! ### What a fault record leaves of the records (R333, R334) -/

theorem err_setMrgRing (r : Nat) (g : Ring) (d : Dev) : (setMrgRing r g d).err = d.err := rfl

theorem err_msixSend (f v : Nat) (d : Dev) : (msixSend f v d).err = d.err := by
  unfold msixSend
  dsimp only
  split <;> rfl

theorem err_mrgWrite (r : Nat) (b : Bool → List Byte) (d : Dev) : (mrgWrite r b d).err = d.err := by
  unfold mrgWrite coalesce
  dsimp only
  split
  · exact err_msixSend ..
  · rfl

theorem err_trace (type island a b : Nat) (d : Dev) : (trace type island a b d).err = d.err := by
  unfold trace traceHost
  dsimp only
  split
  · rfl
  split
  · rfl
  · exact err_mrgWrite ..

theorem err_sayLost (d : Dev) : (sayLost d).err = d.err := by
  unfold sayLost
  split <;> rfl

theorem err_drainEvents (n : Nat) (d : Dev) : (drainEvents n d).err = d.err := by
  induction n generalizing d with
  | zero => rfl
  | succ n ih =>
    unfold drainEvents
    split
    · rfl
    split
    · rfl
    · rw [ih, err_mrgWrite, err_sayLost]

theorem err_postEvent (type fn : Nat) (payload : List Nat) (d : Dev) : (postEvent type fn payload d).err = d.err := by
  unfold postEvent
  dsimp only
  split
  · rfl
  · exact err_drainEvents ..

theorem records_aerSignal (severity : Nat) (d : Dev) : (aerSignal severity d).err.records = d.err.records := by
  unfold aerSignal
  (repeat' split) <;> rfl

/-- The record that a fault gives (R333). -/
def FaultInfo.asRecord (i : FaultInfo) (d : Dev) : FaultRec := {
  ht := d.tmb.ht, seq := d.err.seqNext, cause := i.cause, code := i.code, level := i.level, island := i.island
  severity := i.severity, mode := d.chp.mode.code, fn := i.fn, target := i.target, unit := i.unit, segment := i.segment
  caddr := i.caddr, bytes := i.bytes, detail := i.detail }

/-- A fault that is no repeat stands first among the records. -/
theorem records_raiseFault {i : FaultInfo} {d : Dev} (h : suppressed i d = false) :
    (raiseFault i d).err.records = (i.asRecord d :: d.err.records).take 256 := by
  rw [raiseFault, if_neg (by simp [h])]
  dsimp only
  rw [records_aerSignal, err_trace]
  split
  · rfl
  · rw [err_postEvent]
    rfl

/-! ### SPW_THRESH (R104) -/

theorem threshOk_iff (w : W32) : threshOk w = true ↔ 9800 ≤ 20 * field w 0 10 ∧ 20 * field w 0 10 ≤ 11000
    ∧ 20 * field w 0 10 + 300 ≤ 20 * field w 10 10 ∧ 20 * field w 10 10 + 200 ≤ 20 * field w 20 10
    ∧ 20 * field w 20 10 ≤ 12400 := by
  simp [threshOk, and_assoc]

/-- The bits above the three thresholds are no part of them. -/
theorem field_thresh (w : W32) {lo : Nat} (h : lo + 10 ≤ 30) : field (w &&& 0x3FFFFFFF) lo 10 = field w lo 10 := by
  have low : (w &&& 0x3FFFFFFF).toNat = w.toNat % 2 ^ 30 := by
    rw [BitVec.toNat_and]
    exact Nat.and_two_pow_sub_one_eq_mod w.toNat 30
  have split : 2 ^ 30 = 2 ^ lo * 2 ^ (30 - lo) := by rw [← Nat.pow_add, Nat.add_sub_of_le (by omega)]
  rw [field, field, low, Nat.shiftRight_eq_div_pow, Nat.shiftRight_eq_div_pow, split, Nat.mod_mul_right_div_self,
    Nat.mod_mod_of_dvd _ (Nat.pow_dvd_pow 2 (by omega))]

/-- Settles O17: `threshOk` is the bounds, and a refusal is a fault's record or a repeat counted. -/
theorem supplyThresholds : Obligations.SupplyThresholds := by
  refine ⟨fun w s h1 h2 h3 h4 h5 => ?_, fun w s h => ?_⟩
  · have ok : threshOk w = true := (threshOk_iff w).mpr ⟨h1, h2, h3, h4, h5⟩
    refine ⟨_, rfl, ?_⟩
    dsimp only
    rw [spwThresh, if_pos ok]
    exact ⟨rfl, congrArg (20 * ·) (field_thresh w (by decide)), congrArg (20 * ·) (field_thresh w (by decide)),
      congrArg (20 * ·) (field_thresh w (by decide))⟩
  · have bad : ¬ threshOk w = true := by
      rw [threshOk_iff]
      omega
    obtain ⟨t, run, only, ran⟩ := onDev_next (spwThresh w) s
    rw [spwThresh, if_neg bad] at ran
    refine ⟨t, run, only, ran ▸ reports_configRejected .., ?_⟩
    rw [ran, configRejected]
    cases hs : suppressed { code := 0x0402, level := 4, island := 80, severity := 0, detail := 0x30004 } s.dev
    · exact .inl ⟨_, by rw [records_raiseFault hs, List.take_succ_cons, List.head?_cons], rfl, rfl⟩
    · exact .inr (by rw [raiseFault, if_pos hs])

/-! ### A granule's reload (R130) -/

/-- A device with one page, whose live record a host has laid down through a port: the body opens under the key that
its slot holds, which the record does not have yet. -/
def laidGranule : State where
  dev := {
    chp := { mode := .armed }
    int := { pendingGranules := [0] }
    pages := [(0, { record := some 7 })]
    flash := { records := [{
      id := 7, block := 0, home := 0, kind := .stage, readable := false, laid := some ([], []) }] }
    cip := { slots := [(0, { loaded := true, key := 1 })] } }

theorem ckey_laidGranule :
    (granuleReloaded 0 (laidGranule.dev, laidGranule.dram)).1.flash.records.map Rec.ckey = [1] := by
  decide

/-- Refutes O14: the reload of a granule is said to leave the flash image, but a body that a host has laid down
through a port (R320) is opened as it is read (R165), and its record takes the key of its slot. -/
theorem not_sealAndCollapse : ¬ Obligations.SealAndCollapse := by
  unfold Obligations.SealAndCollapse
  rintro ⟨-, -, -, -, -, -, -, -, -, reload, -⟩
  obtain ⟨t, run, -, -, -, flash, -⟩ := reload 0 laidGranule (by decide) (by decide)
  have dev : t.dev = (granuleReloaded 0 (laidGranule.dev, laidGranule.dram)).1 := by rw [onBoth_inv run]
  have keys : laidGranule.dev.flash.records.map Rec.ckey = [1] := by
    rw [← flash, dev, ckey_laidGranule]
  exact absurd keys (by decide)

end Sys2Proof.Machine
end

section
/-!
PROOFS. The levels of main supply: GOOD, WARN and the level between (R103, R105, R106; O10).
-/

namespace Sys2Proof.Machine

/-! ### Power lost to the cache DRAM -/

/-- A command after which a loss was counted leaves no cache DRAM. -/
theorem onPower_lost {f : Dev → Dev} {s : State} (h : (f s.dev).drc.losses ≠ s.dev.drc.losses) :
    ∃ t, onPower f s = .next t ∧ t.pending = s.pending ∧ t.dev = f s.dev ∧ t.dram = [] :=
  ⟨_, if_pos h, rfl, rfl, rfl⟩

/-- A command that counts no loss changes the device only. -/
theorem onPower_kept {f : Dev → Dev} {s : State} (h : (f s.dev).drc.losses = s.dev.drc.losses) :
    ∃ t, onPower f s = .next t ∧ s.devOnly t ∧ t.dev = f s.dev :=
  ⟨_, if_neg (not_not_intro h), ⟨rfl, rfl⟩, rfl⟩

theorem checkRetention_keep {α : Type} (f : Dev → α) (hf : ∀ d, f (loseRetention d) = f d) (d : Dev) :
    f (checkRetention d) = f d := by
  unfold checkRetention
  split
  · exact hf d
  · rfl

theorem drc_abortSource (d : Dev) : (abortSource d).drc = d.drc := by
  unfold abortSource
  split
  · exact (sends_sendOn ..).keep Dev.drc (fun _ => rfl) (by intros; rfl)
  · rfl

theorem drc_tornDirs (d : Dev) : (tornDirs d).drc = d.drc := by
  refine List.foldlRecOn d.flash.units _ (motive := fun e : Dev => e.drc = d.drc) rfl fun e he u _ => ?_
  rw [← he]
  dsimp only
  split
  · split <;> rfl
  · rfl

theorem drc_stopTime (d : Dev) : (stopTime d).drc = d.drc := by
  unfold stopTime
  split <;> rfl

/-- The dark counts one more loss of the cache DRAM, and leaves no descriptor and no page. -/
theorem losses_goDark (d : Dev) : (goDark d).drc.losses = d.drc.losses + 1 := by
  refine (checkRetention_keep (fun e => e.drc.losses) (fun _ => rfl) _).trans ?_
  show (stopTime (tornDirs (abortSource d))).drc.losses + 1 = _
  rw [drc_stopTime, drc_tornDirs, drc_abortSource]

theorem descs_goDark (d : Dev) : (goDark d).descs = [] := checkRetention_keep Dev.descs (fun _ => rfl) _

theorem pages_goDark (d : Dev) : (goDark d).pages = [] := checkRetention_keep Dev.pages (fun _ => rfl) _

theorem chp_goDark (d : Dev) : (goDark d).chp = { d.chp with sealRetained := false, rehearsePend := false } := by
  have kept : (stopTime (tornDirs (abortSource d))).facet .chp = d.facet .chp := by
    rw [facet_stopTime, facet_tornDirs (q := .chp) nofun, facet_abortSource]
  refine (checkRetention_keep Dev.chp (fun _ => rfl) _).trans ?_
  exact congrArg (fun c : Chp => { c with sealRetained := false, rehearsePend := false }) (chp_eq_of_facet kept)

/-- A row of Table 2.3 to DARK. -/
def darkRow (cause : Nat) (d : Dev) : Dev := goDark (transition .dark cause d)

theorem losses_darkRow (cause : Nat) (d : Dev) : (darkRow cause d).drc.losses = d.drc.losses + 1 := by
  rw [darkRow, losses_goDark, (reports_transition ..).drc_eq]

theorem chp_darkRow (cause : Nat) (d : Dev) : (darkRow cause d).chp.mode = .dark
    ∧ (darkRow cause d).chp.prev = d.chp.mode ∧ (darkRow cause d).chp.cause = cause := by
  rw [darkRow, chp_goDark, chp_transition]
  exact ⟨rfl, rfl, rfl⟩

/-! ### SEALED with main supply away (row 10) -/

theorem sealUnpowered_of_unpowered {d : Dev} (hm : d.chp.mode = .sealed) (hg : d.spw.good = false)
    (hp : packUsable d = false ∨ d.pkb.cutoff = true) : sealUnpowered d = darkRow 0x0D d := by
  rw [sealUnpowered, if_pos]
  · rfl
  · obtain h | h := hp <;> simp [*]

theorem sealUnpowered_of_pack {d : Dev} (hp : packUsable d = true) (hc : d.pkb.cutoff = false) :
    sealUnpowered d = d := by
  rw [sealUnpowered, if_neg (by simp [hp, hc])]

/-! ### VIN12 below GOOD (R114, R128) -/

/-- In SEALED main supply is no longer good, and the hold runs. -/
def sealedGoodLost (mv : Nat) (d : Dev) : Dev := { d with
  pins := { d.pins with vinMv := mv }
  spw := { d.spw with mv, good := false, qualRunning := false, qualified := false, holdRunning := true } }

theorem belowGood_sealed {mv : Nat} {d : Dev} (hmv : mv < d.spw.goodMv) (hm : d.chp.mode = .sealed) :
    belowGood mv d = sealUnpowered (sealedGoodLost mv d) := by
  rw [belowGood, if_neg (by simp [Nat.not_le.mpr hmv, hm])]
  simp only [hm]
  rfl

/-- While the pack holds a seal up, the level only stops a qualification and starts the timers that run without main. -/
theorem belowGood_powered {mv : Nat} {d : Dev} (hmv : mv < d.spw.goodMv) (hd : d.chp.mode ≠ .dark)
    (hp : d.chp.mode = .sealed → packUsable d = true ∧ d.pkb.cutoff = false) :
    belowGood mv d = { d with
      pins := { d.pins with vinMv := mv }
      spw := { d.spw with
        mv, good := false, qualRunning := false, qualified := false
        intTimerRunning := d.spw.intTimerRunning || d.chp.mode = .intermission
        holdRunning := d.spw.holdRunning || d.chp.mode = .sealed } } := by
  by_cases hm : d.chp.mode = .sealed
  · obtain ⟨usable, cutoff⟩ := hp hm
    rw [belowGood_sealed hmv hm, sealUnpowered_of_pack (d := sealedGoodLost mv d) usable cutoff]
    simp [sealedGoodLost, hm]
  · rw [belowGood, if_neg (by simp [Nat.not_le.mpr hmv, hd])]
    dsimp only
    split
    · next hi => simp [hi]
    · next hs => exact absurd hs hm
    · next hi _ => simp [hm, show d.chp.mode ≠ .intermission from hi]

/-! ### The release of FAIL and of WARN -/

/-- Main supply as GOOD leaves it; FAIL stands while the entry to an intermission runs (Table 7.3). -/
theorem reports_failRelease {mv : Nat} {d : Dev} (hmv : d.spw.goodMv ≤ mv) (hd : d.chp.mode ≠ .dark) :
    Dev.Reports { d with
      pins := { d.pins with vinMv := mv }
      chp := { d.chp with halt := d.chp.halt && !d.chp.haltLost, haltLost := false }
      spw := { d.spw with
        mv, fail := d.spw.fail && entering d, good := true, onPack := false, qualRunning := true
        qualified := false, intTimerRunning := false, holdRunning := false } } (failRelease mv d) := by
  rw [failRelease, if_neg (by simp [Nat.not_lt.mpr hmv, hd])]
  exact reports_trace ..

theorem reports_warnRelease {mv : Nat} {d : Dev} (hmv : d.spw.warnMv + 100 ≤ mv) (hw : d.spw.warn = true)
    (hd : d.chp.mode ≠ .dark) : Dev.Reports { d with
      pins := { d.pins with vinMv := mv }
      spw := { d.spw with mv, warn := false } } (warnRelease mv d) := by
  rw [warnRelease, if_neg (by simp [Nat.not_lt.mpr hmv, hd, hw])]
  exact reports_trace ..

/-! ### The assertion of WARN (R105, R206, R217) -/

/-- The estimator after a pending PACK_PARAM_COMMIT has ended. -/
def Est.commitEnded (outcome : Nat) (keepShadow : Bool) (e : Est) : Est :=
  if e.pending = 0 then e
  else { e with pending := 0, outcome, shadow := if keepShadow then e.shadow else none }

/-- The end of a pending commit writes the estimator and ends a descriptor at most. -/
theorem answers_dropCommit (outcome : Nat) (status : Option Nat) (keepShadow : Bool) (d : Dev) :
    Dev.Answers { d with est := d.est.commitEnded outcome keepShadow } (dropCommit outcome status keepShadow d) := by
  have told (h : Nat) (e : Dev) : e.Answers (match findDesc e h, status with
      | some x, some st => endWith x st 0 0 e
      | some x, none => dropDesc x.handle e
      | none, _ => e) := by
    split
    · exact answers_endWith ..
    · exact answers_dropDesc ..
    · exact .refl e
  by_cases h : d.est.pending = 0
  · rw [dropCommit, if_pos h, Est.commitEnded, if_pos h]
    exact .refl d
  · rw [dropCommit, if_neg h, Est.commitEnded, if_neg h]
    exact told ..

/-- An answer, and then the supply watch written. -/
theorem Dev.Answers.withSpw {d e : Dev} (h : d.Answers e) (g : Spw → Spw) :
    Dev.Answers { d with spw := g d.spw } { e with spw := g e.spw } :=
  ⟨congrArg (fun b : Dev => { b with spw := g b.spw }) h.bare, h.fns⟩

/-- The level of WARN cuts a probe pulse short. -/
def probeCut (mv : Nat) (d : Dev) : Dev := { d with
  pins := { d.pins with vinMv := mv }
  est := { d.est with probing := false, shareMa := 0 } }

theorem answers_warnAssert {mv : Nat} {d : Dev} (hmv : mv < d.spw.warnMv) (hw : d.spw.warn = false)
    (hd : d.chp.mode ≠ .dark) : Dev.Answers { d with
      pins := { d.pins with vinMv := mv }
      est := { d.est with
        probing := false, shareMa := 0, pending := 0
        outcome := if d.est.pending = 0 then d.est.outcome else 2 }
      spw := { d.spw with mv, warn := true, warnCount := satAdd 16 d.spw.warnCount 1 } } (warnAssert mv d) := by
  have est : (probeCut mv d).est.commitEnded 2 true = { d.est with
      probing := false, shareMa := 0, pending := 0
      outcome := if d.est.pending = 0 then d.est.outcome else 2 } := by
    by_cases h : d.est.pending = 0
    · simp [Est.commitEnded, probeCut, h]
    · simp [Est.commitEnded, probeCut, h]
  rw [← est, warnAssert, if_neg (by simp [Nat.not_le.mpr hmv, hd, hw])]
  refine Dev.Answers.trans ?_ ((reports_trace ..).trans (reports_postEvent ..)).answers
  exact (answers_dropCommit 2 (some stBrownout) true (probeCut mv d)).withSpw
    (fun s => { s with mv, warn := true, warnCount := satAdd 16 s.warnCount 1 })

/-- Settles O10: each level by its equation, or by the reports that it adds to one. -/
theorem supplyLevels : Obligations.SupplyLevels := by
  refine ⟨fun mv s hmv hmax hd => ?_, fun mv s hmv hm hp => ?_, fun mv s hmv hd hp => ?_,
    fun mv s hmv hw hd => ?_, fun mv s hmv hmax hw hd => ?_⟩
  · obtain ⟨t, run, only, ran⟩ := onDev_next (failRelease mv) s
    exact ⟨t, (if_neg (Nat.not_lt.mpr hmax)).trans run, only, ran ▸ reports_failRelease hmv hd⟩
  · have row : belowGood mv s.dev = darkRow 0x0D (sealedGoodLost mv s.dev) :=
      (belowGood_sealed hmv hm).trans (sealUnpowered_of_unpowered (d := sealedGoodLost mv s.dev) hm rfl hp)
    obtain ⟨dark, -, cause⟩ := chp_darkRow 0x0D (sealedGoodLost mv s.dev)
    obtain ⟨t, run, queue, ran, lost⟩ := onPower_lost (f := belowGood mv) (s := s) (by
      rw [row, losses_darkRow]
      exact Nat.succ_ne_self _)
    rw [row] at ran
    exact ⟨t, run, queue, by rw [ran, dark], by rw [ran, cause], lost⟩
  · have level := belowGood_powered hmv hd hp
    obtain ⟨t, run, only, ran⟩ := onPower_kept (f := belowGood mv) (s := s) (by rw [level])
    exact ⟨t, run, only, ran.trans level⟩
  · obtain ⟨t, run, only, ran⟩ := onDev_next (warnAssert mv) s
    exact ⟨t, run, only, ran ▸ answers_warnAssert hmv hw hd⟩
  · obtain ⟨t, run, only, ran⟩ := onDev_next (warnRelease mv) s
    exact ⟨t, (if_neg (Nat.not_lt.mpr hmax)).trans run, only, ran ▸ reports_warnRelease hmv hw hd⟩

end Sys2Proof.Machine
end

section
/-!
PROOFS. FAIL and the row of Table 2.3 that it takes (R103, R107, R123; O11).
-/

namespace Sys2Proof.Machine

/-! ### A FAIL as it is noted -/

/-- FAIL asserted, as the supply watch has it. -/
def supplyFailed (mv : Nat) (d : Dev) : Dev :=
  trace 0x0002 80 (mv + 65536) 0 { d with
    pins := { d.pins with vinMv := mv }
    spw := { d.spw with
      mv, fail := true, good := false, qualRunning := false, qualified := false, onPack := packUsable d
      failCount := if d.spw.fail then d.spw.failCount else satAdd 16 d.spw.failCount 1 } }

/-- A loss of main supply notes whether it came with HALT set (R42). -/
def haltNoted (d : Dev) : Dev := { d with chp := { d.chp with haltLost := d.chp.halt } }

/-- A FAIL newly asserted, before the row of its mode. -/
def failTaken (mv : Nat) (d : Dev) : Dev := packFail (haltNoted (supplyFailed mv d))

section
variable {mv : Nat} {d : Dev} (hmv : mv < d.spw.failMv) (hd : d.chp.mode ≠ .dark)
include hmv hd

theorem failAssert_again (hf : d.spw.fail = true) : failAssert mv d
    = if (supplyFailed mv d).chp.mode = .intermission then
        { supplyFailed mv d with spw := { (supplyFailed mv d).spw with intTimerRunning := true } }
      else supplyFailed mv d := by
  rw [failAssert, if_neg (by simp [Nat.not_le.mpr hmv, hd])]
  dsimp only
  rw [if_pos hf]
  rfl

theorem failAssert_first (hf : d.spw.fail = false) : failAssert mv d = failRows (failTaken mv d) := by
  rw [failAssert, if_neg (by simp [Nat.not_le.mpr hmv, hd])]
  dsimp only
  rw [if_neg (by simp [hf])]
  rfl

end

/-! ### What FAIL ends in the estimator and the bay -/

/-- The end of what the pack was doing, once learning and a commit have ended: a probe, a rest window, a removal. -/
def packEnded (d : Dev) : Dev :=
  let d := { d with est := { d.est with probing := false, shareMa := 0, restWindow := false, restCharge := false } }
  match d.pkb.bay with
  | .window => { d with pkb := { d.pkb with bay := .inService, cancels := satAdd 4 d.pkb.cancels 1 } }
  | .draining => { d with pkb := { d.pkb with bay := .inService } }
  | _ => d

theorem packFail_eq (d : Dev) : packFail d = packEnded (dropCommit 3 none false (endLearning 1 d)) := rfl

/-- A view of the device that sees of the estimator its conservative energy alone, and of the bay its switch. -/
def PackBlind {α : Type} (f : Dev → α) : Prop :=
  ∀ (d : Dev) (est : Est) (pkb : Pkb), est.eCons = d.est.eCons → pkb.switchClosed = d.pkb.switchClosed →
    f { d with est, pkb } = f d

section
variable {α : Type} {f : Dev → α} (hp : PackBlind f)
include hp

theorem endLearning_keep (hr : ∀ d, f d.bare = f d) (cause : Nat) (d : Dev) : f (endLearning cause d) = f d := by
  unfold endLearning
  split
  · rfl
  split
  · exact ((reports_trace ..).keep f hr).trans (hp d _ d.pkb rfl rfl)
  · exact (((reports_postEvent ..).trans (reports_trace ..)).keep f hr).trans (hp d _ d.pkb rfl rfl)

theorem packEnded_keep (d : Dev) : f (packEnded d) = f d := by
  unfold packEnded
  dsimp only
  split
  · exact hp d _ _ rfl rfl
  · exact hp d _ _ rfl rfl
  · exact hp d _ d.pkb rfl rfl

/-- What a FAIL's effect on the pack leaves alone: a view blind to descriptors and reports. -/
theorem packFail_keep (ha : ∀ d, f d.bareAll = f d) (d : Dev) : f (packFail d) = f d := by
  have ended (outcome : Nat) (keepShadow : Bool) (e : Est) : (e.commitEnded outcome keepShadow).eCons = e.eCons := by
    unfold Est.commitEnded
    split <;> rfl
  have dropped (e : Dev) : f (dropCommit 3 none false e) = f e :=
    ((answers_dropCommit ..).keep f ha).trans (hp e _ e.pkb (ended ..) rfl)
  have learned : f (endLearning 1 d) = f d := endLearning_keep hp (fun e => (ha e.bare).symm.trans (ha e)) 1 d
  rw [packFail_eq, packEnded_keep hp, dropped, learned]

/-- With no commit pending no descriptor ends either. -/
theorem packFail_keep_of_none (hr : ∀ d, f d.bare = f d) {d : Dev} (h : d.est.pending = 0) :
    f (packFail d) = f d := by
  have pending : (endLearning 1 d).est.pending = 0 := by
    unfold endLearning
    split
    · exact h
    split
    · exact (congrArg Est.pending (reports_trace ..).est_eq).trans h
    · exact (congrArg Est.pending ((reports_postEvent ..).trans (reports_trace ..)).est_eq).trans h
  rw [packFail_eq, packEnded_keep hp, dropCommit, if_pos pending, endLearning_keep hp hr]

end

/-! ### What the rows weigh (R107, R123) -/

/-- What row 2 weighs: a pack that can carry a curtain, its energy, and the fixed energy with the seal's reserve. -/
def Dev.curtainTest (d : Dev) : Bool × Nat × Nat := (packUsable d, eAvailNow d, d.adm.eFixed.toNat + sealReserve d)

/-- What row 3 weighs: intermission enabled, its need with the margin, and the energy. -/
def Dev.intermissionTest (d : Dev) : Bool × Nat × Nat :=
  (d.spw.intEn, curtainNeed d + intMargin d (curtainNeed d), eAvailNow d)

theorem packBlind_chp : PackBlind Dev.chp := fun _ _ _ _ _ => rfl

theorem packBlind_curtainTest : PackBlind Dev.curtainTest := fun d est pkb he hs => by
  have usable : packUsable { d with est, pkb } = packUsable d := by simp [packUsable, hs]
  have energy : eAvailNow { d with est, pkb } = eAvailNow d := by simp [eAvailNow, he, hs]
  simp only [Dev.curtainTest, usable, energy]
  rfl

theorem packBlind_intermissionTest : PackBlind Dev.intermissionTest := fun d est pkb he hs => by
  have energy : eAvailNow { d with est, pkb } = eAvailNow d := by simp [eAvailNow, he, hs]
  simp only [Dev.intermissionTest, energy]
  rfl

theorem intermissionTest_bare (d : Dev) : d.bare.intermissionTest = d.intermissionTest := by
  simp only [Dev.intermissionTest]
  rfl

theorem chp_failTaken (mv : Nat) (d : Dev) : (failTaken mv d).chp = { d.chp with haltLost := d.chp.halt } := by
  refine (packFail_keep packBlind_chp (fun _ => rfl) _).trans ?_
  exact congrArg (fun c : Chp => { c with haltLost := c.halt }) (reports_trace ..).chp_eq

theorem mode_failTaken (mv : Nat) (d : Dev) : (failTaken mv d).chp.mode = d.chp.mode := by
  rw [chp_failTaken]

theorem curtainTest_failTaken (mv : Nat) (d : Dev) : (failTaken mv d).curtainTest = d.curtainTest := by
  refine (packFail_keep packBlind_curtainTest (fun _ => rfl) _).trans ?_
  exact (reports_trace ..).keep Dev.curtainTest fun _ => rfl

theorem intEn_failTaken (mv : Nat) (d : Dev) : (failTaken mv d).spw.intEn = d.spw.intEn := by
  refine (packFail_keep (f := fun e => e.spw.intEn) (fun _ _ _ _ _ => rfl) (fun _ => rfl) _).trans ?_
  exact (reports_trace ..).keep (fun e => e.spw.intEn) fun _ => rfl

/-- A pending commit's descriptor can be a ready hold in the need; with none pending the need stands. -/
theorem intermissionTest_failTaken (mv : Nat) {d : Dev} (h : d.est.pending = 0) :
    (failTaken mv d).intermissionTest = d.intermissionTest := by
  have pending : (haltNoted (supplyFailed mv d)).est.pending = 0 :=
    (congrArg Est.pending (reports_trace ..).est_eq).trans h
  refine (packFail_keep_of_none packBlind_intermissionTest intermissionTest_bare pending).trans ?_
  exact (reports_trace ..).keep Dev.intermissionTest intermissionTest_bare

theorem losses_failTaken (mv : Nat) (d : Dev) : (failTaken mv d).drc.losses = d.drc.losses := by
  refine (packFail_keep (f := fun e => e.drc.losses) (fun _ _ _ _ _ => rfl) (fun _ => rfl) _).trans ?_
  exact congrArg Drc.losses (reports_trace ..).drc_eq

/-! ### The rows (Table 2.3) -/

/-- The curtain that FAIL starts. -/
def failKind : CurtainKind := { cause := 0x05, linkKept := false }

/-- Rows 1 and 2: to DARK. -/
theorem failRows_dark {d : Dev} (h : d.chp.mode = .boot ∨ d.chp.mode = .encore ∨ d.chp.mode = .reconcile
    ∨ d.chp.mode = .service ∨ (d.chp.mode = .writeThrough
      ∧ (packUsable d = false ∨ eAvailNow d < d.adm.eFixed.toNat + sealReserve d))) :
    failRows d = darkRow 0x05 d := by
  obtain h | h | h | h | ⟨h, short⟩ := h
  case inr.inr.inr.inr =>
    have stops : (!packUsable d || decide (eAvailNow d < d.adm.eFixed.toNat + sealReserve d)) = true := by
      obtain short | short := short <;> simp [short]
    simp only [failRows, h]
    rw [if_pos stops]
    rfl
  all_goals
    simp only [failRows, h]
    rfl

/-- WRITE_THROUGH with a pack that can carry a curtain. -/
theorem failRows_curtain {d : Dev} (hm : d.chp.mode = .writeThrough) (hp : packUsable d = true)
    (he : d.adm.eFixed.toNat + sealReserve d ≤ eAvailNow d) : failRows d = startCurtain failKind d := by
  simp only [failRows, hm]
  rw [if_neg (by simp [hp, Nat.not_lt.mpr he])]
  rfl

/-- Rows 3 and 4: the modes from which an intermission can start. -/
theorem failRows_admits {d : Dev} (hm : d.chp.mode = .armed ∨ d.chp.mode = .derated ∨ d.chp.mode = .rehearsal) :
    failRows d = if d.spw.intEn = true ∧ curtainNeed d + intMargin d (curtainNeed d) ≤ eAvailNow d
      then enterIntermission d else startCurtain failKind d := by
  obtain hm | hm | hm := hm
  all_goals
    simp only [failRows, hm, Bool.and_eq_true, decide_eq_true_eq]
    rfl

/-! ### The link and the milestones of a curtain and of an intermission -/

/-- The link, and how far a curtain has come. -/
def Dev.cutOff (d : Dev) : Link × Nat := (d.ept.link, d.cur.milestone)

theorem cutOff_curtainCut {k : CurtainKind} (hk : k.linkKept = false) (d : Dev) :
    (curtainCut k d).cutOff = (.abandoned, 4) := by
  have link (e : Dev) : (abandonLink false e).ept.link = .abandoned := congrArg Ept.link (reports_trace ..).ept_eq
  have reached (e : Dev) : (milestone 4 e).cutOff = (e.ept.link, 4) :=
    (reports_trace ..).keep Dev.cutOff fun _ => rfl
  unfold curtainCut
  dsimp only
  rw [if_neg (by simp [hk]), reached, link]

/-- A curtain that keeps no link has abandoned it at M4 when it starts. -/
theorem cutOff_startCurtain {k : CurtainKind} (hk : k.linkKept = false) (d : Dev) :
    (startCurtain k d).cutOff = (.abandoned, 4) := by
  obtain ⟨admits, stands⟩ := mode_curtainCut k (curtainCalm k d)
  rw [startCurtain_eq, curtainRun_eq,
    recomputeNow_idle_keep admits stands Dev.cutOff (fun _ => rfl) (fun _ _ => rfl), cutOff_curtainCut hk]

/-- An entry to an intermission is that change of mode, then its first steps, and settings of its own. -/
theorem enterIntermission_keep {α : Type} (f : Dev → α) (hr : ∀ d, f d.bare = f d)
    (hf : ∀ (d : Dev) b c i, f { d with spw := { d.spw with intTimerRunning := b }, cur := c, int := i } = f d)
    (d : Dev) :
    f (enterIntermission d) = f (intermissionCut (transition .intermission 0x05 (intermissionCalm d))) :=
  ((reports_countChip ..).keep f hr).trans (hf ..)

theorem link_enterIntermission (d : Dev) : (enterIntermission d).ept.link = .abandoned := by
  have link (e : Dev) : (abandonLink true e).ept.link = .abandoned := congrArg Ept.link (reports_trace ..).ept_eq
  refine (enterIntermission_keep (fun e => e.ept.link) (fun _ => rfl) (fun _ _ _ _ => rfl) d).trans ?_
  refine ((recounts_updateReclaim _).keep (fun e => e.ept.link) fun _ => rfl).trans ?_
  exact (congrArg Ept.link (reports_trace ..).ept_eq).trans (link _)

theorem mode_enterIntermission (d : Dev) : (enterIntermission d).chp.mode = .intermission := by
  refine (enterIntermission_keep (fun e => e.chp.mode) (fun _ => rfl) (fun _ _ _ _ => rfl) d).trans ?_
  have cut (e : Dev) : (intermissionCut e).facet .chp = e.facet .chp := by
    simp [intermissionCut, intStep, facet_abandonLink, facet_cutHost]
  exact (congrArg Chp.mode (chp_eq_of_facet (cut _))).trans (mode_transition ..)

/-! ### The flags of the supply stand over the rows -/

/-- The supply as a FAIL notes it. -/
def Dev.supply (d : Dev) : Bool × Bool × Bool × Nat × Nat × Nat :=
  (d.spw.fail, d.spw.good, d.spw.qualRunning, d.spw.mv, d.spw.failCount, d.pins.vinMv)

theorem supply_eq_of_parts {d e : Dev} (hs : e.part .spw = d.part .spw) (hp : e.part .pins = d.part .pins) :
    e.supply = d.supply :=
  congrArg₂ (fun (s : Spw) (p : Pins) => (s.fail, s.good, s.qualRunning, s.mv, s.failCount, p.vinMv)) hs hp

theorem supply_goDark {d : Dev} (hq : d.spw.qualRunning = false) : (goDark d).supply = d.supply := by
  have kept {q : Part} (h : q ≠ .int) : (loseDram (stopTime (tornDirs (abortSource d)))).part q = d.part q := by
    simp [h]
  have spw : (loseDram (stopTime (tornDirs (abortSource d)))).spw = d.spw := kept (q := .spw) nofun
  have pins : (loseDram (stopTime (tornDirs (abortSource d)))).pins = d.pins := kept (q := .pins) nofun
  refine (checkRetention_keep Dev.supply (fun _ => rfl) _).trans ?_
  simp [Dev.supply, spw, pins, hq]

theorem supply_darkRow {d : Dev} (hq : d.spw.qualRunning = false) (cause : Nat) :
    (darkRow cause d).supply = d.supply := by
  have row := reports_transition .dark cause d
  exact (supply_goDark ((congrArg Spw.qualRunning row.spw_eq).trans hq)).trans (row.keep Dev.supply fun _ => rfl)

theorem supply_row26Stop {d : Dev} (hq : d.spw.qualRunning = false) : (row26Stop d).supply = d.supply := by
  have torn (q : Part) : (tornBooks (tornLists d)).part q = d.part q := by simp
  have running : (tornBooks (tornLists d)).spw.qualRunning = false := (congrArg Spw.qualRunning (torn .spw)).trans hq
  have dark := (supply_goDark (d := { tornBooks (tornLists d) with
    chp := { (tornBooks (tornLists d)).chp with mode := .dark } }) running).trans
      (supply_eq_of_parts (torn .spw) (torn .pins))
  have lost (e : Dev) : (loseRetention e).supply = e.supply := rfl
  unfold row26Stop
  dsimp only
  split
  · exact dark
  · exact (lost _).trans dark

theorem supply_sealUnpowered {d : Dev} (hq : d.spw.qualRunning = false) : (sealUnpowered d).supply = d.supply := by
  unfold sealUnpowered
  split
  · exact supply_darkRow hq 0x0D
  · rfl

theorem supply_startCurtain (k : CurtainKind) (d : Dev) : (startCurtain k d).supply = d.supply :=
  supply_eq_of_parts (part_startCurtain (by decide) k d) (part_startCurtain (by decide) k d)

theorem supply_enterIntermission (d : Dev) : (enterIntermission d).supply = d.supply := by
  have cut (q : Part) (hq : q ≠ .int ∧ q ≠ .svc ∧ q ≠ .est) :
      (intermissionCut (transition .intermission 0x05 (intermissionCalm d))).part q = d.part q := by
    simp [intermissionCut, intermissionCalm, hq]
  exact (enterIntermission_keep Dev.supply (fun _ => rfl) (fun _ _ _ _ => rfl) d).trans
    (supply_eq_of_parts (cut .spw (by decide)) (cut .pins (by decide)))

/-- Whatever row FAIL takes, the supply stays as it was noted. -/
theorem supply_failRows {d : Dev} (hq : d.spw.qualRunning = false) : (failRows d).supply = d.supply := by
  rw [failRows]
  cases d.chp.mode
  case boot | encore | reconcile | service => exact supply_darkRow hq 0x05
  case writeThrough =>
    dsimp only
    split
    · exact supply_darkRow hq 0x05
    · exact supply_startCurtain ..
  case armed | derated | rehearsal =>
    dsimp only
    split
    · exact supply_enterIntermission d
    · exact supply_startCurtain ..
  case curtain =>
    dsimp only
    split
    · exact supply_row26Stop hq
    · exact supply_eq_of_parts (part_failInCurtain d) (part_failInCurtain d)
  case intermission | dark => rfl
  case sealed =>
    have held := supply_sealUnpowered (d := { d with spw := { d.spw with holdRunning := true } }) hq
    dsimp only
    split
    · exact (supply_eq_of_parts (part_abandonLink (q := .spw) ..) (part_abandonLink (q := .pins) ..)).trans held
    · exact held

/-- The supply as FAIL leaves it, newly asserted or not. -/
theorem supply_failAssert {mv : Nat} {d : Dev} (hmv : mv < d.spw.failMv) (hd : d.chp.mode ≠ .dark) :
    (failAssert mv d).supply = (true, false, false, mv,
      if d.spw.fail then d.spw.failCount else satAdd 16 d.spw.failCount 1, mv) := by
  have noted : (supplyFailed mv d).supply = (true, false, false, mv,
      if d.spw.fail then d.spw.failCount else satAdd 16 d.spw.failCount 1, mv) :=
    (reports_trace ..).keep Dev.supply fun _ => rfl
  have marked : (failTaken mv d).supply = (supplyFailed mv d).supply :=
    packFail_keep (f := Dev.supply) (fun _ _ _ _ _ => rfl) (fun _ => rfl) _
  cases hf : d.spw.fail
  · rw [hf] at noted
    rw [failAssert_first hmv hd hf, supply_failRows, marked, noted]
    exact congrArg (fun p : Bool × Bool × Bool × Nat × Nat × Nat => p.2.2.1) (marked.trans noted)
  · rw [hf] at noted
    rw [failAssert_again hmv hd hf]
    split
    · exact noted
    · exact noted

/-- Rows 3 and 4 abandon the link, and the test of R123 chooses between them. -/
theorem cut_failRows_admits {d : Dev}
    (hm : d.chp.mode = .armed ∨ d.chp.mode = .derated ∨ d.chp.mode = .rehearsal) :
    (failRows d).ept.link = .abandoned ∧ (failRows d).chp.mode
      = if d.spw.intEn = true ∧ curtainNeed d + intMargin d (curtainNeed d) ≤ eAvailNow d
        then .intermission else .curtain := by
  rw [failRows_admits hm]
  split
  · exact ⟨link_enterIntermission d, mode_enterIntermission d⟩
  · exact ⟨congrArg Prod.fst (cutOff_startCurtain (k := failKind) rfl d), (curtain_startCurtain failKind d).1⟩

/-- Settles O11: the row is `failRows` of the device once the FAIL is noted and the pack's work ended, which leave what
the rows weigh. -/
theorem failTakesItsRow : Obligations.FailTakesItsRow := by
  refine ⟨fun mv s hmv hd => ?_, fun mv s hmv hf hm => ?_, fun mv s hmv hf hm hp he => ?_, fun mv s hmv hf hm => ?_⟩
  · obtain ⟨t, run, queue, ran⟩ := onPower_next (failAssert mv) s
    have supply := supply_failAssert hmv hd
    rw [← ran] at supply
    simp only [Dev.supply, Prod.mk.injEq] at supply
    obtain ⟨fail, good, qual, level, count, vin⟩ := supply
    exact ⟨t, run, queue, fail, good, qual, level, vin, count⟩
  · have hd : s.dev.chp.mode ≠ .dark := by rintro h; simp [h] at hm
    obtain ⟨usable, energy, need⟩ := by
      simpa only [Dev.curtainTest, Prod.mk.injEq] using curtainTest_failTaken mv s.dev
    have row : failAssert mv s.dev = darkRow 0x05 (failTaken mv s.dev) := by
      rw [failAssert_first hmv hd hf, failRows_dark]
      rwa [mode_failTaken, usable, energy, need]
    obtain ⟨dark, prev, cause⟩ := chp_darkRow 0x05 (failTaken mv s.dev)
    obtain ⟨t, run, -, ran, lost⟩ := onPower_lost (f := failAssert mv) (s := s) (by
      rw [row, losses_darkRow, losses_failTaken]
      exact Nat.succ_ne_self _)
    rw [row] at ran
    refine ⟨t, run, ?_⟩
    rw [ran]
    exact ⟨dark, prev.trans (mode_failTaken ..), cause, lost, descs_goDark _, pages_goDark _⟩
  · have hd : s.dev.chp.mode ≠ .dark := by simp [hm]
    obtain ⟨usable, energy, need⟩ := by
      simpa only [Dev.curtainTest, Prod.mk.injEq] using curtainTest_failTaken mv s.dev
    have row : failAssert mv s.dev = startCurtain failKind (failTaken mv s.dev) := by
      rw [failAssert_first hmv hd hf]
      exact failRows_curtain ((mode_failTaken ..).trans hm) (usable.trans hp) (by rwa [need, energy])
    obtain ⟨t, run, -, ran⟩ := onPower_next (failAssert mv) s
    have cut := cutOff_startCurtain (k := failKind) rfl (failTaken mv s.dev)
    refine ⟨t, run, ?_⟩
    rw [ran, row]
    exact ⟨(curtain_startCurtain ..).1, congrArg Prod.snd cut, congrArg Prod.fst cut⟩
  · have hd : s.dev.chp.mode ≠ .dark := by rintro h; simp [h] at hm
    obtain ⟨t, run, -, ran⟩ := onPower_next (failAssert mv) s
    obtain ⟨link, mode⟩ := cut_failRows_admits (d := failTaken mv s.dev) (by rwa [mode_failTaken])
    rw [← failAssert_first hmv hd hf, ← ran] at link mode
    refine ⟨t, run, link, ?_, fun off => ?_, fun none => ?_⟩
    · rw [mode]
      split
      · exact .inl rfl
      · exact .inr rfl
    · rw [mode, if_neg (by simp [intEn_failTaken, off])]
    · obtain ⟨enabled, need, energy⟩ := by
        simpa only [Dev.intermissionTest, Prod.mk.injEq] using intermissionTest_failTaken mv none
      rw [mode, enabled, need, energy]

end Sys2Proof.Machine
end

section
/-!
PROOFS. The time base runs on over the work of admission (R60, R75): a commit takes a stamp and stops nothing, and
nothing else of the work writes the time base.
-/

namespace Sys2Proof.Machine

/-- The time base is powered. -/
def Dev.timed (d : Dev) : Bool := d.tmb.powered

theorem Dev.Answers.timed_eq {d e : Dev} (h : d.Answers e) : e.timed = d.timed := h.keep Dev.timed fun _ => rfl

theorem Dev.Reports.timed_eq {d e : Dev} (h : d.Reports e) : e.timed = d.timed := h.answers.timed_eq

theorem Dev.ImageOnly.timed_eq {d e : Dev} (h : d.ImageOnly e) : e.timed = d.timed :=
  h.keep Dev.timed (fun _ => rfl) fun _ _ _ => rfl

theorem timed_foldl {α : Type} {f : Dev → α → Dev} (hf : ∀ e a, (f e a).timed = e.timed) (l : List α) (d : Dev) :
    (l.foldl f d).timed = d.timed :=
  List.foldlRecOn (motive := fun e : Dev => e.timed = d.timed) l f rfl fun e he a _ => (hf e a).trans he

/-! ### A commit -/

theorem Tmb.closeCycle_powered (t : Tmb) : t.closeCycle.powered = t.powered := by
  simp only [Tmb.closeCycle]
  split <;> rfl

theorem Tmb.accept_powered (t : Tmb) : t.accept.powered = t.powered := by
  simp only [Tmb.accept]
  split
  · exact Tmb.closeCycle_powered _
  · rfl

theorem timed_commitHold (x : Desc) (d : Dev) : (commitHold x none d).timed = d.timed := by
  rw [Dev.timed, commitHold_tmb]
  exact Tmb.accept_powered d.tmb

/-! ### A change of the counts (R80, R83, R84, R92, R215) -/

theorem timed_updateShortfall (d : Dev) : (updateShortfall d).timed = d.timed := by
  unfold updateShortfall
  dsimp only
  split
  · exact ((reports_trace ..).trans (reports_postEvent ..)).timed_eq
  split
  · exact ((reports_trace ..).trans (reports_postEvent ..)).timed_eq
  · rfl

theorem timed_updateReclaim (d : Dev) : (updateReclaim d).timed = d.timed := by
  unfold updateReclaim
  dsimp only
  split
  · exact ((reports_trace ..).trans (reports_postEvent ..)).timed_eq
  split
  · exact ((reports_trace ..).trans (reports_postEvent ..)).timed_eq
  · rfl

theorem timed_evaluate (xs : List Desc) (k : Blocks) (d : Dev) : (evaluate xs k d).timed = d.timed := by
  induction xs generalizing k d with
  | nil => rfl
  | cons x xs ih =>
    unfold evaluate
    dsimp only
    split
    · rw [ih, (answers_refuse ..).timed_eq, timed_updateReclaim]
    split
    · rw [ih, apply_ite Dev.timed, timed_commitHold, ite_self, timed_updateReclaim]
    · rw [ih, (answers_updDesc ..).timed_eq, timed_updateReclaim]

theorem timed_evaluateAll (n : Nat) (d : Dev) : (evaluateAll n d).timed = d.timed := by
  induction n generalizing d with
  | zero => rfl
  | succ n ih =>
    unfold evaluateAll
    dsimp only
    split <;> simp only [ih, timed_updateReclaim, timed_evaluate]

theorem timed_evaluateWaiting (d : Dev) : (evaluateWaiting d).timed = d.timed := by
  unfold evaluateWaiting
  split
  · exact timed_updateReclaim d
  split
  · exact (timed_updateReclaim _).trans (timed_foldl (fun _ _ => (answers_refuse ..).timed_eq) _ d)
  · exact timed_evaluateAll ..

theorem timed_updatePressure (d : Dev) : (updatePressure d).timed = d.timed := by
  unfold updatePressure
  refine timed_foldl (fun e b => ?_) _ d
  rfl

theorem timed_floorTest (d : Dev) : (floorTest d).timed = d.timed := by
  unfold floorTest
  split
  · exact endLearning_keep (f := Dev.timed) (fun _ _ _ _ _ => rfl) (fun _ => rfl) 7 d
  · rfl

theorem timed_countsChanged (d : Dev) : (countsChanged d).timed = d.timed := by
  unfold countsChanged
  rw [timed_floorTest, timed_updatePressure, timed_updateShortfall, timed_evaluateWaiting, timed_updatePressure,
    timed_updateShortfall]

/-! ### A recomputation and the rows of Table 2.3 (R34, R75) -/

theorem timed_recompute (d : Dev) : (recompute d).timed = d.timed := (reports_recompute d).timed_eq

theorem timed_transition (m : Mode) (cause : Nat) (d : Dev) : (transition m cause d).timed = d.timed :=
  (reports_transition m cause d).timed_eq

theorem timed_enterAdmitting (m : Mode) (cause : Nat) (d : Dev) : (enterAdmitting m cause d).timed = d.timed :=
  (imageOnly_exposeAll _).timed_eq.trans (timed_transition ..)

theorem timed_abortRehearsal (answer : Bool) (d : Dev) : (abortRehearsal answer d).timed = d.timed := by
  have soiled : (soilArea d).timed = d.timed := by
    unfold soilArea
    split <;> rfl
  unfold abortRehearsal
  split
  · rfl
  refine Eq.trans ?_ soiled
  dsimp only
  split
  · split
    · exact (answers_endWith ..).timed_eq
    · exact (answers_dropDesc ..).timed_eq
  · rfl

theorem timed_writeLists47 (trigger : Nat) (d : Dev) : (writeLists47 trigger d).timed = d.timed := by
  have parts (lb : Nat) (l : CallList) (ps : List (Nat × Nat)) (e : Dev) :
      (ps.foldl (fun d p => writePart lb l p d) e).timed = e.timed :=
    (imageOnly_foldl (fun _ _ => imageOnly_writePart ..) ps e).timed_eq
  refine timed_foldl (fun e b => ?_) _ d
  split
  · rfl
  unfold writeList writeEntries
  split
  · rfl
  dsimp only
  split
  · exact parts _ _ _ e
  · rfl

theorem timed_enterWriteThrough (cause trigger : Nat) (d : Dev) :
    (enterWriteThrough cause trigger d).timed = d.timed := by
  have marked (e : Dev) : ((blockList e).foldl (fun d b => safeMark b d) e).timed = e.timed :=
    (imageOnly_foldl (fun _ _ => imageOnly_safeMark ..) _ e).timed_eq
  have noted (e : Dev) (pages : Tab Page) (adm : Adm) : Dev.timed { e with pages, adm } = e.timed := rfl
  exact (timed_updateReclaim _).trans ((noted ..).trans ((marked _).trans
    ((timed_writeLists47 ..).trans ((timed_transition ..).trans (timed_abortRehearsal ..)))))

theorem ModeRow.timed_eq {d e : Dev} (h : ModeRow d e) : e.timed = d.timed := by
  cases h with
  | stays => rfl
  | falls => exact timed_enterWriteThrough ..
  | derates | recovers => exact timed_transition ..
  | returns => exact timed_enterAdmitting ..

theorem timed_recomputeNow (d : Dev) : (recomputeNow d).timed = d.timed := by
  have counted : (recounted false d).timed = d.timed := (timed_countsChanged _).trans (timed_recompute d)
  unfold recomputeNow
  split
  · rw [reevaluate_eq]
    obtain h | h := reasonsChanged_cases (recounted false d) <;> rw [h]
    · exact counted
    · rw [timed_countsChanged, timed_recompute, (modeRow_modeRows _).timed_eq, counted]
  · rfl

theorem timed_enterSettled (cause : Nat) (d : Dev) : (enterSettled cause d).timed = d.timed := by
  have resumed (e : Dev) : (resumeFsp e).timed = e.timed := by
    unfold resumeFsp
    split
    · rfl
    · exact (reports_trace ..).timed_eq
  obtain h | ⟨m, -, h⟩ := enterSettled_cases cause d <;> rw [h, resumed]
  · exact timed_enterWriteThrough ..
  · exact timed_enterAdmitting ..

end Sys2Proof.Machine
end

section
/-!
PROOFS. The milestones and the ends of an intermission (Table 7.1, R125 to R129, R340; O13).
-/

namespace Sys2Proof.Machine

/-! ### The milestones I5 to I9 (Table 7.1) -/

/-- A milestone is noted, and besides only reported. -/
theorem reports_intStep (i : Nat) (d : Dev) :
    Dev.Reports { d with int := { d.int with step := i } } (intStep i d) := reports_trace ..

theorem step_intStep (i : Nat) (d : Dev) : (intStep i d).int.step = i :=
  congrArg Intermission.step (reports_intStep i d).int_eq

theorem chp_intStep (i : Nat) (d : Dev) : (intStep i d).chp = d.chp := (reports_intStep i d).chp_eq

/-- A record that counts written leaves the mode, whatever there is to count. -/
theorem chp_recordWritten (id : Nat) (d : Dev) : (recordWritten id d).chp = d.chp := by
  have copied (r : Rec) (p : Nat × Nat × Nat × Nat) : (copyWritten r p d).facet .chp = d.facet .chp := by
    simp [copyWritten]
  have moved (r : Rec) (p : Nat × Nat × Nat × Nat) : (countsChanged (copyWritten r p d)).chp = d.chp :=
    (chp_countsChanged _).trans (copied r p)
  by_cases hr : ∃ r, findRec d id = some r
  swap
  · rw [recordWritten_absent (Option.eq_none_iff_forall_not_mem.mpr fun r h => hr ⟨r, h⟩)]
  obtain ⟨r, hr⟩ := hr
  cases hw : r.written with
  | true =>
    simp only [recordWritten, hr, hw, if_true]
    split
    · split
      · exact moved ..
      · rfl
    · rfl
  | false =>
    by_cases hp : placeWorks d r.cell r.target = true ∨ r.bytes = 0
    · exact facet_recordWritten_chp hr hw hp
    · rw [recordWritten_stranded hr hw (fun h => hp (.inr h)) (Bool.eq_false_iff.mpr fun h => hp (.inl h))]

theorem chp_quiesceFlash (d : Dev) : (quiesceFlash d).chp = d.chp := by
  have finished : (finishInFlight d).chp = d.chp :=
    List.foldlRecOn (motive := fun e : Dev => e.chp = d.chp) _ _ rfl fun e he r _ => (chp_recordWritten ..).trans he
  have settled (e : Dev) : (settlePorts e).facet .chp = e.facet .chp := by
    simp [settlePorts, facet_finishPrograms]
  exact (chp_eq_of_facet (settled _)).trans finished

theorem flashQuiesced_runs {d : Dev} (hm : d.chp.mode = .intermission) (hs : d.int.step = 4) :
    flashQuiesced d = intStep 5 (quiesceFlash d) := if_neg (by simp [hm, hs])

/-- The lists of I6 written, before the milestone. -/
def intListed (d : Dev) : Dev := (saveBlocks d).foldl (fun d b =>
  writeEntries b 3 d.int.entryHt (heldEntries d b ++ unackOf d b) (Tab.get 0 d.cur.listedB b) 0 d) d

/-- I6 keeps what it has listed, and the energy still needed. -/
def intListsKept (d : Dev) : Dev := { d with int := { d.int with
  needMj := needFor d (leftB d), listIds := d.cur.lists.map CallList.listId } }

theorem intLists_runs {d : Dev} (hm : d.chp.mode = .intermission) (hs : d.int.step = 5) :
    intLists d = intStep 6 (intListsKept (intListed d)) := if_neg (by simp [hm, hs])

theorem chp_intListed (d : Dev) : (intListed d).chp = d.chp := by
  have listed : (intListed d).facet .chp = d.facet .chp := by simp [intListed]
  exact listed

/-- The key store copied into the retention island (I7). -/
def keysCopied (d : Dev) : Dev := { d with cip := { d.cip with copy := d.cip.slots } }

theorem exec_statePreserved {s : State} (hm : s.dev.chp.mode = .intermission) (hs : s.dev.int.step = 6) :
    exec .statePreserved s = onDev (fun d => intStep 7 (keysCopied d)) s := by
  show onDev _ s = _
  simp only [onDev, hm, hs, and_self, if_true]
  rfl

/-- I8 before the milestone: segments not kept are given up, and their pages with a live record wait for reload. -/
def segmentsMasked (d : Dev) : Dev :=
  let keep := fun a => (keptSegments d (blockOf a)).contains (segmentOf d a)
  let gone := (d.pages.filter (fun e => !keep (pageAddr e.1)
    && (e.2.record.isSome && (e.2.kind = .held || e.2.kind = .clean)))).map (fun e => pageAddr e.1 / 16777216)
  { d with
    int := { d.int with
      kept := keptMask d, pasrEff := d.spw.keepUnstaged && d.drc.mapNow ≠ 1
      pendingGranules := (sortBy id (gone ++ d.int.pendingGranules)).eraseDups }
    drc := { d.drc with poison := d.drc.poison.filter keep }
    pages := d.pages.filter (fun e => keep (pageAddr e.1) || e.2.record.isSome
      || e.2.kind = .lost || e.2.kind = .plost) }

/-- The cache DRAM in self-refresh: of each block the bytes of the segments kept. -/
def refreshedDram (d : Dev) (m : List Host.Cell) : List Host.Cell :=
  m.filter (fun c => (keptSegments d (blockOf c.1)).contains (segmentOf d c.1))

theorem selfRefresh_runs {d : Dev} (m : List Host.Cell) (hm : d.chp.mode = .intermission) (hs : d.int.step = 7) :
    selfRefresh (d, m) = (intStep 8 (prune (enterSelfRefresh (segmentsMasked d))), refreshedDram d m) :=
  if_neg (by simp [hm, hs])

theorem memRead_refreshedDram (d : Dev) (m : List Host.Cell) (a : Nat) : memRead (refreshedDram d m) a
    = if (keptSegments d (blockOf a)).contains (segmentOf d a) then memRead m a else 0 :=
  memRead_filter (fun a => (keptSegments d (blockOf a)).contains (segmentOf d a)) m a

/-- Self-refresh is entered with the mode and the intermission's record as they stand. -/
theorem chp_int_refreshed (d : Dev) : (prune (enterSelfRefresh d)).chp = d.chp
    ∧ (prune (enterSelfRefresh d)).int = d.int := by
  have mode : (prune (enterSelfRefresh d)).facet .chp = d.facet .chp := by simp [enterSelfRefresh]
  exact ⟨mode, (part_prune (q := .int) _).trans (part_enterSelfRefresh d)⟩

theorem sends_sendStatusAll (d : Dev) : d.Sends (sendStatusAll d) := by
  unfold sendStatusAll
  split
  · exact .refl d
  · exact List.foldlRecOn (motive := fun e : Dev => d.Sends e) _ _ (.refl d) fun e he p _ =>
      he.trans (sends_sendOn ..)

/-- FAIL is cleared at I9 where main supply is good again (Table 7.3). -/
def failCleared (d : Dev) : Dev := { d with spw := { d.spw with fail := d.spw.fail && !d.spw.good } }

/-- I9: the logic is down, the time base stopped. -/
def logicDown (d : Dev) : Dev := stopTime (intStep 9 (sendStatusAll (failCleared d)))

/-- A qualification already complete at I9 takes row 8 at once (Table 7.3). -/
def logicDownOrLeft (d : Dev) : Dev :=
  if (logicDown d).spw.good && (logicDown d).spw.qualified then leaveIntermission (logicDown d) else logicDown d

theorem exec_logicPoweredDown {s : State} (hm : s.dev.chp.mode = .intermission) (hs : s.dev.int.step = 8) :
    exec .logicPoweredDown s = onDev logicDownOrLeft s := by
  show onDev _ s = _
  simp only [onDev, hm, hs, and_self, if_true]
  rfl

theorem chp_logicDown (d : Dev) : (logicDown d).chp = d.chp := by
  have stopped (e : Dev) : (stopTime e).chp = e.chp := facet_stopTime (q := .chp) e
  have sent : (sendStatusAll (failCleared d)).chp = (failCleared d).chp :=
    (sends_sendStatusAll _).keep Dev.chp (fun _ => rfl) (by intros; rfl)
  exact (stopped _).trans ((chp_intStep ..).trans sent)

theorem spw_logicDown (d : Dev) : (logicDown d).spw = { d.spw with fail := d.spw.fail && !d.spw.good } := by
  have kept : (logicDown d).part .spw = (failCleared d).part .spw := by simp [logicDown]
  exact kept

theorem logicDownOrLeft_stays {d : Dev} (h : d.spw.good = false ∨ d.spw.qualified = false) :
    logicDownOrLeft d = logicDown d := by
  refine if_neg ?_
  rw [spw_logicDown]
  obtain h | h := h <;> simp [h]

theorem logicDownOrLeft_leaves {d : Dev} (hg : d.spw.good = true) (hq : d.spw.qualified = true) :
    logicDownOrLeft d = leaveIntermission (logicDown d) := by
  refine if_pos ?_
  simp [spw_logicDown, hg, hq]

theorem step_logicDown (d : Dev) : (logicDown d).int.step = 9 :=
  (congrArg Intermission.step (part_stopTime (q := .int) _)).trans (step_intStep ..)

theorem timed_stopTime (d : Dev) : (stopTime d).timed = false := by
  unfold stopTime
  split
  · next h => simpa [Dev.timed] using h
  · rfl

/-! ### On as a curtain (row 6) -/

theorem timed_restartTime (d : Dev) : (restartTime d).timed = true := by
  unfold restartTime
  split
  · assumption
  · rfl

theorem timed_leaveSelfRefresh (d : Dev) : (leaveSelfRefresh d).timed = d.timed :=
  (reports_foldl (fun e b => reports_countBlk b 16 8 e) _ d).timed_eq

/-- An intermission that goes on as a curtain, before the recomputation. -/
def intCurtained (cause exit : Nat) (d : Dev) : Dev :=
  let listed := 6 ≤ d.int.step
  let d := transition .curtain cause (leaveSelfRefresh (restartTime d))
  { d with
    fns := Tab.mapVals (fun (f : FnSt) => { f with cqWait := [] }) d.fns
    mrg := { d.mrg with orphans := [] }
    int := { d.int with exit }
    cip := { d.cip with copy := [] }
    spw := { d.spw with fail := d.spw.fail && !d.spw.good }
    chp := { d.chp with planned := false }
    cur := { ({} : Curtain) with
      fromInt := true, seqNo := (d.cur.seqNo + 1) % 256, failHt := d.chp.modeHt
      milestone := 4, listed6 := listed, lists := if listed then d.cur.lists else []
      energyAtFail := d.cur.energyAtFail, listedB := d.cur.listedB } }

theorem intToCurtain_eq (cause exit : Nat) (d : Dev) :
    intToCurtain cause exit d = recomputeNow (intCurtained cause exit d) := rfl

/-- The curtain stands at M4 on a running time base, with the cause and the exit given. -/
theorem intToCurtain_spec (cause exit : Nat) (d : Dev) :
    (intToCurtain cause exit d).chp.mode = .curtain ∧ (intToCurtain cause exit d).chp.cause = cause
      ∧ (intToCurtain cause exit d).int.exit = exit ∧ (intToCurtain cause exit d).cur.milestone = 4
      ∧ (intToCurtain cause exit d).tmb.powered = true ∧ (intToCurtain cause exit d).cur.fromInt = true := by
  have chp : (intCurtained cause exit d).chp.mode = .curtain ∧ (intCurtained cause exit d).chp.cause = cause := by
    have row := (reports_transition .curtain cause (leaveSelfRefresh (restartTime d))).chp_eq
    exact ⟨congrArg Chp.mode row, congrArg Chp.cause row⟩
  have timed : (intCurtained cause exit d).timed = true :=
    (timed_transition ..).trans ((timed_leaveSelfRefresh _).trans (timed_restartTime d))
  have admits : (intCurtained cause exit d).chp.mode.admits = false := by rw [chp.1]; rfl
  have stands : (intCurtained cause exit d).chp.mode ≠ .writeThrough := by rw [chp.1]; nofun
  have kept := chp_recomputeNow_idle admits stands
  have cur := recomputeNow_idle_keep admits stands Dev.cur (fun _ => rfl) (fun _ _ => rfl)
  have int := part_recomputeNow (q := .int) nofun (intCurtained cause exit d)
  rw [intToCurtain_eq, kept, cur]
  exact ⟨chp.1, chp.2, congrArg Intermission.exit int, rfl, (timed_recomputeNow _).trans timed, rfl⟩

/-! ### Back to a settled mode (row 8) -/

/-- The islands are powered up again, the link trains, and host-loss timing runs (R246). -/
def islandsUp (d : Dev) : Dev :=
  let d := leaveSelfRefresh (restartTime d)
  { d with
    spw := { d.spw with qualRunning := false, qualified := false, intTimerRunning := false }
    int := { d.int with exit := 1 }
    cip := { d.cip with copy := [] }
    ept := { d.ept with link := .training, hostLossState := 1, linkLostHt := d.tmb.ht } }

/-- What the intermission held waiting is resolved: its lists retired, erases redone, the hosts told (R129). -/
def workResolved (d : Dev) : Dev := intEndEvents (redoErases (retireLists d.int.listIds d))

/-- The intermission's record ends. -/
def workDropped (d : Dev) : Dev := { d with
  int := { d.int with ready := [], abandoned := [], listIds := [], step := 0 }
  cur := { d.cur with lists := [] } }

/-- The curtain of a chip island that failed during the intermission (R340). -/
def failedKind : CurtainKind := { cause := 0x07, linkKept := false, protective := true }

/-- A device that has left an intermission goes on into a protective curtain where a chip island has failed. -/
def failedIslandsActed (d : Dev) : Dev :=
  if d.chp.fatalIslands ≠ [] && (d.chp.mode.admits || d.chp.mode = .writeThrough) then startCurtain failedKind d
  else d

/-- The end of an intermission once its work is resolved: its record dropped, admission recomputed. -/
def intermissionOver (d : Dev) : Dev := recomputeNow (countsChanged (workDropped d))

/-- Row 8 taken, before a chip island that failed meanwhile is looked at. -/
def resumed (d : Dev) : Dev := intermissionOver (workResolved (enterSettled 0x09 (recompute (islandsUp d))))

theorem leaveIntermission_eq (d : Dev) : leaveIntermission d = failedIslandsActed (resumed d) := by
  -- One stage at a time, each forgotten once it is named: unfolded together they are too deep a term to compare.
  unfold leaveIntermission
  extract_lets up _ _ _ _ woken settled _ resolved _ _ left
  have hw : woken = islandsUp d := rfl
  have hs : settled = enterSettled 0x09 (recompute woken) := rfl
  have hr : resolved = workResolved settled := rfl
  clear_value resolved
  have hl : left = intermissionOver resolved := rfl
  clear_value left
  rw [resumed, ← hw, ← hs, ← hr, ← hl]
  rfl

theorem facet_workResolved {q : Facet} (hf : q ≠ .flash ∧ q ≠ .staged) (hc : q ≠ .cells) (d : Dev) :
    (workResolved d).facet q = d.facet q := by
  have retired (ids : List Nat) (e : Dev) : (retireLists ids e).facet q = e.facet q := by
    refine facet_foldl (fun e id => ?_) ids e
    split <;> simp [hf]
  simp [workResolved, intEndEvents, redoErases, retired, hc]

theorem timed_retireLists (ids : List Nat) (d : Dev) : (retireLists ids d).timed = d.timed := by
  have head (b home ht id : Nat) (e : Dev) : e.ImageOnly (headOnly b home .retire 0 [] ht id true e).2 :=
    (imageOnly_newId ..).trans ((imageOnly_addRec ..).trans (imageOnly_journalBoth ..))
  refine timed_foldl (fun e id => ?_) ids d
  split
  · exact ((head ..).trans ((imageOnly_updRec ..).trans (imageOnly_updRec ..))).timed_eq
  · rfl

theorem timed_redoErases (d : Dev) : (redoErases d).timed = d.timed := by
  have erased (c t pos mode : Nat) (e : Dev) : (eraseNow c t pos mode false e).timed = e.timed :=
    (reports_trace ..).timed_eq
  refine timed_foldl (fun e b => timed_foldl (fun e i => ?_) _ e) _ _
  split
  · rfl
  · exact erased ..

theorem reports_intEndEvents (d : Dev) : d.Reports (intEndEvents d) := by
  refine reports_foldl (fun e f => ?_) _ d
  dsimp only
  split
  · exact .refl e
  · exact (reports_postEvent ..).trans (reports_foldl (fun _ _ => reports_postEvent ..) _ _)

theorem timed_workResolved (d : Dev) : (workResolved d).timed = d.timed :=
  (reports_intEndEvents _).timed_eq.trans ((timed_redoErases _).trans (timed_retireLists ..))

theorem chp_workResolved (d : Dev) : (workResolved d).chp = d.chp :=
  facet_workResolved (q := .chp) (by simp) nofun d

theorem int_intermissionOver (d : Dev) : (intermissionOver d).int
    = { d.int with ready := [], abandoned := [], listIds := [], step := 0 } :=
  (part_recomputeNow (q := .int) nofun _).trans (part_countsChanged (q := .int) nofun (workDropped d))

theorem int_workResolved (d : Dev) : (workResolved d).int = d.int :=
  (part_intEndEvents (q := .int) _).trans ((part_redoErases _).trans (part_retireLists ..))

theorem int_resumed (d : Dev) : (resumed d).int
    = { d.int with exit := 1, ready := [], abandoned := [], listIds := [], step := 0 } := by
  have woken : (islandsUp d).int = { d.int with exit := 1 } :=
    congrArg (fun i : Intermission => { i with exit := 1 })
      ((part_leaveSelfRefresh (q := .int) _).trans (part_restartTime d))
  have settled (e : Dev) : (enterSettled 0x09 (recompute e)).int = e.int :=
    (part_enterSettled (q := .int) ..).trans (part_recompute e)
  rw [resumed, int_intermissionOver, int_workResolved, settled, woken]

theorem timed_resumed (d : Dev) : (resumed d).timed = true := by
  have ended (e : Dev) : (intermissionOver e).timed = e.timed :=
    (timed_recomputeNow _).trans (timed_countsChanged (workDropped e))
  have woken : (islandsUp d).timed = true := (timed_leaveSelfRefresh _).trans (timed_restartTime d)
  rw [resumed, ended, timed_workResolved, timed_enterSettled, timed_recompute, woken]

/-- A recomputation leaves a settled mode a settled one. -/
theorem settled_recomputeNow {d : Dev} (h : d.chp.mode.settled = true) : (recomputeNow d).chp.mode.settled = true := by
  unfold recomputeNow
  split
  · exact settled_reevaluate h
  · exact h

theorem settled_resumed (d : Dev) : (resumed d).chp.mode.settled = true := by
  have ended {e : Dev} (h : e.chp.mode.settled = true) : (intermissionOver e).chp.mode.settled = true := by
    refine settled_recomputeNow ?_
    rwa [chp_countsChanged]
  unfold resumed
  refine ended ?_
  rw [chp_workResolved]
  exact settled_enterSettled ..

theorem facet_islandsUp_fatal (d : Dev) : (islandsUp d).facet .fatal = d.facet .fatal :=
  (facet_leaveSelfRefresh (.inr (.inl rfl)) (restartTime d)).trans (facet_restartTime d)

theorem facet_enterSettled_fatal (cause : Nat) (d : Dev) : (enterSettled cause d).facet .fatal = d.facet .fatal := by
  have woken (e : Dev) : (resumeFsp e).facet .fatal = e.facet .fatal := by
    unfold resumeFsp
    split <;> simp
  obtain h | ⟨m, -, h⟩ := enterSettled_cases cause d <;> rw [h, woken] <;> simp

/-- The failed islands stay known. -/
theorem fatal_resumed (d : Dev) : (resumed d).chp.fatalIslands = d.chp.fatalIslands := by
  have ended (e : Dev) : (intermissionOver e).facet .fatal = e.facet .fatal :=
    (facet_recomputeNow (by simp) _).trans (facet_countsChanged (q := .fatal) nofun (workDropped e))
  have kept : (resumed d).facet .fatal = d.facet .fatal := by
    rw [resumed, ended, facet_workResolved (q := .fatal) (by simp) nofun, facet_enterSettled_fatal, facet_recompute,
      facet_islandsUp_fatal]
  exact kept

theorem leaveIntermission_of_sound {d : Dev} (h : d.chp.fatalIslands = []) : leaveIntermission d = resumed d := by
  rw [leaveIntermission_eq, failedIslandsActed, if_neg (by simp [fatal_resumed, h])]

/-- From a settled mode a chip island's failure starts a curtain. -/
theorem Mode.admits_or_of_settled {m : Mode} (h : m.settled = true) : m.admits = true ∨ m = .writeThrough := by
  cases m <;> simp_all [Mode.settled, Mode.admits]

theorem leaveIntermission_of_failed {d : Dev} (h : d.chp.fatalIslands ≠ []) :
    leaveIntermission d = startCurtain failedKind (resumed d) := by
  have takes := Mode.admits_or_of_settled (settled_resumed d)
  rw [leaveIntermission_eq, failedIslandsActed, if_pos]
  simpa [fatal_resumed, h] using takes

theorem step_refuseAll (d : Dev) : (refuseAll d).int.step = d.int.step := by
  have refused (xs : List Desc) (e : Dev) : (xs.foldl (fun d x => refuse x stMode d) e).int = e.int :=
    part_foldl (q := .int) (fun _ _ => part_refuse ..) xs e
  unfold refuseAll
  dsimp only
  rw [refused]

theorem step_curtainCut (k : CurtainKind) (d : Dev) : (curtainCut k d).int.step = d.int.step := by
  have stones (m : Nat) (e : Dev) : (milestone m e).int = e.int := part_milestone (q := .int) m e
  have begun : (if (countChip 13 1 (milestone 1 d)).spw.onPack then milestone 2 (countChip 13 1 (milestone 1 d))
      else countChip 13 1 (milestone 1 d)).int = d.int := by
    have one : (countChip 13 1 (milestone 1 d)).int = d.int := stones 1 d
    split
    · exact (stones ..).trans one
    · exact one
  have link (e : Dev) : (abandonLink false e).int = e.int := part_abandonLink (q := .int) false e
  have cut (e : Dev) : (cutHost e).int.step = e.int.step := rfl
  unfold curtainCut
  dsimp only
  split
  · rw [stones, step_refuseAll, begun]
  · rw [stones, link, stones, cut, begun]

/-- A curtain's start leaves the step of an intermission. -/
theorem step_startCurtain (k : CurtainKind) (d : Dev) : (startCurtain k d).int.step = d.int.step := by
  have calm : (curtainCalm k d).part .int = d.part .int := by
    simp only [curtainCalm]
    split <;> simp
  have marked (e : Dev) : (curtainMarked k e).part .int = e.part .int := by simp [curtainMarked]
  have cut := part_recomputeNow (q := .int) nofun (curtainCut k (curtainMarked k (curtainCalm k d)))
  rw [startCurtain_eq, curtainRun_eq]
  refine (congrArg Intermission.step cut).trans ((step_curtainCut ..).trans ?_)
  exact congrArg Intermission.step ((marked _).trans calm)

/-! ### Qualifications and the timer -/

/-- A qualification is recorded. -/
def qualNoted (d : Dev) : Dev := { d with spw := { d.spw with qualified := true } }

theorem resumeQual_idle {d : Dev} (h : d.spw.good = false ∨ d.spw.qualRunning = false) : resumeQual d = d := by
  rw [resumeQual, if_pos]
  obtain h | h := h <;> simp [h]

section
variable {d : Dev} (hg : d.spw.good = true) (hq : d.spw.qualRunning = true)
include hg hq

theorem resumeQual_recorded (hs : d.chp.mode ≠ .sealed) (hi : d.chp.mode = .intermission → d.int.step ≠ 9) :
    resumeQual d = qualNoted d := by
  rw [resumeQual, if_neg (by simp [hg, hq])]
  dsimp only
  split
  · next hm => exact if_neg (hi hm)
  · next hm => exact absurd hm hs
  · rfl

theorem resumeQual_leaves (hm : d.chp.mode = .intermission) (hs : d.int.step = 9) :
    resumeQual d = leaveIntermission (qualNoted d) := by
  rw [resumeQual, if_neg (by simp [hg, hq])]
  simp only [hm, hs, if_true]
  rfl

theorem mode_resumeQual_sealed (hm : d.chp.mode = .sealed) :
    (resumeQual d).chp.mode = if d.chp.halt then .sealed else .boot := by
  cases hh : d.chp.halt with
  | true =>
    rw [chp_resumeQual_of_halt hm hh, hm]
    rfl
  | false =>
    have row : resumeQual d = goBoot 0x18 (qualNoted d) := by
      rw [resumeQual, if_neg (by simp [hg, hq])]
      dsimp only
      split
      · next hi => rw [hm] at hi; cases hi
      · exact if_neg (by simp [hh])
      · next hs => exact absurd hm hs
    obtain ⟨seq, ht, marks⟩ := bootMarks_goBoot 0x18 (qualNoted d)
    have mode : (goBoot 0x18 (qualNoted d)).chp.mode = .boot := congrArg (fun m : Chp × Nat => m.1.mode) marks
    rw [row, mode]
    rfl

end

theorem exec_intermissionTimerExpiry {s : State} (hm : s.dev.chp.mode = .intermission)
    (ht : s.dev.spw.intTimerRunning = true) (hg : s.dev.spw.good = false) :
    exec .intermissionTimerExpiry s = onDev (intToCurtain 0x0A 2) s := by
  show onDev _ s = _
  simp [onDev, hm, ht, hg]

theorem exec_intermissionTimerExpiry_idle {s : State} (h : s.dev.chp.mode ≠ .intermission
    ∨ s.dev.spw.intTimerRunning = false ∨ s.dev.spw.good = true) : exec .intermissionTimerExpiry s = .next s := by
  show onDev _ s = _
  rw [onDev, if_neg]
  obtain h | h | h := h <;> simp [h]

/-- Row 8 taken, no chip island having failed: what is left is a device in a settled mode, its time base running. -/
theorem leaveIntermission_spec {d : Dev} (h : d.chp.fatalIslands = []) :
    (leaveIntermission d).int = { d.int with exit := 1, ready := [], abandoned := [], listIds := [], step := 0 }
      ∧ (leaveIntermission d).tmb.powered = true ∧ (leaveIntermission d).chp.mode.settled = true := by
  rw [leaveIntermission_of_sound h]
  exact ⟨int_resumed d, timed_resumed d, settled_resumed d⟩

/-! ### The statement -/

/-- Settles O13: each milestone is its work and then its note, row 6 is `intToCurtain`, and row 8 is `resumed`, with the
protective curtain of a chip island that failed meanwhile behind it. -/
theorem intermission : Obligations.Intermission := by
  refine ⟨fun s hm hs => ?_, fun s hm hs => ?_, fun s hm hs => ?_, fun s hm hs => ?_, fun s hm hs hp => ?_,
    fun s hm hs hg hq hf => ?_, fun s hm ht hg => ?_, fun s hg hq hm hs hf => ?_, fun s hg hq hm => ?_,
    fun s hg hq hs hi => ?_, fun s hg hq hm hs => ?_, fun s h => ?_, fun s hg hq hm hs hf => ?_, fun s h => ?_⟩
  · obtain ⟨t, run, only, ran⟩ := onDev_next flashQuiesced s
    refine ⟨t, run, only, ?_⟩
    rw [ran, flashQuiesced_runs hm hs, chp_intStep, chp_quiesceFlash]
    exact ⟨hm, step_intStep ..⟩
  · obtain ⟨t, run, only, ran⟩ := onDev_next intLists s
    have noted := reports_intStep 6 (intListsKept (intListed s.dev))
    refine ⟨t, run, only, ?_⟩
    rw [ran, intLists_runs hm hs, noted.chp_eq, noted.int_eq, noted.cur_eq]
    exact ⟨(congrArg Chp.mode (chp_intListed s.dev)).trans hm, rfl, rfl⟩
  · obtain ⟨t, run, only, ran⟩ := onDev_next (fun d => intStep 7 (keysCopied d)) s
    refine ⟨t, (exec_statePreserved hm hs).trans run, only, ?_⟩
    rw [ran]
    exact reports_intStep 7 (keysCopied s.dev)
  · obtain ⟨t, run, queue, ran, dram⟩ := onBoth_next selfRefresh s
    obtain ⟨chp, int⟩ := chp_int_refreshed (segmentsMasked s.dev)
    have noted := reports_intStep 8 (prune (enterSelfRefresh (segmentsMasked s.dev)))
    rw [selfRefresh_runs s.dram hm hs] at ran dram
    refine ⟨t, run, queue, ?_⟩
    rw [ran, dram, noted.chp_eq, noted.int_eq, chp, int]
    exact ⟨hm, rfl, rfl, memRead_refreshedDram s.dev s.dram⟩
  · obtain ⟨t, run, only, ran⟩ := onDev_next logicDownOrLeft s
    refine ⟨t, (exec_logicPoweredDown hm hs).trans run, only, ?_⟩
    rw [ran, logicDownOrLeft_stays hp, chp_logicDown]
    exact ⟨hm, step_logicDown s.dev, fun _ => timed_stopTime _⟩
  · obtain ⟨t, run, only, ran⟩ := onDev_next logicDownOrLeft s
    obtain ⟨int, -, settled⟩ := leaveIntermission_spec (d := logicDown s.dev) (by rwa [chp_logicDown])
    refine ⟨t, (exec_logicPoweredDown hm hs).trans run, only, ?_⟩
    rw [ran, logicDownOrLeft_leaves hg hq, int]
    exact ⟨rfl, rfl, settled⟩
  · obtain ⟨t, run, only, ran⟩ := onDev_next (intToCurtain 0x0A 2) s
    refine ⟨t, (exec_intermissionTimerExpiry hm ht hg).trans run, only, ?_⟩
    rw [ran]
    exact intToCurtain_spec 0x0A 2 s.dev
  · obtain ⟨t, run, only, ran⟩ := onDev_next resumeQual s
    obtain ⟨int, timed, settled⟩ := leaveIntermission_spec (d := qualNoted s.dev) hf
    refine ⟨t, run, only, ?_⟩
    rw [ran, resumeQual_leaves hg hq hm hs, int]
    exact ⟨rfl, rfl, rfl, rfl, rfl, timed, settled⟩
  · obtain ⟨t, run, only, ran⟩ := onDev_next resumeQual s
    exact ⟨t, run, only, by rw [ran, mode_resumeQual_sealed hg hq hm]⟩
  · exact congrArg (fun d => Host.Outcome.next { s with dev := d })
      (resumeQual_recorded hg hq hs fun hm => absurd hm hi)
  · exact congrArg (fun d => Host.Outcome.next { s with dev := d })
      (resumeQual_recorded hg hq (by simp [hm]) fun _ => hs)
  · exact congrArg (fun d => Host.Outcome.next { s with dev := d }) (resumeQual_idle h)
  · obtain ⟨t, run, only, ran⟩ := onDev_next resumeQual s
    obtain ⟨mode, protective, -⟩ := protective_startCurtain (k := failedKind) rfl (resumed (qualNoted s.dev))
    refine ⟨t, run, only, ?_⟩
    rw [ran, resumeQual_leaves hg hq hm hs, leaveIntermission_of_failed (d := qualNoted s.dev) hf]
    exact ⟨mode, protective, by rw [step_startCurtain, int_resumed]⟩
  · exact exec_intermissionTimerExpiry_idle h

end Sys2Proof.Machine
end

section
/-!
PROOFS. The milestones E1 to E3 of an encore (R133 to R143): the image located, its headers scanned, the winners chosen.
-/

namespace Sys2Proof.Machine

/-! ### Milestones noted -/

theorem reports_encMilestone (e : Nat) (d : Dev) :
    Dev.Reports { d with enc := { d.enc with msHt := Tab.set d.enc.msHt e d.tmb.ht } } (encMilestone e d) :=
  reports_trace ..

theorem reports_rcnMilestone (c : Nat) (d : Dev) :
    Dev.Reports { d with enc := { d.enc with rcnHt := Tab.set d.enc.rcnHt c d.tmb.ht } } (rcnMilestone c d) :=
  reports_trace ..

theorem enc_encMilestone (e : Nat) (d : Dev) :
    (encMilestone e d).enc = { d.enc with msHt := Tab.set d.enc.msHt e d.tmb.ht } := (reports_encMilestone e d).enc_eq

theorem enc_rcnMilestone (c : Nat) (d : Dev) :
    (rcnMilestone c d).enc = { d.enc with rcnHt := Tab.set d.enc.rcnHt c d.tmb.ht } := (reports_rcnMilestone c d).enc_eq

theorem chp_encMilestone (e : Nat) (d : Dev) : (encMilestone e d).chp = d.chp := (reports_encMilestone e d).chp_eq

theorem chp_rcnMilestone (c : Nat) (d : Dev) : (rcnMilestone c d).chp = d.chp := (reports_rcnMilestone c d).chp_eq

/-- What encore keeps of a function: whether it is restored, whether it waits for a key, and its next sequence. -/
def FnSt.encoreMarks (s : FnSt) : Bool × Bool × Nat := (s.restored, s.keyPending, s.seqNext)

theorem encoreMarks_of_reports {d e : Dev} (h : d.Reports e) (f : Nat) :
    (getFn e f).encoreMarks = (getFn d f).encoreMarks := by
  show (e.fnCore f).encoreMarks = (d.fnCore f).encoreMarks
  rw [h.fns]

theorem seqNext_of_reports {d e : Dev} (h : d.Reports e) (f : Nat) : (getFn e f).seqNext = (getFn d f).seqNext :=
  congrArg (fun k : Bool × Bool × Nat => k.2.2) (encoreMarks_of_reports h f)

theorem restored_of_reports {d e : Dev} (h : d.Reports e) (f : Nat) : (getFn e f).restored = (getFn d f).restored :=
  congrArg Prod.fst (encoreMarks_of_reports h f)

theorem mem_fnNumbers {f : Nat} : f ∈ fnNumbers ↔ 1 ≤ f ∧ f ≤ 63 := by
  simp only [fnNumbers, List.mem_map, List.mem_range]
  constructor
  · rintro ⟨g, hg, rfl⟩
    omega
  · exact fun ⟨h, g⟩ => ⟨f - 1, by omega, by omega⟩

/-! ### E1: the image located (R133, R134, R148) -/

/-- Seals of the newest books of the blocks that encore restores. -/
def bookSeals (d : Dev) : List Nat := (readBlocks d).filterMap (fun b => (newestBookOf d b).map Book.sealHt)

/-- The blocks were not sealed together. -/
def sealsDiffer (d : Dev) : Bool := (bookSeals d).any (fun h => (bookSeals d).any (fun g => g ≠ h))

/-- What E1 takes of the image into the encore's registers. -/
def imageFound (d : Dev) : Dev :=
  { d with
    enc := { d.enc with
      located := true, kind := encoreKind d, exposed := exposedBlocks d, mismatch := sealsDiffer d
      shortFallback := d.chp.sealRetained && !(encoreKind d = 2 || encoreKind d = 4)
      bookOk := maskOf ((readBlocks d).filter (fun b => (newestBookOf d b).isSome)) }
    fns := Tab.mapVals (fun (f : FnSt) => { f with restored := false, keyPending := false, keyArrival := 0 }) d.fns }

/-- The image found, a difference of the seals told, and E1 noted. -/
def imageNoted (d : Dev) : Dev :=
  encMilestone 1 (if sealsDiffer d then postEvent 0x0C 0 (bookSeals d) (imageFound d) else imageFound d)

/-- The cache DRAM and what the device knows of its content are given up. -/
def contentForgotten (d : Dev) : Dev := { d with
  pages := [], exts := [], idx := { d.idx with leftOut := [] }, drc := { d.drc with poison := [] }
  fns := Tab.mapVals (fun (f : FnSt) => { f with segs := [], respreads := [] }) d.fns
  int := { d.int with pendingGranules := [] }, chp := { d.chp with sealRetained := false } }

theorem imageLocated_runs {d : Dev} (m : List Host.Cell) (hm : d.chp.mode = .encore) (hl : d.enc.located = false) :
    imageLocated (d, m)
      = if (imageNoted d).enc.short then (imageNoted d, m) else (contentForgotten (imageNoted d), []) :=
  if_neg (by simp [hm, hl])

theorem chp_enc_imageNoted (d : Dev) : (imageNoted d).chp = d.chp
    ∧ (imageNoted d).enc = { (imageFound d).enc with msHt := Tab.set d.enc.msHt 1 d.tmb.ht } := by
  have told : (imageFound d).Reports
      (if sealsDiffer d then postEvent 0x0C 0 (bookSeals d) (imageFound d) else imageFound d) := by
    split
    · exact reports_postEvent ..
    · exact .refl _
  rw [imageNoted, chp_encMilestone, enc_encMilestone, told.chp_eq, told.enc_eq, told.tmb_eq]
  exact ⟨rfl, rfl⟩

theorem imageLocated_spec {d : Dev} (m : List Host.Cell) (hm : d.chp.mode = .encore) (hl : d.enc.located = false) :
    (imageLocated (d, m)).1.enc.located = true ∧ (imageLocated (d, m)).1.enc.kind = encoreKind d
      ∧ (imageLocated (d, m)).1.chp.mode = .encore
      ∧ (imageLocated (d, m)).2 = (if encoreKind d = 2 ∨ encoreKind d = 4 then m else [])
      ∧ (encoreKind d ≠ 2 → encoreKind d ≠ 4 →
          (imageLocated (d, m)).1.pages = [] ∧ (imageLocated (d, m)).1.exts = []) := by
  have run := imageLocated_runs m hm hl
  obtain ⟨chp, enc⟩ := chp_enc_imageNoted d
  have mode : (imageNoted d).chp.mode = .encore := by rw [chp, hm]
  have located : (imageNoted d).enc.located = true := by rw [enc]; rfl
  have kind : (imageNoted d).enc.kind = encoreKind d := by rw [enc]; rfl
  have short : (imageNoted d).enc.short = true ↔ encoreKind d = 2 ∨ encoreKind d = 4 := by simp [Enc.short, kind]
  by_cases hs : (imageNoted d).enc.short = true
  · rw [run, if_pos hs, if_pos (short.mp hs)]
    exact ⟨located, kind, mode, rfl, fun h2 h4 => absurd (short.mp hs) (by simp [h2, h4])⟩
  · rw [run, if_neg hs, if_neg (mt short.mpr hs)]
    exact ⟨located, kind, mode, rfl, fun _ _ => ⟨rfl, rfl⟩⟩

/-! ### E2: headers scanned (R64, R136) -/

/-- A function's sequence resumes above what the image holds of it (R64). -/
def seqResumed (d : Dev) (f : Nat) : Dev :=
  if (getFn d f).seqNext = resumeSeq d f then d else updFn f (fun s => { s with seqNext := resumeSeq d f }) d

/-- Every counter and every sequence resumed. -/
def resumedAll (d : Dev) : Dev := fnNumbers.foldl seqResumed ((List.range 64).foldl resumeNonce d)

/-- The log of every block that is not held out is known, and the encore's registers tell what was scanned. -/
def scanNoted (d : Dev) : Dev := { d with
  blk := Tab.mapVals (fun (k : Blk) => if k.heldOut then k else { k with logKnown := true })
    ((blockList d).map (fun b => (b, getBlk d b)))
  enc := { d.enc with
    scanned := true, orderStore := [], newestHt := imageNewest d
    sealHt := ((newestBook d).map Book.sealHt).getD 0
    records := min (2 ^ 32 - 1) (d.flash.records.filter (scanned d)).length } }

theorem resumeSeq_resumeNonce (d : Dev) (s f : Nat) : resumeSeq (resumeNonce d s) f = resumeSeq d f := by
  unfold resumeNonce
  (repeat' split) <;> rfl

theorem resumeSeq_seqResumed (d : Dev) (g f : Nat) : resumeSeq (seqResumed d g) f = resumeSeq d f := by
  unfold seqResumed
  split <;> rfl

theorem seqNext_seqResumed (d : Dev) (g f : Nat) :
    (getFn (seqResumed d g) f).seqNext = if g = f then resumeSeq d f else (getFn d f).seqNext := by
  unfold seqResumed
  split
  · next h =>
    split
    · next hg => rw [← hg, h]
    · rfl
  · rw [getFn_updFn]
    split
    · next hg => rw [hg]
    · rfl

/-- The sequences resume on what the image tells, which resuming one of them leaves alone. -/
theorem seqNext_resumedAll {f : Nat} (hf : f ∈ fnNumbers) (d : Dev) :
    (getFn (resumedAll d) f).seqNext = resumeSeq d f := by
  have image : resumeSeq ((List.range 64).foldl resumeNonce d) f = resumeSeq d f :=
    List.foldlRecOn (motive := fun e => resumeSeq e f = resumeSeq d f) _ _ rfl
      fun e he s _ => (resumeSeq_resumeNonce ..).trans he
  refine (foldl_reaches (I := fun e => resumeSeq e f = resumeSeq d f)
    (Q := fun e => resumeSeq e f = resumeSeq d f ∧ (getFn e f).seqNext = resumeSeq d f)
    (fun e g he => (resumeSeq_seqResumed ..).trans he) (fun e g he => ?_) (fun e he => ?_) hf image).2
  · obtain ⟨seq, next⟩ := he
    refine ⟨(resumeSeq_seqResumed ..).trans seq, ?_⟩
    rw [seqNext_seqResumed, seq, next, ite_self]
  · exact ⟨(resumeSeq_seqResumed ..).trans he, by rw [seqNext_seqResumed, if_pos rfl, he]⟩

/-- The blocks and the board that they stand on. -/
def Dev.layout (d : Dev) : Tab Blk × Board := (d.blk, d.board)

theorem layout_resumedAll (d : Dev) : (resumedAll d).layout = d.layout := by
  have nonce (e : Dev) (s : Nat) : (resumeNonce e s).layout = e.layout := by
    unfold resumeNonce
    (repeat' split) <;> rfl
  have seq (e : Dev) (f : Nat) : (seqResumed e f).layout = e.layout := by
    unfold seqResumed
    split <;> rfl
  have nonces : ((List.range 64).foldl resumeNonce d).layout = d.layout :=
    List.foldlRecOn (motive := fun e : Dev => e.layout = d.layout) _ _ rfl fun e he s _ => (nonce e s).trans he
  exact List.foldlRecOn (motive := fun e : Dev => e.layout = d.layout) _ _ nonces fun e he f _ => (seq e f).trans he

/-- A table of what a function gives of the entries listed. -/
theorem tab_get_mapVals_map {α : Type} (dflt : α) (g : α → α) (v : Nat → α) {l : List Nat} {b : Nat} (hb : b ∈ l) :
    Tab.get dflt (Tab.mapVals g (l.map (fun b => (b, v b)))) b = g (v b) := by
  induction l with
  | nil => cases hb
  | cons a l ih =>
    by_cases h : a = b
    · simp [Tab.mapVals, Tab.get, h]
    · simpa [Tab.mapVals, Tab.get, h] using ih ((List.mem_cons.mp hb).resolve_left (Ne.symm h))

theorem logKnown_scanNoted {d : Dev} {b : Nat} (hb : b < d.board.blocks) (hh : (getBlk d b).heldOut = false) :
    (getBlk (scanNoted d) b).logKnown = true := by
  have listed : getBlk (scanNoted d) b
      = if (getBlk d b).heldOut then getBlk d b else { getBlk d b with logKnown := true } :=
    tab_get_mapVals_map ({} : Blk) (fun k => if k.heldOut then k else { k with logKnown := true }) (getBlk d)
      (mem_blockList.mpr hb)
  rw [listed, hh]
  rfl

theorem headersScanned_runs {d : Dev} (hm : d.chp.mode = .encore) (hl : d.enc.located = true)
    (hs : d.enc.scanned = false) :
    ∃ e, e = resumedAll d ∧ headersScanned d = encMilestone 2 (scanNoted e) := by
  unfold headersScanned
  rw [if_neg (by simp [hm, hl, hs])]
  extract_lets nonces e
  have he : e = resumedAll d := rfl
  clear_value e
  exact ⟨e, he, rfl⟩

theorem headersScanned_spec {d : Dev} (hm : d.chp.mode = .encore) (hl : d.enc.located = true)
    (hs : d.enc.scanned = false) : (headersScanned d).enc.scanned = true
      ∧ (∀ f, 1 ≤ f → f ≤ 63 → (getFn (headersScanned d) f).seqNext = resumeSeq d f)
      ∧ (∀ b, b < d.board.blocks → (getBlk d b).heldOut = false →
          (getBlk (headersScanned d) b).logKnown = true) := by
  obtain ⟨e, he, run⟩ := headersScanned_runs hm hl hs
  have seq {f : Nat} (hf : f ∈ fnNumbers) := seqNext_resumedAll hf d
  have layout := layout_resumedAll d
  rw [← he] at seq layout
  obtain ⟨blk, board⟩ := Prod.mk.inj layout
  have noted := reports_encMilestone 2 (scanNoted e)
  rw [run]
  refine ⟨congrArg Enc.scanned noted.enc_eq, fun f h g => ?_, fun b hb hh => ?_⟩
  · exact (seqNext_of_reports noted f).trans (seq (mem_fnNumbers.mpr ⟨h, g⟩))
  · rw [noted.getBlk_eq]
    refine logKnown_scanNoted (d := e) (by rwa [board]) ?_
    rwa [getBlk, blk]

/-! ### E3: the winners (R137 to R143, R385) -/

section
variable {q : Facet}

theorem facet_enterExtent (x : Extent) (d : Dev) : (enterExtent x d).2.facet q = d.facet q := by
  simp only [enterExtent]
  split
  · split <;> rfl
  · rfl

theorem facet_enterLegacy (x : Extent) (d : Dev) : (enterLegacy x d).facet q = d.facet q := by
  unfold enterLegacy
  (repeat' split) <;> rfl

theorem facet_placeWinner (hq : q ≠ .pages) (rs : List Rec) (d : Dev) (p : Nat) :
    (placeWinner rs d p).facet q = d.facet q := by
  simp only [placeWinner]
  (repeat' split) <;> simp [hq, facet_enterExtent, facet_enterLegacy]

theorem facet_rangeReport (b first last bytes : Nat) (fs : List Nat) (d : Dev) :
    (rangeReport b first last bytes fs d).facet q = d.facet q := by
  simp [rangeReport]

theorem facet_resolveEntry (hq : q ≠ .pages) (rs : List Rec) (head : Rec) (l : CallList) (d : Dev) (e : ListEntry) :
    (resolveEntry rs head l d e).facet q = d.facet q := by
  unfold resolveEntry
  (repeat' split) <;> simp [hq, addEntry]

theorem facet_resolveList (hq : q ≠ .pages) (rs : List Rec) (d : Dev) (e : Rec × CallList) :
    (resolveList rs d e).facet q = d.facet q := by
  simp [resolveList, facet_resolveEntry, facet_rangeReport, hq]

end

/-- A function's state after E3 is settled. -/
def settleFn (d : Dev) (f : Nat) : Dev :=
  let wait := waitsKey d f
  let d := updFn f (fun s => { s with keyPending := wait, restored := !wait && !toRestore d f }) d
  if d.enc.short && (getFn d f).restored && d.exts.any (fun x => x.fn = f) then postEvent 9 f [f] d else d

theorem settleFns_eq (d : Dev) : settleFns d = fnNumbers.foldl settleFn d := rfl

theorem encoreMarks_settleFn (d : Dev) (g f : Nat) : (getFn (settleFn d g) f).encoreMarks = if g = f then
    (!waitsKey d f && !toRestore d f, waitsKey d f, (getFn d f).seqNext) else (getFn d f).encoreMarks := by
  have set : (getFn (updFn g (fun s => { s with
      keyPending := waitsKey d g, restored := !waitsKey d g && !toRestore d g }) d) f).encoreMarks
      = if g = f then (!waitsKey d f && !toRestore d f, waitsKey d f, (getFn d f).seqNext)
        else (getFn d f).encoreMarks := by
    rw [getFn_updFn]
    split
    · next h => rw [h]; rfl
    · rfl
  refine Eq.trans ?_ set
  unfold settleFn
  dsimp only
  split
  · exact encoreMarks_of_reports (reports_postEvent ..) f
  · rfl

/-- A function restored waits for no key. -/
def FnSt.restoredFree (s : FnSt) : Prop := ¬(s.restored = true ∧ s.keyPending = true)

theorem restoredFree_of_marks {s k : FnSt} (h : s.encoreMarks = k.encoreMarks) (hk : k.restoredFree) :
    s.restoredFree := by
  simp only [FnSt.encoreMarks, Prod.mk.injEq] at h
  obtain ⟨restored, waits, -⟩ := h
  rwa [FnSt.restoredFree, restored, waits]

theorem restoredFree_settleFn_self (d : Dev) (f : Nat) : (getFn (settleFn d f) f).restoredFree := by
  have marks := encoreMarks_settleFn d f f
  simp only [if_true, FnSt.encoreMarks, Prod.mk.injEq] at marks
  obtain ⟨restored, waits, -⟩ := marks
  simp only [FnSt.restoredFree, restored, waits, Bool.and_eq_true, Bool.not_eq_true']
  rintro ⟨⟨free, -⟩, pending⟩
  rw [free] at pending
  cases pending

theorem restoredFree_settleFns {f : Nat} (hf : f ∈ fnNumbers) (d : Dev) : (getFn (settleFns d) f).restoredFree := by
  rw [settleFns_eq]
  refine foldl_reaches (I := fun _ => True) (Q := fun e => (getFn e f).restoredFree) (fun _ _ _ => trivial)
    (fun e g he => ?_) (fun e _ => restoredFree_settleFn_self e f) hf trivial
  by_cases h : g = f
  · rw [h]
    exact restoredFree_settleFn_self e f
  · exact restoredFree_of_marks ((encoreMarks_settleFn e g f).trans (if_neg h)) he

/-- The winners placed, the lists resolved and the exposed blocks reported (R137 to R143, R385). -/
def winnersFound (d : Dev) : Dev :=
  let rs := claims d
  let d := if d.enc.short then d else (namedPages d rs).foldl (placeWinner rs) d
  let d : Dev := (unretired d).foldl (resolveList rs) d
  prune (d.enc.exposed.foldl (fun d e => rangeReport e.1 e.2.1 e.2.1 (2 ^ 64 - 1) (maskFns e.2.2) d) d)

/-- The registers of E3, by the heads that took part. -/
def winnersNoted (rs : List Rec) (d : Dev) : Dev :=
  let es := extentEntries d rs
  let d : Dev := { d with enc := { d.enc with
    chosen := true, order := es ++ d.enc.order
    unackWrites := if d.enc.short then [] else d.enc.unackWrites
    unnamed := (blockList d).any (fun b => unnamedOf d b ≠ [])
    untrusted := (es.filter (fun (e : OrderEntry) => e.status = stUntrusted)).length
    total := pageBytes * (d.pages.filter (fun (e : Nat × Page) => e.2.restorePend)).length } }
  let d : Dev := { d with enc := { d.enc with extents := (runEntries d).length } }
  if d.enc.kind = 3 then unsealedRegs d else d

theorem winnersChosen_runs {d : Dev} (hm : d.chp.mode = .encore) (hs : d.enc.scanned = true)
    (hc : d.enc.chosen = false) :
    winnersChosen d = encMilestone 3 (settleFns (winnersNoted (claims d) (winnersFound d))) :=
  if_neg (by simp [hm, hs, hc])

theorem chp_winnersFound (d : Dev) : (winnersFound d).chp = d.chp := by
  refine chp_eq_of_facet ?_
  simp [winnersFound, facet_placeWinner, facet_resolveList, facet_rangeReport]

theorem chp_winnersNoted (rs : List Rec) (d : Dev) : (winnersNoted rs d).chp = d.chp := by
  simp only [winnersNoted]
  split <;> rfl

theorem chosen_winnersNoted (rs : List Rec) (d : Dev) : (winnersNoted rs d).enc.chosen = true := by
  simp only [winnersNoted]
  split <;> rfl

theorem chp_settleFns (d : Dev) : (settleFns d).chp = d.chp := by
  refine chp_eq_of_facet ?_
  simp [settleFns]

theorem winnersChosen_spec {d : Dev} (hm : d.chp.mode = .encore) (hs : d.enc.scanned = true)
    (hc : d.enc.chosen = false) : (winnersChosen d).enc.chosen = true ∧ (winnersChosen d).chp.mode = .encore
      ∧ ∀ f, 1 ≤ f → f ≤ 63 → (getFn (winnersChosen d) f).restoredFree := by
  have run := winnersChosen_runs hm hs hc
  have chp := (chp_settleFns _).trans ((chp_winnersNoted (claims d) _).trans (chp_winnersFound d))
  have chosen := (congrArg Enc.chosen (part_settleFns (q := .enc) _)).trans
    (chosen_winnersNoted (claims d) (winnersFound d))
  have free {f : Nat} (hf : f ∈ fnNumbers) := restoredFree_settleFns hf (winnersNoted (claims d) (winnersFound d))
  generalize settleFns (winnersNoted (claims d) (winnersFound d)) = e at run chp chosen free
  rw [run]
  refine ⟨?_, ?_, fun f h g => ?_⟩
  · rw [enc_encMilestone]
    exact chosen
  · rw [chp_encMilestone, chp, hm]
  · exact restoredFree_of_marks (encoreMarks_of_reports (reports_encMilestone 3 e) f)
      (free (mem_fnNumbers.mpr ⟨h, g⟩))

end Sys2Proof.Machine
end

section
/-!
PROOFS. The restoration of an encore, function by function and block by block (R144 to R146).
-/

namespace Sys2Proof.Machine

/-! ### E4: a function restored (R144, R145) -/

section
variable {q : Facet}

theorem facet_openLaid (hq : q ≠ .flash ∧ q ≠ .staged) (id : Nat) (d : Dev) : (openLaid id d).facet q = d.facet q := by
  unfold openLaid
  (repeat' split) <;> simp [hq]

theorem facet_senseCopies (hq : q ≠ .flash ∧ q ≠ .staged) (n id : Nat) (d : Dev) :
    (senseCopies n id d).facet q = d.facet q := by
  induction n generalizing d with
  | zero => rfl
  | succ n ih =>
    unfold senseCopies
    dsimp only
    split
    · exact facet_openLaid hq id d
    · simp [ih, facet_openLaid, hq]

theorem facet_writeUnack (hq : q ≠ .poison) (id : Nat) (p : Dev × List Host.Cell) :
    (writeUnack id p).1.facet q = p.1.facet q := by
  simp only [writeUnack]
  split <;> simp [hq]

/-- `facet_foldl` for a fold that carries the cache DRAM beside the device. -/
theorem facet_foldl_fst {α β : Type} {f : Dev × β → α → Dev × β} (hf : ∀ r a, (f r a).1.facet q = r.1.facet q)
    (l : List α) (r : Dev × β) : (l.foldl f r).1.facet q = r.1.facet q := by
  induction l generalizing r with
  | nil => rfl
  | cons a l ih => rw [List.foldl_cons, ih, hf]

end

/-- A function's pages back in the cache DRAM from their records, each of which is sensed first. -/
def pagesReloaded (f : Nat) (d : Dev) (m : List Host.Cell) : Dev × List Host.Cell :=
  (pendingPages d f).foldl (fun p e => reloadPage e p)
    ((recordsOf (pendingPages d f) ++ (d.enc.unackWrites.filter (fun u => u.1 = f)).map Prod.snd).foldl
      (fun d id => senseCopies 2 id d) d, m)

/-- A function's pages wait no more. -/
def pagesBack (f : Nat) (d : Dev) (m : List Host.Cell) : Dev :=
  updPages ((pendingPages d f).map Prod.fst) (fun g => { g with restorePend := false }) (pagesReloaded f d m).1

/-- A function is restored. -/
def fnBack (f : Nat) (d : Dev) : Dev := updFn f (fun s => { s with restored := true }) d

theorem restored_fnBack (f : Nat) (d : Dev) : (getFn (fnBack f d) f).restored = true := by
  rw [fnBack, getFn_updFn, if_pos rfl]

theorem restoreFn_runs {f : Nat} {d : Dev} (m : List Host.Cell) (hc : d.enc.chosen = true)
    (hn : nextRestore d = some f)
    (hm : d.chp.mode = .encore ∨ d.chp.mode = .reconcile ∨ d.chp.mode.settled = true) :
    ∃ e : Dev, e.pages = (pagesBack f d m).pages ∧ (restoreFn f (d, m)).1
      = refreshStatus (postEvent 9 f [f] (encMilestone 4 (fnBack f e))) := by
  have flows : d.chp.mode ≠ .curtain ∧ d.chp.mode ≠ .sealed ∧ d.chp.mode ≠ .dark ∧ d.chp.mode ≠ .intermission
      ∧ d.chp.mode ≠ .boot ∧ d.chp.mode ≠ .service := by
    cases h : d.chp.mode <;> simp_all [Mode.settled]
  unfold restoreFn
  dsimp only
  rw [if_neg (by simp [hc, hn, flows])]
  generalize List.range 64 = slots
  refine ⟨_, ?_, rfl⟩
  have pages_eq {a b : Dev} (h : a.facet .pages = b.facet .pages) : a.pages = b.pages := h
  have unack := facet_foldl_fst (fun r id => facet_writeUnack (q := .pages) nofun id r)
  refine pages_eq ((facet_foldl (fun e s => ?_) _ _).trans ((facet_foldl (fun e b => facet_countBlk ..) _ _).trans
    ((facet_foldl (fun e id => ?_) _ _).trans (unack _ _))))
  · split <;> rfl
  · split
    · exact facet_countCell ..
    · rfl

/-- Whose a page is, and whether it waits for its E4. -/
def Page.waits (g : Page) : Nat × Bool := (g.fn, g.restorePend)

theorem waits_reloadPage (e : Nat × Page) (r : Dev × List Host.Cell) (p : Nat) :
    (getPage (reloadPage e r).1 p).waits = (getPage r.1 p).waits := by
  unfold reloadPage
  dsimp only
  split
  · rfl
  · next sensed _ =>
    have marked := getPage_updPage e.1 (fun g => { g with untrusted := g.untrusted || !sensed.reads r.1 }) r.1 p
    refine (congrArg Page.waits marked).trans ?_
    split
    · next h => rw [h]; rfl
    · rfl

theorem waits_pagesReloaded (f : Nat) (d : Dev) (m : List Host.Cell) (p : Nat) :
    (getPage (pagesReloaded f d m).1 p).waits = (getPage d p).waits := by
  have sensed (ids : List Nat) : (ids.foldl (fun d id => senseCopies 2 id d) d).pages = d.pages :=
    facet_foldl (q := .pages) (fun e id => facet_senseCopies (by simp) 2 id e) ids d
  refine List.foldlRecOn (motive := fun r : Dev × List Host.Cell => (getPage r.1 p).waits = (getPage d p).waits) _ _
    ?_ fun r hr e _ => (waits_reloadPage ..).trans hr
  rw [getPage, sensed, getPage]

/-- An index that reads other than the default is listed, with what it reads. -/
theorem tab_mem_of_get_ne {α : Type} {dflt : α} {t : Tab α} {k : Nat} (h : Tab.get dflt t k ≠ dflt) :
    (k, Tab.get dflt t k) ∈ t := by
  induction t with
  | nil => exact absurd rfl h
  | cons e t ih =>
    obtain ⟨i, v⟩ := e
    unfold Tab.get at h ⊢
    split
    · next hi => rw [hi]; exact List.mem_cons_self
    · next hi => exact List.mem_cons_of_mem _ (ih (by rwa [if_neg hi] at h))

theorem mem_pendingPages {d : Dev} {f p : Nat} (hf : (getPage d p).fn = f) (hw : (getPage d p).restorePend = true) :
    (p, getPage d p) ∈ pendingPages d f := by
  have listed : (p, getPage d p) ∈ d.pages := tab_mem_of_get_ne fun h => by
    change getPage d p = {} at h
    rw [h] at hw
    cases hw
  simp [pendingPages, listed, hf, hw]

/-- A page of a list waits no more; every other one reads as before. -/
theorem getPage_waitsEnded (ps : List Nat) (d : Dev) (p : Nat) :
    getPage (updPages ps (fun g => { g with restorePend := false }) d) p
      = if p ∈ ps then { getPage d p with restorePend := false } else getPage d p := by
  unfold updPages
  induction ps generalizing d with
  | nil => rfl
  | cons k ps ih =>
    rw [List.foldl_cons, ih, getPage_updPage]
    by_cases hk : k = p
    · simp [hk]
    · simp [hk, Ne.symm hk]

theorem restorePend_pagesBack {f p : Nat} {d : Dev} {m : List Host.Cell} (h : (getPage (pagesBack f d m) p).fn = f) :
    (getPage (pagesBack f d m) p).restorePend = false := by
  rw [pagesBack, getPage_waitsEnded] at h ⊢
  split at h
  · next listed => rw [if_pos listed]
  · next unlisted =>
    rw [if_neg unlisted]
    obtain ⟨fn, waits⟩ := Prod.mk.inj (waits_pagesReloaded f d m p)
    rw [fn] at h
    rw [waits]
    by_contra pending
    exact unlisted (List.mem_map.mpr ⟨_, mem_pendingPages h (by simpa using pending), rfl⟩)

theorem restoreFn_spec {f : Nat} {d : Dev} (m : List Host.Cell) (hc : d.enc.chosen = true)
    (hn : nextRestore d = some f)
    (hm : d.chp.mode = .encore ∨ d.chp.mode = .reconcile ∨ d.chp.mode.settled = true) :
    (getFn (restoreFn f (d, m)).1 f).restored = true
      ∧ ∀ p, (getPage (restoreFn f (d, m)).1 p).fn = f → (getPage (restoreFn f (d, m)).1 p).restorePend = false := by
  obtain ⟨e, pages, run⟩ := restoreFn_runs m hc hn hm
  have noted := (reports_encMilestone 4 (fnBack f e)).trans (reports_postEvent 9 f [f] _)
  have told (a : Dev) : (refreshStatus a).fns = a.fns ∧ (refreshStatus a).pages = a.pages := by
    unfold refreshStatus
    split <;> exact ⟨rfl, rfl⟩
  obtain ⟨fns, kept⟩ := told (postEvent 9 f [f] (encMilestone 4 (fnBack f e)))
  rw [← run] at fns kept
  refine ⟨?_, fun p => ?_⟩
  · rw [getFn, fns]
    exact (restored_of_reports noted f).trans (restored_fnBack f e)
  · rw [getPage, kept, noted.pages_eq]
    show (Tab.get {} e.pages p).fn = f → (Tab.get {} e.pages p).restorePend = false
    rw [pages]
    exact restorePend_pagesBack

/-! ### E5: a block restored (R146) -/

/-- `e` is `d` with the encore's registers changed and reports added. -/
def Dev.EncOnly (d e : Dev) : Prop := Dev.Reports { d with enc := e.enc } e

theorem Dev.EncOnly.trans {d e a : Dev} (h : d.EncOnly e) (g : e.EncOnly a) : d.EncOnly a :=
  ⟨g.bare.trans (congrArg (fun x : Dev => { x with enc := a.enc }) h.bare), fun f => (g.fns f).trans (h.fns f)⟩

theorem encOnly_enc (d : Dev) (enc : Enc) : d.EncOnly { d with enc } := .refl _

theorem Dev.Reports.encOnly {d e : Dev} (h : d.Reports e) : d.EncOnly e := by
  have enc : e.enc = d.enc := h.enc_eq
  unfold Dev.EncOnly
  rw [enc]
  exact h

theorem blockRestored_spec {b : Nat} {d : Dev} (hm : d.chp.mode = .encore) (hc : d.enc.chosen = true)
    (hb : (readBlocks d).contains b = true) (hd : d.enc.blockDone.contains b = false) (hr : blockReady d b = true) :
    (blockRestored b d).enc.blockDone = b :: d.enc.blockDone ∧ d.EncOnly (blockRestored b d) := by
  have noted (a c : Nat) := reports_trace 0x035 79 a c { d with enc := { d.enc with
    blockDone := b :: d.enc.blockDone } }
  have only (a c : Nat) := (encOnly_enc d _).trans (noted a c).encOnly
  unfold blockRestored
  rw [if_neg (by simp only [hm, hc, hb, hd, hr]; decide)]
  dsimp only
  split
  · exact ⟨congrArg Enc.blockDone (noted ..).enc_eq, (only ..).trans (encOnly_enc ..)⟩
  · exact ⟨congrArg Enc.blockDone (noted ..).enc_eq, only ..⟩

end Sys2Proof.Machine
end

section
/-!
PROOFS. The end of an encore and reconcile (R149 to R154, rows 14 and 15 of Table 2.3; O38).
-/

namespace Sys2Proof.Machine

/-! ### E6: RECONCILE entered (R149, row 14) -/

theorem sends_sendSummary (d : Dev) : d.Sends (sendSummary d) := by
  unfold sendSummary
  split
  · exact sends_sendOn ..
  · exact .refl d

theorem Dev.Sends.chp_eq {d e : Dev} (h : d.Sends e) : e.chp = d.chp := h.keep Dev.chp (fun _ => rfl) (by intros; rfl)

theorem chp_raiseHt (d : Dev) : (raiseHt d).chp = d.chp := by
  unfold raiseHt
  dsimp only
  split
  · exact (reports_stepForward ..).chp_eq
  · rfl

theorem chp_tryC2 (d : Dev) : (tryC2 d).chp = d.chp := by
  unfold tryC2
  split
  · rfl
  · dsimp only
    split
    · exact (sends_sendKeyFrames ..).chp_eq.trans (reports_trace ..).chp_eq
    · exact (reports_trace ..).chp_eq

/-- The entry to RECONCILE. -/
def reconciling (d : Dev) : Dev :=
  transition .reconcile 0x03 { d with chp := { d.chp with sealRetained := false } }

theorem chp_reconciling (d : Dev) : (reconciling d).chp.mode = .reconcile ∧ (reconciling d).chp.cause = 0x03
    ∧ (reconciling d).chp.sealRetained = false := by
  rw [reconciling, (reports_transition ..).chp_eq]
  exact ⟨rfl, rfl, rfl⟩

/-- Row 14. -/
theorem encoreComplete_spec {d : Dev} (hm : d.chp.mode = .encore) (hc : d.enc.chosen = true)
    (hd : d.enc.short = true ∨ (readBlocks d).all (fun b => d.enc.blockDone.contains b) = true) :
    (encoreComplete d).chp.mode = .reconcile ∧ (encoreComplete d).chp.cause = 0x03
      ∧ (encoreComplete d).chp.sealRetained = false := by
  have guard : (d.enc.short || (readBlocks d).all (fun b => d.enc.blockDone.contains b)) = true := by
    rwa [Bool.or_eq_true]
  have run : encoreComplete d = tryC2 (raiseHt (sendSummary (rcnMilestone 1
      (countChip 15 1 (recomputeNow (reconciling (encMilestone 6 d))))))) :=
    if_neg (by simp only [hm, hc, guard]; decide)
  have entered := chp_reconciling (encMilestone 6 d)
  generalize reconciling (encMilestone 6 d) = e at run entered
  rw [run, chp_tryC2, chp_raiseHt, (sends_sendSummary _).chp_eq, chp_rcnMilestone, (reports_countChip ..).chp_eq,
    chp_recomputeNow_idle (by rw [entered.1]; rfl) (by rw [entered.1]; nofun)]
  exact entered

/-! ### Reconcile: the order (R150) -/

theorem mergeLocal_spec (unmerged : Bool) (d : Dev) : (mergeLocal unmerged d).chp = d.chp
    ∧ (mergeLocal unmerged d).enc.merged = !unmerged ∧ (mergeLocal unmerged d).enc.unmerged = unmerged
    ∧ (mergeLocal unmerged d).enc.timedOut = d.enc.timedOut := by
  unfold mergeLocal
  dsimp only
  rw [chp_rcnMilestone, enc_rcnMilestone]
  exact ⟨rfl, rfl, rfl, rfl⟩

theorem mergeAll_spec (d : Dev) : (mergeAll d).enc.merged = true ∧ (mergeAll d).enc.timedOut = d.enc.timedOut := by
  unfold mergeAll
  extract_lets whole all devs placed left sent told
  have enc_sent : sent.enc = placed.enc :=
    part_foldl (q := .enc) (fun e i => part_sendResults ..) devs placed
  have enc_told : told.enc = sent.enc := by
    show Dev.part (if devs = [] then sent else _) .enc = sent.part .enc
    split
    · rfl
    · exact part_sendDown ..
  rw [enc_rcnMilestone]
  refine ⟨rfl, ?_⟩
  show told.enc.timedOut = d.enc.timedOut
  rw [enc_told, enc_sent]
  rfl

theorem mode_of_rcnOpen {d : Dev} (h : rcnOpen d = true) : d.chp.mode = .reconcile := by
  simp only [rcnOpen, Bool.and_eq_true, decide_eq_true_eq] at h
  obtain ⟨⟨mode, -⟩, -⟩ := h
  exact mode

theorem mergeComplete_standalone {d : Dev} (ho : rcnOpen d = true) (h2 : Tab.get 0 d.enc.rcnHt 2 ≠ 0)
    (hr : d.hrk.role = 0) : mergeComplete d = mergeLocal false d := by
  unfold mergeComplete
  rw [if_neg (by simp [ho, h2]), if_pos hr]

/-- The timeout of reconcile, marked. -/
def timeoutMarked (d : Dev) : Dev := { d with enc := { d.enc with timedOut := true } }

theorem reconcileTimeout_runs {d : Dev} (ho : rcnOpen d = true) : reconcileTimeout d =
    if d.hrk.role = 0 then mergeLocal false (timeoutMarked d)
    else if d.hrk.lead && !d.hrk.waitResponses then mergeAll (timeoutMarked d)
    else mergeLocal true (timeoutMarked d) :=
  if_neg (by simp [ho])

theorem reconcileTimeout_spec {d : Dev} (ho : rcnOpen d = true) : (reconcileTimeout d).enc.timedOut = true
    ∧ ((reconcileTimeout d).enc.merged = true ∨ (reconcileTimeout d).enc.unmerged = true) := by
  rw [reconcileTimeout_runs ho]
  split
  · obtain ⟨-, merged, -, out⟩ := mergeLocal_spec false (timeoutMarked d)
    exact ⟨out, .inl merged⟩
  split
  · obtain ⟨merged, out⟩ := mergeAll_spec (timeoutMarked d)
    exact ⟨out, .inl merged⟩
  · obtain ⟨-, -, unmerged, out⟩ := mergeLocal_spec true (timeoutMarked d)
    exact ⟨out, .inr unmerged⟩

/-! ### Reconcile: the order store (R151, R154, row 15) -/

theorem writeLossNotes_spec (d : Dev) : (writeLossNotes d).chp = d.chp
    ∧ (writeLossNotes d).enc = { d.enc with lossNotes := [] } := by
  unfold writeLossNotes
  extract_lets written
  have chp : written.facet .chp = d.facet .chp := by
    refine facet_foldl (fun e n => ?_) _ _
    split <;> simp
  have enc : written.part .enc = d.part .enc := by
    refine part_foldl (fun e n => ?_) _ _
    split <;> simp
  exact ⟨chp, congrArg (fun e : Enc => { e with lossNotes := [] }) enc⟩

theorem chp_retireLists (ids : List Nat) (d : Dev) : (retireLists ids d).chp = d.chp := by
  refine chp_eq_of_facet (facet_foldl (fun e id => ?_) ids d)
  split <;> simp

/-- The order is stored (C4) and C5 noted, and what a cell failure took of the held pages counts again. -/
def orderNoted (d : Dev) : Dev :=
  recompute (takeRestage (rcnMilestone 5 (rcnMilestone 4 { d with enc := { d.enc with orderStore := d.enc.order } })))

/-- The order is stored, and the settled mode entered. -/
def orderStored (d : Dev) : Dev := enterSettled (if (orderNoted d).enc.timedOut then 0x04 else 0x15) (orderNoted d)

/-- The lists that encore resolved are retired, with the loss notes that they call for. -/
def listsRetired (d : Dev) : Dev := writeLossNotes (retireLists d.enc.resolved d)

/-- Nothing of the lists is left to retire. -/
def listsDropped (d : Dev) : Dev := { d with enc := { d.enc with resolved := [] }, cur := { d.cur with lists := [] } }

theorem orderStore_orderStored (d : Dev) : (orderStored d).enc.orderStore = d.enc.order := by
  have enc : (orderStored d).enc = (rcnMilestone 5 (rcnMilestone 4 { d with enc := { d.enc with
      orderStore := d.enc.order } })).enc :=
    (part_enterSettled (q := .enc) ..).trans ((part_recompute _).trans (part_takeRestage _))
  rw [enc, enc_rcnMilestone, enc_rcnMilestone]

/-- Row 15. -/
theorem orderStoreWritten_runs {d : Dev} (hm : d.chp.mode = .reconcile)
    (ho : d.enc.merged = true ∨ d.enc.unmerged = true) :
    orderStoreWritten d = reevaluate false (sendAllDir (listsDropped (listsRetired (orderStored d)))) := by
  -- One stage at a time, each forgotten once it is named: compared whole they are too deep a term.
  unfold orderStoreWritten
  rw [if_neg (by obtain ho | ho := ho <;> simp [hm, ho])]
  extract_lets _ _ noted stored retired
  have hn : noted = orderNoted d := rfl
  clear_value noted
  have hs : stored = orderStored d := by rw [orderStored, ← hn]
  clear_value stored
  have hr : retired = listsRetired stored := rfl
  clear_value retired
  rw [← hs, ← hr]
  rfl

theorem orderStoreWritten_spec {d : Dev} (hm : d.chp.mode = .reconcile)
    (ho : d.enc.merged = true ∨ d.enc.unmerged = true) : (orderStoreWritten d).chp.mode.settled = true
      ∧ (orderStoreWritten d).enc.orderStore = d.enc.order ∧ (orderStoreWritten d).enc.resolved = [] := by
  have settled : (orderStored d).chp.mode.settled = true := settled_enterSettled ..
  have order := orderStore_orderStored d
  rw [orderStoreWritten_runs hm ho]
  generalize orderStored d = e at settled order
  obtain ⟨chp, enc⟩ := writeLossNotes_spec (retireLists e.enc.resolved e)
  have retired : (retireLists e.enc.resolved e).enc = e.enc := part_retireLists (q := .enc) ..
  have sent := sends_sendAllDir (listsDropped (listsRetired e))
  have kept : (sendAllDir (listsDropped (listsRetired e))).enc = { e.enc with lossNotes := [], resolved := [] } := by
    refine (part_sendAllDir (q := .enc) _).trans ?_
    show { (listsRetired e).enc with resolved := [] } = _
    rw [listsRetired, enc, retired]
  have whole : (reevaluate false (sendAllDir (listsDropped (listsRetired e)))).enc = _ :=
    (part_reevaluate (q := .enc) nofun false _).trans kept
  refine ⟨settled_reevaluate ?_, ?_, ?_⟩
  · rw [sent.chp_eq]
    show (listsRetired e).chp.mode.settled = true
    rw [listsRetired, chp, chp_retireLists, settled]
  · rw [whole, order]
  · rw [whole]

/-- Settles O38: every milestone is its work and then its note; a function's flags and sequence are set by its own
turn of the loop alone, and the pages that wait for a function's E4 are those that its turn brings back. -/
theorem encoreAndReconcile : Obligations.EncoreAndReconcile := by
  refine ⟨fun s hm hl => ?_, fun s hm hl hs => ?_, fun s hm hs hc => ?_, fun f s hc hn hm => ?_,
    fun b s hm hc hb hd hr => ?_, fun s hm hc hd => ?_, fun s ho h2 hr => ?_, fun s ho => ?_, fun s hm ho => ?_⟩
  · obtain ⟨t, run, queue, ran, dram⟩ := onBoth_next imageLocated s
    obtain ⟨located, kind, mode, content, dropped⟩ := imageLocated_spec s.dram hm hl
    rw [← ran] at located kind mode dropped
    exact ⟨t, run, queue, located, kind, mode, dram.trans content, dropped⟩
  · obtain ⟨t, run, only, ran⟩ := onDev_next headersScanned s
    exact ⟨t, run, only, by rw [ran]; exact headersScanned_spec hm hl hs⟩
  · obtain ⟨t, run, only, ran⟩ := onDev_next winnersChosen s
    exact ⟨t, run, only, by rw [ran]; exact winnersChosen_spec hm hs hc⟩
  · obtain ⟨t, run, queue, ran, -⟩ := onBoth_next (restoreFn f) s
    exact ⟨t, run, queue, by rw [ran]; exact restoreFn_spec s.dram hc hn hm⟩
  · obtain ⟨t, run, only, ran⟩ := onDev_next (blockRestored b) s
    exact ⟨t, run, only, by rw [ran]; exact blockRestored_spec hm hc hb hd hr⟩
  · obtain ⟨t, run, only, ran⟩ := onDev_next encoreComplete s
    exact ⟨t, run, only, by rw [ran]; exact encoreComplete_spec hm hc hd⟩
  · obtain ⟨t, run, only, ran⟩ := onDev_next mergeComplete s
    obtain ⟨chp, merged, -, -⟩ := mergeLocal_spec false s.dev
    refine ⟨t, run, only, ?_⟩
    rw [ran, mergeComplete_standalone ho h2 hr, chp]
    exact ⟨merged, mode_of_rcnOpen ho⟩
  · obtain ⟨t, run, only, ran⟩ := onDev_next reconcileTimeout s
    exact ⟨t, run, only, by rw [ran]; exact reconcileTimeout_spec ho⟩
  · obtain ⟨t, run, only, ran⟩ := onDev_next orderStoreWritten s
    exact ⟨t, run, only, by rw [ran]; exact orderStoreWritten_spec hm ho⟩

end Sys2Proof.Machine
end

section
/-!
PROOFS. What a frame changes on its way to the one that takes it (R181, R182), and what a change of the directory leaves
alone.
-/

namespace Sys2Proof.Machine

/-- `e` is `d` with frames sent, acknowledged and passed on, the links and ways that they showed noted, and reports
added. -/
def Dev.Relays (d e : Dev) : Prop := Dev.Reports { d with
  hrk := { d.hrk with
    ports := e.hrk.ports, routes := e.hrk.routes, frameSeq := e.hrk.frameSeq, unacked := e.hrk.unacked
    seenSeqs := e.hrk.seenSeqs, dir := e.hrk.dir }
  freeCtr := e.freeCtr } e

theorem Dev.Relays.trans {d e a : Dev} (h : d.Relays e) (g : e.Relays a) : d.Relays a :=
  ⟨g.bare.trans (congrArg (fun x : Dev => { x with
      hrk := { x.hrk with
        ports := a.hrk.ports, routes := a.hrk.routes, frameSeq := a.hrk.frameSeq, unacked := a.hrk.unacked
        seenSeqs := a.hrk.seenSeqs, dir := a.hrk.dir }
      freeCtr := a.freeCtr }) h.bare),
    fun f => (g.fns f).trans (h.fns f)⟩

/-- What relaying leaves alone. -/
theorem Dev.Relays.keep {α : Type} {d e : Dev} (h : d.Relays e) (f : Dev → α)
    (hf : ∀ d, f d.bare = f d := by intros; rfl)
    (hl : ∀ (d : Dev) ports routes frameSeq unacked seenSeqs dir freeCtr,
      f { d with hrk := { d.hrk with ports, routes, frameSeq, unacked, seenSeqs, dir }, freeCtr } = f d := by
        intros; rfl) : f e = f d :=
  (Dev.Reports.keep h f hf).trans (hl ..)

theorem Dev.Relays.frameOnly {d e : Dev} (h : d.Relays e) : d.FrameOnly e :=
  ⟨h.bare.trans (congrArg (fun k : Hrk => Dev.bare { d with hrk := k, freeCtr := e.freeCtr }) h.hrk_eq.symm), h.fns⟩

theorem Dev.Sends.relays {d e : Dev} (h : d.Sends e) : d.Relays e := by
  have ports : e.hrk.ports = d.hrk.ports := h.keep (·.hrk.ports) (fun _ => rfl) (by intros; rfl)
  have routes : e.hrk.routes = d.hrk.routes := h.keep (·.hrk.routes) (fun _ => rfl) (by intros; rfl)
  unfold Dev.Relays
  rw [ports, routes]
  exact h

theorem Dev.FrameOnly.relays {d e : Dev} (h : d.FrameOnly e)
    (hrk : e.hrk = { d.hrk with ports := e.hrk.ports, routes := e.hrk.routes }) : d.Relays e := by
  have same : { d.hrk with
      ports := e.hrk.ports, routes := e.hrk.routes, frameSeq := e.hrk.frameSeq, unacked := e.hrk.unacked
      seenSeqs := e.hrk.seenSeqs, dir := e.hrk.dir } = e.hrk := by rw [hrk]
  unfold Dev.Relays
  rw [same]
  exact h

section
variable {d : Dev} {q : FrameIn}

/-- A frame that the device takes reaches its taker relayed, and is still no repeat there. -/
theorem routed_heard (hh : heard d q = true) (type : Nat) (payload : List Byte) (f : Dev → Dev) :
    ∃ e, arrive q payload (overTree q (routed q type payload f)) d = f e ∧ d.Relays e
      ∧ (q.ackReq && e.hrk.seenSeqs.contains (q.port, q.src, q.seq)) = false := by
  simp only [heard, Bool.and_eq_true, decide_eq_true_eq, Bool.not_eq_true'] at hh
  obtain ⟨⟨⟨carries, ours⟩, live⟩, unseen⟩ := hh
  obtain ⟨e₁, h₁, arrived⟩ := arrive_carried carries payload (overTree q (routed q type payload f))
  have hrk₁ : e₁.hrk = d.hrk := arrived.hrk_eq
  obtain ⟨e₂, h₂, treed, hrk₂⟩ := overTree_live (d := e₁) (q := q) (by rwa [getPort, hrk₁]) (routed q type payload f)
  obtain ⟨e₃, h₃, routes⟩ := routed_forUs (d := e₂) (q := q) (by rw [forUs, ownIndex, hrk₂, hrk₁]; exact ours)
    type payload f
  have hrk₃ : e₃.hrk = e₂.hrk := routes.hrk_eq
  exact ⟨e₃, h₁.trans (h₂.trans h₃),
    arrived.sends.relays.trans ((treed.relays hrk₂).trans routes.sends.relays), by rw [hrk₃, hrk₂, hrk₁]; exact unseen⟩

/-- A frame that the device takes is dealt with once it is relayed and acknowledged. -/
theorem receive_relays (hh : heard d q = true) (type : Nat) (payload : List Byte) (f : Dev → Dev) :
    ∃ e, receive q type payload f d = f e ∧ d.Relays e := by
  obtain ⟨e, he, relayed, unseen⟩ := routed_heard hh type payload (acked q q.src f)
  obtain ⟨a, ha, acks⟩ := acked_taken unseen f
  exact ⟨a, he.trans ha, relayed.trans acks.relays⟩

end

/-! ### Changes of the directory (R187) -/

theorem sends_sendDir (es : List DirEntry) (d : Dev) : d.Sends (sendDir es d) := by
  have stored : d.Sends (storeDir es d) := Dev.Reports.refl _
  have forwarded (e : Dev) : e.Sends (forwardDir es e) := by
    unfold forwardDir
    split
    · exact sends_sendOn ..
    · exact .refl e
  unfold sendDir
  dsimp only
  (repeat' split)
  · exact .refl d
  · exact stored.trans (forwarded _)
  · exact stored.trans (sends_sendOn ..)
  · exact stored

/-- What changes of a device's entries leave alone. -/
theorem dirChanges_keep {α : Type} (f : Dev → α) (hf : ∀ d, f d.bare = f d)
    (hl : ∀ (d : Dev) frameSeq unacked seenSeqs dir freeCtr,
      f { d with hrk := { d.hrk with frameSeq, unacked, seenSeqs, dir }, freeCtr } = f d)
    (ho : ∀ (d : Dev) ownUpdates, f { d with hrk := { d.hrk with ownUpdates } } = f d) (moved : Nat) (fns : List Nat)
    (d : Dev) : f (fns.foldl (fun d g => dirChanged g moved d) d) = f d := by
  induction fns generalizing d with
  | nil => rfl
  | cons g fns ih => exact (ih _).trans (((sends_sendDir ..).keep f hf hl).trans (ho d _))

end Sys2Proof.Machine
end

section
/-!
PROOFS. Image transfer (R189 to R191, Table 10.7; O56): how one ends, its start at the destination and at the source,
and its frames.
-/

namespace Sys2Proof.Machine

/-! ### The end of a transfer (R191) -/

/-- The device with a transfer over, but for the answer to its command. -/
def xferOver (d : Dev) : Dev := { d with
  svc := { d.svc with xferDone := true }, hrk := { d.hrk with xferKeys := [] }
  chp := { d.chp with sealRetained := false } }

theorem answers_xferComplete (status : Nat) (d : Dev) : (xferOver d).Answers (xferComplete status d) := by
  unfold xferComplete
  dsimp only
  split
  · exact answers_endWith ..
  · exact .refl _

theorem xferIntent_undoTransfer (d : Dev) : (undoTransfer d).flash.xferIntent = none := by
  unfold undoTransfer
  split
  · next closed => exact closed
  · rfl

/-- The device with what a transfer brought erased, where WARN lets an erase start. -/
def xferUndone (d : Dev) : Dev := if d.spw.warn then d else undoTransfer d

theorem xferIntent_xferUndone (d : Dev) :
    (xferUndone d).flash.xferIntent = if d.spw.warn then d.flash.xferIntent else none := by
  unfold xferUndone
  split
  · rfl
  · exact xferIntent_undoTransfer d

theorem endTransfer_spec (status cause : Nat) (d : Dev) : (endTransfer status cause d).hrk.xferState = 5
    ∧ (endTransfer status cause d).hrk.xferCause = cause ∧ (endTransfer status cause d).svc.xferDone = true
    ∧ (endTransfer status cause d).flash.xferIntent = if d.spw.warn then d.flash.xferIntent else none := by
  have answers := answers_xferComplete status
    { xferUndone d with hrk := { (xferUndone d).hrk with xferState := 5, xferCause := cause } }
  exact ⟨congrArg Hrk.xferState answers.hrk_eq, congrArg Hrk.xferCause answers.hrk_eq,
    congrArg Svc.xferDone answers.svc_eq,
    (congrArg Flash.xferIntent answers.flash_eq).trans (xferIntent_xferUndone d)⟩

theorem abortTransfer_running {d : Dev} (h : xferRuns d = true) (status : Nat) :
    (abortTransfer status d).hrk.xferState = 5 := by
  have ended (st cause : Nat) : (endTransfer st cause d).hrk.xferState = 5 := (endTransfer_spec ..).1
  unfold abortTransfer
  split
  · split
    · exact ended ..
    split
    · exact ended ..
    · exact ended ..
  split
  · rfl
  · next notDest notSource => simp_all [xferDest, xferSends]

theorem abortTransfer_idle {d : Dev} (h : xferRuns d = false) (status : Nat) : abortTransfer status d = d := by
  simp [abortTransfer, xferDest, xferSends, h]

/-! ### The command (R189) -/

theorem findDesc_turnAway (x : Desc) (st : Nat) (d : Dev) : findDesc (turnAway x st d) x.handle = none := by
  unfold turnAway
  split <;> exact findDesc_endWith ..

/-- What `begin` hands on to a command of any administrative opcode: a start that turns the descriptor away hands on
nothing. -/
theorem begin_asks {h op : Nat} {d e : Dev} {x : Desc} (hb : begin h true op d = (some x, e)) :
    d.Answers e ∧ x.handle = h ∧ x.asks op := by
  unfold begin at hb
  split at hb
  · cases hb
  next y hy =>
  have same := handle_of_findDesc hy
  split at hb
  · cases hb
  next hknown =>
  have asks : y.asks op := fun hk => by simpa [hk] using hknown
  split at hb
  · cases hb
    exact ⟨.refl d, same, asks⟩
  split at hb
  · cases hb
  obtain ⟨hx, he⟩ := Prod.mk.inj hb
  rw [he, ← same] at hx
  unfold startDesc at he
  split at he
  · rw [← he, findDesc_turnAway] at hx
    cases hx
  · have running := findDesc_updDesc (g := fun y => { y with phase := .running }) (fun _ => rfl) hy
    rw [← he, same, running] at hx
    cases hx
    exact ⟨he ▸ answers_updDesc .., same, asks⟩

theorem modeRefuses_imageTransfer {d : Dev} {x : Desc} (hm : d.chp.mode = .service) (hfn : x.fn = 0)
    (hop : x.entry.opcode = 0x4B) : modeRefuses d x = none := by
  simp [modeRefuses, hm, hfn, hop]

/-- The device as a transfer that a check of Table 10.7 refuses leaves it, but for the answer. -/
def xferRefused (x : Desc) (d : Dev) : Dev :=
  { xferNamed x d with hrk := { (xferNamed x d).hrk with xferState := 5, xferCause := 4 } }

/-- The destination with the block's next stripe opened for the transfer. -/
def xferStripe (x : Desc) (d : Dev) : Dev :=
  openAt (field x.entry.p0 24 3) (openPlace d (field x.entry.p0 24 3)) (xferNamed x d)

/-- The destination with the intent of a transfer journalled. -/
def xferIntended (x : Desc) (session : Nat) (d : Dev) : Dev := { xferStripe x d with
  flash := { d.flash with
    xferIntent := some (field x.entry.p0 24 3), xferSeq := (getBlk d (field x.entry.p0 24 3)).stripeSeq
    xferRecs := [], xferVaults := [], xferNonces := [] }
  hrk := { (xferNamed x d).hrk with xferSession := session } }

theorem refused_spec (x : Desc) (st r n : Nat) (d : Dev) :
    findDesc (endWith x st r n (xferRefused x d)) x.handle = none
      ∧ (endWith x st r n (xferRefused x d)).hrk.xferState = 5
      ∧ (endWith x st r n (xferRefused x d)).hrk.xferCause = 4
      ∧ (endWith x st r n (xferRefused x d)).flash = d.flash :=
  have answers := answers_endWith x st r n (xferRefused x d)
  ⟨findDesc_endWith .., congrArg Hrk.xferState answers.hrk_eq, congrArg Hrk.xferCause answers.hrk_eq, answers.flash_eq⟩

section
variable {h : Nat} {c d : Dev} {x : Desc}

/-- A descriptor that the mode turns away before its start ends in cause 4. -/
theorem imageTransfer_turnedAway (hx : findDesc d h = some x) (hfn : x.fn = 0) (hop : x.entry.opcode = 0x4B)
    (hp : x.phase = .fetched) (hh : heldBack d x = false) (hc : checkDesc d x = some stMode)
    (hr : xferRuns d = false) :
    imageTransfer h d = endWith x stMode (xferStatus (xferRefused x d)) 0 (xferRefused x d) := by
  have away : startDesc x d = endWith x stMode (xferStatus (xferRefused x d)) 0 (xferRefused x d) := by
    rw [startDesc, hc]
    exact if_pos (by simp [hfn, hop, hr])
  have gone : findDesc (startDesc x d) h = none := by
    rw [away, ← handle_of_findDesc hx]
    exact findDesc_endWith ..
  simp [imageTransfer, begin, hx, hfn, hop, hp, hh, gone, ← away]

variable (hb : begin h true 0x4B c = (some x, d))
include hb

/-- While a transfer runs another ends, and nothing of the first changes. -/
theorem imageTransfer_runs (hr : xferRuns d = true) (hd : xferDest d = false ∨ d.hrk.xferHandle ≠ h) :
    ∃ st r, imageTransfer h c = endWith x st r 0 d := by
  have other : ¬ (xferDest d && decide (d.hrk.xferHandle = h)) = true := by
    obtain hd | hd := hd <;> simp [hd]
  simp only [imageTransfer, hb]
  rw [if_neg other]
  unfold inItsMode
  split
  · next st _ => exact ⟨st, 0, if_neg (by simp [hr])⟩
  · exact ⟨stBusy, _, if_pos (by simp [hr])⟩

/-- A transfer that ends with none of its own begun changes nothing else. -/
theorem imageTransfer_declines {st r n : Nat} (he : imageTransfer h c = endWith x st r n d) :
    findDesc (imageTransfer h c) h = none ∧ c.Answers (imageTransfer h c) := by
  obtain ⟨answers, rfl, -⟩ := begin_asks hb
  rw [he]
  exact ⟨findDesc_endWith .., answers.trans (answers_endWith ..)⟩

/-- The intent of an earlier transfer is open. -/
theorem imageTransfer_intended (hm : d.chp.mode = .service) (hr : xferRuns d = false)
    (hi : d.flash.xferIntent ≠ none) : imageTransfer h c = endWith x stBusy (xferStatus d) 0 d := by
  obtain ⟨-, -, asks⟩ := begin_asks hb
  simp only [imageTransfer, hb]
  rw [if_neg (by simp [xferDest, hr]),
    inItsMode_of_asks asks (by simp [hm]) (modeRefuses_imageTransfer hm),
    if_pos (by simp [Option.isSome_iff_ne_none, hi])]

theorem imageTransfer_unkeyed (hm : d.chp.mode = .service) (hr : xferRuns d = false)
    (hi : d.flash.xferIntent = none) (hk : xferKey d (field x.entry.p0 32 6) = false) :
    imageTransfer h c = endWith x stKey (xferStatus (xferRefused x d)) 0 (xferRefused x d) := by
  obtain ⟨-, -, asks⟩ := begin_asks hb
  have unkeyed : xferKey (xferNamed x d) (xferNamed x d).hrk.xferSlot = false := hk
  simp only [imageTransfer, hb]
  rw [if_neg (by simp [xferDest, hr]),
    inItsMode_of_asks asks (by simp [hm]) (modeRefuses_imageTransfer hm), if_neg (by simp [hr, hi])]
  simp only [unkeyed]
  rfl

/-- With every check met the block's next stripe is opened, the intent journalled and XFER_OPEN sent. -/
theorem imageTransfer_opens (hm : d.chp.mode = .service) (hr : xferRuns d = false)
    (hi : d.flash.xferIntent = none) (hk : xferKey d (field x.entry.p0 32 6) = true)
    (hblank : blockBlank d (field x.entry.p0 24 3) = true)
    (htrained : (getPort d (portTo d (field x.entry.p0 0 9))).trained = true)
    (herased : stripeErased d (field x.entry.p0 24 3) (openPlace d (field x.entry.p0 24 3)) = true) :
    ∃ session freeCtr, Dev.Relays { xferIntended x session d with freeCtr } (imageTransfer h c) := by
  obtain ⟨-, -, asks⟩ := begin_asks hb
  have keyed : xferKey (xferNamed x d) (xferNamed x d).hrk.xferSlot = true := hk
  have blank : blockBlank (xferNamed x d) (xferNamed x d).hrk.xferLocal = true := hblank
  have trained : (getPort (xferNamed x d) (portTo (xferNamed x d) (xferNamed x d).hrk.xferPeer)).trained = true :=
    htrained
  have opened : openStripe (xferNamed x d).hrk.xferLocal (xferNamed x d) = some (xferStripe x d) := if_pos herased
  obtain ⟨serial, freeCtr, hs⟩ : ∃ serial freeCtr, peerSerial (xferNamed x d).hrk.xferPeer (fresh (xferStripe x d)).2
      = (serial, { xferStripe x d with freeCtr }) := by
    unfold peerSerial
    split
    · exact ⟨_, _, rfl⟩
    · exact ⟨_, _, rfl⟩
  simp only [imageTransfer, hb]
  rw [if_neg (by simp [xferDest, hr]),
    inItsMode_of_asks asks (by simp [hm]) (modeRefuses_imageTransfer hm), if_neg (by simp [hr, hi])]
  simp only [keyed, blank, trained, opened, hs]
  exact ⟨(fresh (xferStripe x d)).1 % 2 ^ 32, freeCtr, (sends_sendOn ..).relays⟩

end

/-! ### Frames of the peer -/

/-- What a frame does that only the transfer's peer may send. -/
def fromPeer (q : FrameIn) (f : Dev → Dev) (d : Dev) : Dev := if q.src = d.hrk.xferPeer then f d else d

theorem Dev.Relays.peer_eq {d e : Dev} (h : d.Relays e) : e.hrk.xferPeer = d.hrk.xferPeer :=
  h.keep (·.hrk.xferPeer)

theorem Dev.Relays.next_eq {d e : Dev} (h : d.Relays e) : e.hrk.xferNext = d.hrk.xferNext :=
  h.keep (·.hrk.xferNext)

theorem Dev.Relays.destination_eq {d e : Dev} (h : d.Relays e) : xferDest e = xferDest d :=
  h.keep xferDest

theorem receive_fromPeer {q : FrameIn} {d : Dev} (hh : heard d q = true) (hp : q.src = d.hrk.xferPeer) (type : Nat)
    (payload : List Byte) (f : Dev → Dev) :
    ∃ e, receive q type payload (fromPeer q f) d = f e ∧ d.Relays e := by
  obtain ⟨e, he, relays⟩ := receive_relays hh type payload (fromPeer q f)
  exact ⟨e, he.trans (if_pos (by rw [relays.peer_eq, hp])), relays⟩

/-! ### The source (R190) -/

theorem sends_sendChunk (n : Nat) (d : Dev) : d.Sends (sendChunk n d) :=
  Dev.Sends.trans (e := { d with freeCtr := d.freeCtr + 1 }) (Dev.Reports.refl _) (sends_sendOn ..)

/-- The device with its stream of chunks further on. -/
def streamed (next state : Nat) (d : Dev) : Dev := { d with hrk := { d.hrk with xferNext := next, xferState := state } }

theorem sends_streamed {d e : Dev} (h : d.Sends e) (next state : Nat) :
    (streamed next state d).Sends (streamed next state e) :=
  ⟨congrArg (streamed next state) h.bare, h.fns⟩

/-- The stream goes on, and may close. -/
theorem pump_sends (n : Nat) (d : Dev) : ∃ next state, (streamed next state d).Sends (pump n d)
    ∧ (state = d.hrk.xferState ∨ state = 3) := by
  induction n generalizing d with
  | zero => exact ⟨_, _, .refl d, .inl rfl⟩
  | succ n ih =>
    unfold pump
    dsimp only
    split
    · exact ⟨d.hrk.xferNext, 3, sends_sendOn .., .inr rfl⟩
    split
    · exact ⟨_, _, .refl d, .inl rfl⟩
    · obtain ⟨next, state, sends, closed⟩ := ih (sendChunk d.hrk.xferNext
        { d with hrk := { d.hrk with xferNext := d.hrk.xferNext + 1 } })
      have chunk := sends_sendChunk d.hrk.xferNext { d with hrk := { d.hrk with xferNext := d.hrk.xferNext + 1 } }
      have kept : (sendChunk _ _).hrk.xferState = d.hrk.xferState := chunk.relays.keep (·.hrk.xferState)
      exact ⟨next, state, (sends_streamed chunk next state).trans sends, kept ▸ closed⟩

theorem openSource_refuses (f : XferOpenFrame) {d : Dev} (hm : d.chp.mode ≠ .service) : d.Sends (openSource f d) := by
  unfold openSource
  dsimp only
  split
  · exact sends_sendOn ..
  · exact sends_sendOn ..

/-- The source with a transfer opened. -/
def xferOpened (f : XferOpenFrame) (d : Dev) : Dev := { d with hrk := { d.hrk with
  xferState := 2, xferCause := 0, xferSource := true, xferLocal := f.srcBlock, xferPeerBlk := f.dstBlock
  xferPeer := f.srcIdx, xferBytes := 0, xferHandle := 0, xferSlot := f.slot, xferNext := 0, xferAcked := 0
  xferFails := 0, xferSession := f.session } }

theorem openSource_opens {f : XferOpenFrame} {d : Dev} (hm : d.chp.mode = .service) (hr : xferRuns d = false)
    (hk : xferKey d f.slot = true) (hv : (getSlot d f.slot).kcv = f.kcv) :
    openSource f d = pump 65 (xferOpened f d) := by
  rw [openSource]
  dsimp only
  rw [if_neg (by simp [hr]), if_neg (by simp [hm]), if_neg (by simp [hk, hv])]
  rfl

/-- The source with `n` chunks acknowledged. -/
def xferTaken (n : Nat) (d : Dev) : Dev := { d with hrk := { d.hrk with
  xferAcked := n, xferFails := 0
  xferBytes := min (n * chunkSize) (xferStream d d.hrk.xferLocal).length - (keyPart d d.hrk.xferLocal).length } }

theorem chunkAck_advances {n : Nat} {d : Dev} (hs : xferSends d = true) (h2 : d.hrk.xferState = 2)
    (hl : d.hrk.xferAcked < n) (hn : n ≤ d.hrk.xferNext) : chunkAck n d = pump 65 (xferTaken n d) := by
  rw [chunkAck, if_neg (by simp [hs, h2, hn]), if_neg (by omega)]
  rfl

/-! ### Chunks and the close at the destination (R190) -/

theorem sends_sendChunkAck (d : Dev) : d.Sends (sendChunkAck d) := sends_sendOn ..

theorem takeChunk_again {c : XferChunk} {d : Dev} (hd : xferDest d = true) (hc : c.chunk ≠ d.hrk.xferNext) :
    takeChunk c d = sendChunkAck d := by
  rw [takeChunk, if_neg (by simp [hd]), if_pos hc]

/-- The destination with a chunk of one nonce entry taken. -/
def nonceTaken (n : XferNonce) (d : Dev) : Dev := { d with
  flash := { d.flash with xferNonces := (n.slot, n.gen, n.hwm) :: d.flash.xferNonces }
  hrk := { d.hrk with
    xferState := 2, xferNext := d.hrk.xferNext + 1, xferFails := 0, xferKeys := d.hrk.xferKeys ++ [] } }

theorem takeChunk_nonce {c : XferChunk} {n : XferNonce} {d : Dev} (hd : xferDest d = true)
    (hc : c.chunk = d.hrk.xferNext) (hv : c.verified = true) (hn : c.content = [.nonce n]) :
    takeChunk c d = sendChunkAck (nonceTaken n d) := by
  rw [takeChunk, if_neg (by simp [hd]), if_neg (by simp [hc]), if_neg (by simp [chunkGood, hv, hn]), hn]
  rfl

/-- The eighth failure in a row ends the transfer. -/
theorem takeChunk_fails {c : XferChunk} {d : Dev} (hd : xferDest d = true) (hc : c.chunk = d.hrk.xferNext)
    (hv : c.verified = false) (hf : 7 ≤ d.hrk.xferFails) : ∃ e, takeChunk c d = endTransfer stBusy 2 e := by
  rw [takeChunk, if_neg (by simp [hd]), if_neg (by simp [hc]), if_pos (by simp [chunkGood, hv])]
  exact ⟨_, if_pos (Nat.succ_le_succ hf)⟩

/-- The destination with the intent of its transfer completed. -/
def xferClosed (d : Dev) : Dev :=
  { d with flash := { d.flash with xferIntent := none }, hrk := { d.hrk with xferState := 4 } }

theorem closeTransfer_spec {d : Dev} (hd : xferDest d = true) : (closeTransfer d).hrk.xferState = 4
    ∧ (closeTransfer d).flash.xferIntent = none ∧ (closeTransfer d).svc.xferDone = true
    ∧ (closeTransfer d).flash.records = d.flash.records := by
  let e := (xferFns (xferClosed d)).foldl (fun d f => dirChanged f 5 d) (xferClosed d)
  have closes : closeTransfer d = xferComplete stSuccess e := if_neg (by simp [hd])
  have answers := answers_xferComplete stSuccess e
  have state : e.hrk.xferState = 4 :=
    dirChanges_keep (·.hrk.xferState) (fun _ => rfl) (by intros; rfl) (by intros; rfl) ..
  have flash : e.flash = (xferClosed d).flash :=
    dirChanges_keep Dev.flash (fun _ => rfl) (by intros; rfl) (by intros; rfl) ..
  have left : (closeTransfer d).flash = (xferClosed d).flash := by rw [closes, answers.flash_eq, ← flash]; rfl
  rw [left, closes, answers.hrk_eq, answers.svc_eq]
  exact ⟨state, rfl, rfl, rfl⟩

theorem closeMatches_iff {n : Nat} {w : W32} {d : Dev} :
    closeMatches n w d = true ↔ n = d.hrk.xferNext ∧ w = d.hrk.xferCrc ^^^ 0xFFFFFFFF := by
  simp [closeMatches]

/-- A close that does not match ends the transfer after frames alone. -/
theorem closeFrame_mismatch {q : FrameIn} {n : Nat} {w : W32} {d : Dev} (hd : xferDest d = true)
    (hp : q.src = d.hrk.xferPeer) (hc : closeMatches n w d = false) :
    ∃ cause e, closeFrame q n w d = endTransfer stBusy cause e ∧ d.Sends e := by
  rw [closeFrame, if_pos (by simp [hd, hp, hc])]
  exact ⟨_, _, rfl, Dev.Sends.trans (e := { d with freeCtr := d.freeCtr + 1 }) (Dev.Reports.refl _) (sends_sendOn ..)⟩

/-- One that matches is acknowledged, and completes the transfer. -/
theorem closeFrame_match {q : FrameIn} {n : Nat} {w : W32} {d : Dev}
    (hu : (q.ackReq && d.hrk.seenSeqs.contains (q.port, q.src, q.seq)) = false) (hp : q.src = d.hrk.xferPeer)
    (hc : closeMatches n w d = true) : ∃ e, closeFrame q n w d = closeTransfer e ∧ d.Sends e := by
  obtain ⟨e, he, acks⟩ := acked_taken hu (fun e => if q.src = e.hrk.xferPeer then closeTransfer e else e)
  rw [closeFrame, if_neg (by simp [hc]), he, if_pos (by rw [acks.relays.peer_eq, hp])]
  exact ⟨e, rfl, acks⟩

/-! ### Each frame, as it comes in -/

section
variable {d : Dev} {q : FrameIn} (hh : heard d q = true)
include hh

theorem openFrame_refused {f : XferOpenFrame} (hm : d.chp.mode ≠ .service) :
    d.Relays (receive q 0x10 (xferOpenBytes f) (openSource f) d) := by
  obtain ⟨e, he, relays⟩ := receive_relays hh 0x10 (xferOpenBytes f) (openSource f)
  rw [he]
  exact relays.trans (openSource_refuses f (by rwa [relays.frameOnly.chp_eq])).relays

theorem openFrame_accepted {f : XferOpenFrame} (hm : d.chp.mode = .service) (hr : xferRuns d = false)
    (hk : xferKey d f.slot = true) (hv : (getSlot d f.slot).kcv = f.kcv) :
    ∃ e next state, d.Relays e ∧ (state = 2 ∨ state = 3)
      ∧ (streamed next state (xferOpened f e)).Relays (receive q 0x10 (xferOpenBytes f) (openSource f) d) := by
  obtain ⟨e, he, relays⟩ := receive_relays hh 0x10 (xferOpenBytes f) (openSource f)
  have opens := openSource_opens (f := f) (d := e) (by rwa [relays.frameOnly.chp_eq])
    (by rwa [relays.keep xferRuns]) (by rwa [relays.keep (xferKey · f.slot)]) (by rwa [relays.keep (getSlot · f.slot)])
  obtain ⟨next, state, sends, closed⟩ := pump_sends 65 (xferOpened f e)
  exact ⟨e, next, state, relays, closed, by rw [he, opens]; exact sends.relays⟩

/-- XFER_CLOSE that matches. -/
theorem closeFrame_completes {n : Nat} {w : W32} (hp : q.src = d.hrk.xferPeer) (hd : xferDest d = true)
    (hc : closeMatches n w d = true) : ∃ e, d.Relays e ∧ xferDest e = true
      ∧ arrive q (words [n, w.toNat]) (overTree q (routed q 0x13 (words [n, w.toNat]) (closeFrame q n w))) d
        = closeTransfer e := by
  obtain ⟨e, he, relays, unseen⟩ := routed_heard hh 0x13 (words [n, w.toNat]) (closeFrame q n w)
  obtain ⟨a, closes, acks⟩ := closeFrame_match unseen (n := n) (w := w)
    (by rw [relays.peer_eq, hp]) (by rwa [relays.keep (closeMatches n w)])
  have whole := relays.trans acks.relays
  exact ⟨a, whole, by rwa [whole.destination_eq], he.trans closes⟩

/-- XFER_CLOSE that does not match. -/
theorem closeFrame_ends {n : Nat} {w : W32} (hp : q.src = d.hrk.xferPeer) (hd : xferDest d = true)
    (hc : closeMatches n w d = false) : ∃ cause e, d.Relays e
      ∧ arrive q (words [n, w.toNat]) (overTree q (routed q 0x13 (words [n, w.toNat]) (closeFrame q n w))) d
        = endTransfer stBusy cause e := by
  obtain ⟨e, he, relays, -⟩ := routed_heard hh 0x13 (words [n, w.toNat]) (closeFrame q n w)
  obtain ⟨cause, a, ends, sent⟩ := closeFrame_mismatch (q := q) (n := n) (w := w) (by rwa [relays.destination_eq])
    (by rw [relays.peer_eq, hp]) (by rwa [relays.keep (closeMatches n w)])
  exact ⟨cause, a, relays.trans sent.relays, he.trans ends⟩

variable (hp : q.src = d.hrk.xferPeer)
include hp

theorem chunkFrame_again {c : XferChunk} (hd : xferDest d = true) (hc : c.chunk ≠ d.hrk.xferNext) :
    d.Relays (receive q 0x11 c.payload (fromPeer q (takeChunk c)) d) := by
  obtain ⟨e, he, relays⟩ := receive_fromPeer hh hp 0x11 c.payload (takeChunk c)
  rw [he, takeChunk_again (by rwa [relays.destination_eq]) (by rwa [relays.next_eq])]
  exact relays.trans (sends_sendChunkAck e).relays

theorem chunkFrame_nonce {c : XferChunk} {n : XferNonce} (hd : xferDest d = true) (hc : c.chunk = d.hrk.xferNext)
    (hv : c.verified = true) (hn : c.content = [.nonce n]) :
    ∃ e, d.Relays e ∧ (nonceTaken n e).Relays (receive q 0x11 c.payload (fromPeer q (takeChunk c)) d) := by
  obtain ⟨e, he, relays⟩ := receive_fromPeer hh hp 0x11 c.payload (takeChunk c)
  rw [he, takeChunk_nonce (by rwa [relays.destination_eq]) (by rwa [relays.next_eq]) hv hn]
  exact ⟨e, relays, (sends_sendChunkAck _).relays⟩

theorem chunkFrame_fails {c : XferChunk} (hd : xferDest d = true) (hc : c.chunk = d.hrk.xferNext)
    (hv : c.verified = false) (hf : 7 ≤ d.hrk.xferFails) :
    ∃ e, receive q 0x11 c.payload (fromPeer q (takeChunk c)) d = endTransfer stBusy 2 e := by
  obtain ⟨e, he, relays⟩ := receive_fromPeer hh hp 0x11 c.payload (takeChunk c)
  have fails : e.hrk.xferFails = d.hrk.xferFails := relays.keep (·.hrk.xferFails)
  rw [he]
  exact takeChunk_fails (by rwa [relays.destination_eq]) (by rwa [relays.next_eq]) hv (by rwa [fails])

theorem ackFrame_advances {n : Nat} (hs : xferSends d = true) (h2 : d.hrk.xferState = 2)
    (hl : d.hrk.xferAcked < n) (hn : n ≤ d.hrk.xferNext) : ∃ e next state, d.Relays e
      ∧ (streamed next state (xferTaken n e)).Relays (receive q 0x12 (words [n]) (fromPeer q (chunkAck n)) d) := by
  obtain ⟨e, he, relays⟩ := receive_fromPeer hh hp 0x12 (words [n]) (chunkAck n)
  have state : e.hrk.xferState = d.hrk.xferState := relays.keep (·.hrk.xferState)
  have acked : e.hrk.xferAcked = d.hrk.xferAcked := relays.keep (·.hrk.xferAcked)
  have advances := chunkAck_advances (n := n) (d := e)
    (by rwa [relays.keep xferSends]) (by rwa [state]) (by rwa [acked]) (by rwa [relays.next_eq])
  obtain ⟨next, state, sends, -⟩ := pump_sends 65 (xferTaken n e)
  exact ⟨e, next, state, relays, by rw [he, advances]; exact sends.relays⟩

theorem abortFrame_running (hr : xferRuns d = true) (st : Nat) :
    (receive q 0x14 (words [st]) (fromPeer q (abortTransfer st)) d).hrk.xferState = 5 := by
  obtain ⟨e, he, relays⟩ := receive_fromPeer hh hp 0x14 (words [st]) (abortTransfer st)
  rw [he]
  exact abortTransfer_running (by rwa [relays.keep xferRuns]) st

theorem abortFrame_idle (hr : xferRuns d = false) (st : Nat) :
    d.Relays (receive q 0x14 (words [st]) (fromPeer q (abortTransfer st)) d) := by
  obtain ⟨e, he, relays⟩ := receive_fromPeer hh hp 0x14 (words [st]) (abortTransfer st)
  rwa [he, abortTransfer_idle (by rwa [relays.keep xferRuns])]

end

/-- Settles O56: every frame reaches its taker relayed (`Dev.Relays`), which leaves the transfer as it was, and what is
done with it sends frames, ends the transfer or completes it. -/
theorem imageTransfer_holds : Obligations.ImageTransfer := by
  refine ⟨fun h s x d hb hr hd => ?_, fun h s x d hb hr hm hi => ?_, fun h s x hx hfn hop hp hh hc hr => ?_,
    fun h s x d hb hm hr hi hk => ?_, fun h s x d hb hm hr hi hk hblank ht he => ?_, fun q f s hh hm => ?_,
    fun q f s hh hm hr hk hv => ?_, fun q c s hh hp hd hc => ?_, fun q c n s hh hp hd hc hv hn => ?_,
    fun q c s hh hp hd hc hv hf => ?_, fun q n s hh hp hs h2 hl hn => ?_, fun q n w s hh hp hd hn hw => ?_,
    fun q n w s hh hp hd hne => ?_, fun q st s hh hp => ?_⟩
  · obtain ⟨t, run, only, ran⟩ := onDev_next (imageTransfer h) s
    obtain ⟨st, r, ends⟩ := imageTransfer_runs hb hr hd
    exact ⟨t, run, only, by rw [ran]; exact imageTransfer_declines hb ends⟩
  · obtain ⟨t, run, only, ran⟩ := onDev_next (imageTransfer h) s
    exact ⟨t, run, only, by rw [ran]; exact imageTransfer_declines hb (imageTransfer_intended hb hm hr hi)⟩
  · obtain ⟨t, run, only, ran⟩ := onDev_next (imageTransfer h) s
    refine ⟨t, run, only, ?_⟩
    rw [ran, imageTransfer_turnedAway hx hfn hop hp hh hc hr, ← handle_of_findDesc hx]
    exact refused_spec ..
  · obtain ⟨t, run, only, ran⟩ := onDev_next (imageTransfer h) s
    obtain ⟨answers, rfl, -⟩ := begin_asks hb
    refine ⟨t, run, only, ?_⟩
    rw [ran, imageTransfer_unkeyed hb hm hr hi hk, ← answers.flash_eq]
    exact refused_spec ..
  · obtain ⟨t, run, only, ran⟩ := onDev_next (imageTransfer h) s
    obtain ⟨answers, rfl, -⟩ := begin_asks hb
    obtain ⟨session, freeCtr, sent⟩ := imageTransfer_opens hb hm hr hi hk hblank ht he
    rw [← ran] at sent
    rw [← answers.flash_eq]
    exact ⟨t, run, only, sent.keep (·.hrk.xferState), sent.keep (·.hrk.xferHandle), sent.keep (·.hrk.xferSource),
      sent.keep (·.hrk.xferPeer), sent.keep (·.flash.xferIntent), sent.keep (·.flash.records)⟩
  · obtain ⟨t, run, only, ran⟩ := onDev_next (receive q 0x10 (xferOpenBytes f) (openSource f)) s
    have relays := openFrame_refused hh (f := f) hm
    rw [← ran] at relays
    exact ⟨t, run, only, relays.keep (·.hrk.xferState), relays.frameOnly⟩
  · obtain ⟨t, run, only, ran⟩ := onDev_next (receive q 0x10 (xferOpenBytes f) (openSource f)) s
    obtain ⟨e, next, state, relays, opened, sent⟩ := openFrame_accepted hh hm hr hk hv
    rw [← ran] at sent
    have reached : t.dev.hrk.xferState = state := sent.keep (·.hrk.xferState)
    exact ⟨t, run, only, by rwa [reached], sent.keep (·.hrk.xferSource), sent.keep (·.hrk.xferLocal),
      sent.keep (·.hrk.xferPeer), relays.frameOnly.trans ((frameOnly_hrk e _).trans sent.frameOnly)⟩
  · obtain ⟨t, run, only, ran⟩ := onDev_next (receive q 0x11 c.payload (fromPeer q (takeChunk c))) s
    have relays := chunkFrame_again hh hp hd hc
    rw [← ran] at relays
    exact ⟨t, run, only, relays.next_eq, relays.keep (·.hrk.xferState), relays.frameOnly⟩
  · obtain ⟨t, run, only, ran⟩ := onDev_next (receive q 0x11 c.payload (fromPeer q (takeChunk c))) s
    obtain ⟨e, relays, sent⟩ := chunkFrame_nonce hh hp hd hc hv hn
    rw [← ran] at sent
    rw [← relays.next_eq, ← relays.frameOnly.flash_eq]
    exact ⟨t, run, only, sent.keep (·.hrk.xferNext), sent.keep (·.hrk.xferState), sent.keep (·.hrk.xferFails),
      sent.keep (·.flash.xferNonces)⟩
  · obtain ⟨t, run, only, ran⟩ := onDev_next (receive q 0x11 c.payload (fromPeer q (takeChunk c))) s
    obtain ⟨e, ends⟩ := chunkFrame_fails hh hp hd hc hv hf
    obtain ⟨state, cause, done, -⟩ := endTransfer_spec stBusy 2 e
    exact ⟨t, run, only, by rw [ran, ends]; exact ⟨state, cause, done⟩⟩
  · obtain ⟨t, run, only, ran⟩ := onDev_next (receive q 0x12 (words [n]) (fromPeer q (chunkAck n))) s
    obtain ⟨e, next, state, relays, sent⟩ := ackFrame_advances hh hp hs h2 hl hn
    rw [← ran] at sent
    exact ⟨t, run, only, sent.keep (·.hrk.xferAcked), sent.keep (·.hrk.xferFails),
      relays.frameOnly.trans ((frameOnly_hrk e _).trans sent.frameOnly)⟩
  · obtain ⟨t, run, only, ran⟩ := onDev_next (arrive q (words [n, w.toNat])
      (overTree q (routed q 0x13 (words [n, w.toNat]) (closeFrame q n w)))) s
    obtain ⟨e, relays, dest, closes⟩ := closeFrame_completes hh hp hd (closeMatches_iff.mpr ⟨hn, hw⟩)
    exact ⟨t, run, only, by rw [ran, closes, ← relays.frameOnly.flash_eq]; exact closeTransfer_spec dest⟩
  · obtain ⟨t, run, only, ran⟩ := onDev_next (arrive q (words [n, w.toNat])
      (overTree q (routed q 0x13 (words [n, w.toNat]) (closeFrame q n w)))) s
    have unmatched : closeMatches n w s.dev = false := by
      rw [Bool.eq_false_iff, ne_eq, closeMatches_iff]
      tauto
    obtain ⟨cause, e, relays, ends⟩ := closeFrame_ends hh hp hd unmatched
    obtain ⟨state, -, done, intent⟩ := endTransfer_spec stBusy cause e
    rw [relays.frameOnly.spw_eq, relays.frameOnly.flash_eq] at intent
    exact ⟨t, run, only, by rw [ran, ends]; exact ⟨state, done, intent⟩⟩
  · obtain ⟨t, run, only, ran⟩ := onDev_next (receive q 0x14 (words [st]) (fromPeer q (abortTransfer st))) s
    refine ⟨t, run, only, fun hr => by rw [ran]; exact abortFrame_running hh hp hr st, fun hr => ?_⟩
    have relays := abortFrame_idle hh hp hr st
    rw [← ran] at relays
    exact ⟨relays.keep (·.hrk.xferState), relays.frameOnly⟩

end Sys2Proof.Machine
end

section
/-!
PROOFS. What a change of the energy, an estimate and the end of a learning cycle leave of the estimator (R75, R207,
R214, R215).
-/

namespace Sys2Proof.Machine

/-! ### The estimator alone -/

/-- A report beside a change of the estimator for which free values were drawn, which it names. -/
theorem Dev.Reports.withEstDrawn {d e : Dev} {est : Est} {freeCtr : Nat} (h : Dev.Reports { d with est, freeCtr } e) :
    Dev.Reports { d with est := e.est, freeCtr := e.freeCtr } e := by
  have est : e.est = est := h.est_eq
  have drawn : e.freeCtr = freeCtr := h.freeCtr_eq
  rwa [est, drawn]

theorem reports_traceEstimate (d : Dev) : d.Reports (traceEstimate d) := by
  unfold traceEstimate
  split
  · exact Dev.Reports.after (reports_trace ..) ⟨rfl, fun _ => rfl⟩
  · exact .refl d

/-! ### The end of a learning cycle (R214) -/

/-- The estimator without what the end of a learning cycle writes. -/
def Est.unlearned (e : Est) : Est :=
  { e with learning := false, learnPhase := 0, shareMa := 0, learnResult := 0, learnCause := 0 }

/-- What the end of a learning cycle leaves of the device. -/
theorem endLearning_ends (cause : Nat) (d : Dev) :
    ∃ est : Est, est.unlearned = d.est.unlearned ∧ Dev.Reports { d with est } (endLearning cause d) := by
  unfold endLearning
  split
  · exact ⟨d.est, rfl, .refl d⟩
  split
  · exact ⟨{ d.est with learning := false, learnPhase := 0, shareMa := 0 }, rfl, reports_trace ..⟩
  · exact ⟨{ d.est with learning := false, learnPhase := 0, shareMa := 0, learnResult := 2, learnCause := cause }, rfl,
      (reports_postEvent ..).trans (reports_trace ..)⟩

theorem unlearned_endLearning (cause : Nat) (d : Dev) : (endLearning cause d).est.unlearned = d.est.unlearned := by
  obtain ⟨est, same, reports⟩ := endLearning_ends cause d
  rw [reports.est_eq, same]

/-! ### The floor test (R215) -/

/-- The estimator of `e` is that of `d`, but that a failed floor test may have ended the learning cycle. -/
def Dev.FloorTested (d e : Dev) : Prop := e.est.unlearned = d.est.unlearned

theorem Dev.FloorTested.of_part {d e : Dev} (h : e.part .est = d.part .est) : d.FloorTested e :=
  congrArg Est.unlearned h

theorem Dev.FloorTested.refl (d : Dev) : d.FloorTested d := rfl

theorem Dev.FloorTested.trans {d e a : Dev} (h : d.FloorTested e) (g : e.FloorTested a) : d.FloorTested a :=
  Eq.trans g h

/-- What a floor test leaves alone. -/
theorem Dev.FloorTested.keep {α : Type} {d e : Dev} (h : d.FloorTested e) (f : Est → α)
    (hf : ∀ e, f e.unlearned = f e) : f e.est = f d.est := by rw [← hf e.est, h, hf d.est]

theorem floorTested_floorTest (d : Dev) : d.FloorTested (floorTest d) := by
  unfold floorTest
  split
  · exact unlearned_endLearning 7 d
  · exact .refl d

theorem floorTested_countsChanged (d : Dev) : d.FloorTested (countsChanged d) :=
  Dev.FloorTested.trans (.of_part (by simp)) (floorTested_floorTest _)

theorem floorTested_recounted (cadence : Bool) (d : Dev) : d.FloorTested (recounted cadence d) :=
  Dev.FloorTested.trans (e := countGood cadence (recompute d)) (.of_part (by simp)) (floorTested_countsChanged _)

theorem floorTested_reasonsChanged (d : Dev) : d.FloorTested (reasonsChanged d) := by
  obtain again | again := reasonsChanged_cases d <;> rw [again]
  · exact .refl d
  · exact Dev.FloorTested.trans (.of_part (by simp)) (floorTested_countsChanged _)

theorem floorTested_recomputeNow (d : Dev) : d.FloorTested (recomputeNow d) := by
  unfold recomputeNow
  split
  · exact (floorTested_recounted false d).trans (floorTested_reasonsChanged _)
  · exact .refl d

theorem floorTested_intToCurtain (cause exit : Nat) (d : Dev) : d.FloorTested (intToCurtain cause exit d) := by
  have begun : (intCurtained cause exit d).part .est
      = (transition .curtain cause (leaveSelfRefresh (restartTime d))).part .est := rfl
  rw [intToCurtain_eq]
  exact Dev.FloorTested.trans (.of_part (begun.trans (by simp))) (floorTested_recomputeNow _)

theorem floorTested_marginTest (d : Dev) : d.FloorTested (marginTest d) := by
  have falls (c : Prop) [Decidable c] : d.FloorTested (if c then intToCurtain 0x0B 3 d else d) := by
    split
    · exact floorTested_intToCurtain ..
    · exact .refl d
  unfold marginTest
  split
  · exact .refl d
  · exact falls _

/-- Whatever a change of the energy brings, it ends at most the learning cycle. -/
theorem floorTested_energyChanged (d : Dev) : d.FloorTested (energyChanged d) := by
  unfold energyChanged
  split
  · exact floorTested_marginTest d
  · exact floorTested_recomputeNow d

theorem pkb_energyChanged (d : Dev) : (energyChanged d).pkb = d.pkb := part_energyChanged (q := .pkb) (by decide) d

/-! ### An estimate (R207) -/

/-- The estimator without what an estimate writes. -/
def Est.unestimated (e : Est) : Est := { e with
  eNom := 0, socCut := 0, sigma3 := 0, design := 0, capPart := 0, socuPart := 0, modelPart := 0, eCons := 0
  upTemp := 0 }

/-- The device with a nominal energy and a cutoff state taken into the estimate. -/
def estimated (eNom : Nat) (cut : Int) (d : Dev) : Dev := { d with est := { d.est with
  eNom, socCut := cut, sigma3 := sigma3 d eNom, design := designMj d
  capPart := capTerm d eNom / 10000, socuPart := socuTerm d / 10000, modelPart := modelTerm d / 10000
  eCons := if zeroFaults d then 0 else eNom - sigma3 d eNom, upTemp := evalTemp d } }

/-- An operation takes the available energy into the estimate. -/
def Estimates (f : Dev → Dev) : Prop :=
  ∀ d, ∃ eNom cut, eNom = (availableEnergy d).1 ∧ f d = estimated eNom cut d

theorem Estimates.intro {f : Dev → Dev}
    (h : ∀ d, ∃ eNom cut, eNom = (availableEnergy d).1 ∧ f d = estimated eNom cut d) : Estimates f := h

/-- Stated of `estimate` itself: unfolded at a device, the kernel would run the energy integral. -/
theorem estimates_estimate : Estimates estimate := by
  delta estimate
  refine Estimates.intro fun d => ?_
  obtain ⟨energy, cut⟩ := availableEnergy d
  simp only [estimated]
  exact ⟨energy, cut, rfl, rfl⟩

/-- The estimator without what an estimate and the end of a learning cycle write. -/
def Est.basis (e : Est) : Est := e.unlearned.unestimated

theorem basis_estimate (d : Dev) : (estimate d).est.basis = d.est.basis := by
  obtain ⟨eNom, cut, -, taken⟩ := estimates_estimate d
  rw [taken]
  rfl

theorem basis_of_unlearned {a b : Est} (h : a.unlearned = b.unlearned) : a.basis = b.basis :=
  congrArg Est.unestimated h

theorem basis_endLearning (cause : Nat) (d : Dev) : (endLearning cause d).est.basis = d.est.basis :=
  basis_of_unlearned (unlearned_endLearning cause d)

theorem basis_energyChanged (d : Dev) : (energyChanged d).est.basis = d.est.basis :=
  basis_of_unlearned (floorTested_energyChanged d)

/-- What reads only the basis of an estimator agrees where the bases do. -/
theorem Est.keep_of_basis {α : Type} {a b : Est} (h : a.basis = b.basis) (f : Est → α) (hf : ∀ e, f e.basis = f e) :
    f a = f b := by rw [← hf a, h, hf b]

end Sys2Proof.Machine
end

section
/-!
PROOFS. The estimator's updates, rest points and probe pulses (R204 to R209; O45).
-/

namespace Sys2Proof.Machine

/-! ### Updates (R207 to R209) -/

theorem estimatorUpdate_untracked {d : Dev} (h : tracking d = false) : estimatorUpdate d = d := by
  simp [estimatorUpdate, h]

theorem applyCommit_idle {d : Dev} (h : d.est.pending = 0) : applyCommit d = d := by
  simp [applyCommit, h]

/-- A pending commit is taken with the estimate, and its command answered. -/
theorem answers_applyCommit {d : Dev} (h : d.est.pending ≠ 0) :
    Dev.Answers (estimate (takeShadow d)) (applyCommit d) := by
  have told (x : Option Desc) (e : Dev) : e.Answers (match x with
      | some x => endWith x stSuccess e.est.paramSeq 0 e
      | none => e) := by
    cases x with
    | some x => exact answers_endWith ..
    | none => exact .refl e
  rw [applyCommit, if_neg h]
  exact told _ _

/-- An update is counted and traced, and the budget follows it. -/
def updateTold (d : Dev) : Dev := energyChanged (traceEstimate (countChip 3 1 d))

theorem floorTested_updateTold (d : Dev) : d.FloorTested (updateTold d) :=
  Dev.FloorTested.trans (.of_part (by simp)) (floorTested_energyChanged _)

theorem pkb_updateTold (d : Dev) : (updateTold d).pkb = d.pkb := by
  rw [updateTold, pkb_energyChanged]
  exact ((reports_countChip ..).trans (reports_traceEstimate _)).pkb_eq

theorem estimatorUpdate_tracked {d : Dev} (h : tracking d = true) :
    estimatorUpdate d = updateTold (applyCommit (estimate d)) := by
  rw [estimatorUpdate, if_neg (by simp [h]), updateTold]

/-- The energies of an estimate. -/
theorem estimated_energies (eNom : Nat) (cut : Int) (d : Dev) : (estimated eNom cut d).est.eNom = eNom
    ∧ (estimated eNom cut d).est.sigma3 = sigma3 d eNom
    ∧ (estimated eNom cut d).est.eCons = (if zeroFaults d then 0 else eNom - sigma3 d eNom) := by
  simp only [estimated, and_self]

/-- With no commit pending an update is the estimate alone. -/
theorem estimatorUpdate_estimates {d : Dev} (ht : tracking d = true) (hp : d.est.pending = 0) :
    ∃ eNom cut, eNom = (availableEnergy d).1 ∧ estimatorUpdate d = updateTold (estimated eNom cut d) := by
  obtain ⟨eNom, cut, energy, taken⟩ := estimates_estimate d
  have idle : applyCommit (estimated eNom cut d) = estimated eNom cut d := applyCommit_idle hp
  exact ⟨eNom, cut, energy, by rw [estimatorUpdate_tracked ht, taken, idle]⟩

/-- The energies that an update with no commit pending leaves, and what it leaves alone. -/
theorem estimatorUpdate_spec {d e : Dev} (ht : tracking d = true) (hp : d.est.pending = 0)
    (he : e = estimatorUpdate d) : e.est.eNom = (availableEnergy d).1
    ∧ e.est.sigma3 = sigma3 d (availableEnergy d).1
    ∧ e.est.eCons = (if zeroFaults d then 0 else e.est.eNom - e.est.sigma3)
    ∧ e.est.soc = d.est.soc ∧ e.pkb = d.pkb := by
  obtain ⟨eNom, cut, energy, updated⟩ := estimatorUpdate_estimates ht hp
  obtain ⟨nominal, bound, counted⟩ := estimated_energies eNom cut d
  have tested := floorTested_updateTold (estimated eNom cut d)
  have bay := pkb_updateTold (estimated eNom cut d)
  rw [← updated, ← he] at tested bay
  have nominal' : e.est.eNom = eNom := (tested.keep Est.eNom fun _ => rfl).trans nominal
  have bound' : e.est.sigma3 = sigma3 d eNom := (tested.keep Est.sigma3 fun _ => rfl).trans bound
  have counted' := (tested.keep Est.eCons fun _ => rfl).trans counted
  rw [← energy]
  exact ⟨nominal', bound', by rw [counted', nominal', bound'], tested.keep Est.soc fun _ => rfl, bay⟩

/-! ### Rest points (R204, R205) -/

theorem restPoint_untimed {d : Dev} (h : resting d = false) (uv : List Nat) : restPoint uv d = d := by
  simp [restPoint, h]

/-- The states of the cells that rest at these voltages. -/
def restStates (uv : List Nat) (d : Dev) : List Int := uv.map (invertOcv d (evalTemp d))

/-- What every rest point notes of its states; they count where the chemistry permits. -/
def restNoted (soc : List Int) (d : Dev) : Dev := { d with est := { d.est with
  restOk := false, learnRested := true, restSoc := leastOf soc
  soc := if corrects d (leastOf soc) then soc else d.est.soc } }

/-- A rest point that corrects restarts the throughput and the drift, with the uncertainty drawn for it. -/
def restRestarted (low : Int) (p : Nat × Dev) : Dev := { p.2 with est := { p.2.est with
  sRest := p.1, restUs := 0, thruPc := 0, restHt := p.2.tmb.ht, everRest := true, restDue := false
  topRest := 90 * socOne ≤ low * 100 } }

/-- A rest point is counted and traced. -/
def restTold (low : Int) (d : Dev) : Dev := trace 0x8002 80 (low * 10000 / socOne).toNat 0 (countChip 4 1 d)

theorem reports_restTold (low : Int) (d : Dev) : d.Reports (restTold low d) :=
  (reports_countChip ..).trans (reports_trace ..)

theorem restSigma_draws (s : Int) (d : Dev) : ∃ sRest freeCtr, restSigma s d = (sRest, { d with freeCtr }) := by
  unfold restSigma
  dsimp only
  split
  · exact ⟨_, _, rfl⟩
  · exact ⟨_, d.freeCtr, rfl⟩

section
variable {uv : List Nat} {d : Dev} (hr : resting d = true)
include hr

theorem restPoint_corrects (hc : corrects d (leastOf (restStates uv d)) = true) :
    ∃ sRest freeCtr, restPoint uv d = restTold (leastOf (restStates uv d))
      (restRestarted (leastOf (restStates uv d)) (sRest, { restNoted (restStates uv d) d with freeCtr })) := by
  obtain ⟨sRest, freeCtr, drawn⟩ := restSigma_draws (leastOf (restStates uv d)) (restNoted (restStates uv d) d)
  have again : corrects (restNoted (restStates uv d) d) (leastOf (restStates uv d)) = true := hc
  have timed : restPoint uv d = restTold (leastOf (restStates uv d))
      (if !corrects (restNoted (restStates uv d) d) (leastOf (restStates uv d)) then restNoted (restStates uv d) d
        else restRestarted (leastOf (restStates uv d))
          (restSigma (leastOf (restStates uv d)) (restNoted (restStates uv d) d))) := if_neg (by simp [hr])
  exact ⟨sRest, freeCtr, by rw [timed, if_neg (by simp [again]), drawn]⟩

theorem restPoint_bars (hc : corrects d (leastOf (restStates uv d)) = false) :
    restPoint uv d = restTold (leastOf (restStates uv d)) { d with est := { d.est with
      restOk := false, learnRested := true, restSoc := leastOf (restStates uv d) } } := by
  have again : corrects (restNoted (restStates uv d) d) (leastOf (restStates uv d)) = false := hc
  have timed : restPoint uv d = restTold (leastOf (restStates uv d))
      (if !corrects (restNoted (restStates uv d) d) (leastOf (restStates uv d)) then restNoted (restStates uv d) d
        else restRestarted (leastOf (restStates uv d))
          (restSigma (leastOf (restStates uv d)) (restNoted (restStates uv d) d))) := if_neg (by simp [hr])
  rw [timed, if_pos (by simp [again]), restNoted, hc]
  rfl

end

/-! ### Due rest points and rest windows (R205) -/

theorem askWindow_opens {d : Dev} (h : lfpMiddle d = false) : askWindow d = openWindow d := by simp [askWindow, h]

theorem askWindow_charges {d : Dev} (h : lfpMiddle d = true) :
    askWindow d = { d with est := { d.est with restCharge := true } } := by simp [askWindow, h]

/-- A due rest point asks for its window where the host allows it. -/
def windowAsked (d : Dev) : Dev := if bit d.est.ctl 0 then askWindow d else d

theorem windowAsked_spec (d : Dev) : (windowAsked d).est.restDue = d.est.restDue
    ∧ (bit d.est.ctl 0 = true → lfpMiddle d = false → (windowAsked d).est.restWindow = true)
    ∧ (bit d.est.ctl 0 = true → lfpMiddle d = true → (windowAsked d).est.restCharge = true)
    ∧ (bit d.est.ctl 0 = false → (windowAsked d).est.restWindow = d.est.restWindow)
    ∧ (windowAsked d).est.soc = d.est.soc := by
  cases hb : bit d.est.ctl 0 with
  | false => simp [windowAsked, hb]
  | true =>
    rw [windowAsked, if_pos hb]
    cases hl : lfpMiddle d with
    | false => simp [askWindow_opens hl, openWindow]
    | true => simp [askWindow_charges hl]

/-- A rest point falls due. -/
def restFell (d : Dev) : Dev :=
  postEvent 0x0F 0 [restAge d] { d with est := { d.est with restDue := true } }

theorem restDue_untracked {d : Dev} (h : tracking d = false) : restDue d = d := by simp [restDue, h]

theorem restDue_tracked {d : Dev} (h : tracking d = true) : restDue d = energyChanged (windowAsked (restFell d)) :=
  if_neg (by simp [h])

/-- What a rest point that falls due leaves of the estimator. -/
theorem restDue_spec {d e : Dev} (ht : tracking d = true) (he : e = restDue d) : e.est.restDue = true
    ∧ (bit d.est.ctl 0 = true → lfpMiddle d = false → e.est.restWindow = true)
    ∧ (bit d.est.ctl 0 = true → lfpMiddle d = true → e.est.restCharge = true)
    ∧ (bit d.est.ctl 0 = false → e.est.restWindow = d.est.restWindow) ∧ e.est.soc = d.est.soc := by
  have fell : Dev.Reports { d with est := { d.est with restDue := true } } (restFell d) := reports_postEvent ..
  have middle : lfpMiddle (restFell d) = lfpMiddle d := fell.keep lfpMiddle fun _ => rfl
  obtain ⟨due, opens, charges, stays, soc⟩ := windowAsked_spec (restFell d)
  rw [fell.est_eq] at due opens charges stays soc
  rw [middle] at opens charges
  have tested := floorTested_energyChanged (windowAsked (restFell d))
  rw [← restDue_tracked ht, ← he] at tested
  have window := tested.keep Est.restWindow fun _ => rfl
  exact ⟨(tested.keep Est.restDue fun _ => rfl).trans due, fun hb hl => window.trans (opens hb hl),
    fun hb hl => (tested.keep Est.restCharge fun _ => rfl).trans (charges hb hl), fun hb => window.trans (stays hb),
    (tested.keep Est.soc fun _ => rfl).trans soc⟩

/-- The end of a rest window, or the time at which one opens again. -/
def windowExpired (d : Dev) : Dev :=
  if d.est.restWindow then { d with est := { d.est with restWindow := false } }
  else if tracking d && d.est.restDue && bit d.est.ctl 0 then askWindow d
  else d

theorem exec_restWindowExpiry (s : State) :
    exec .restWindowExpiry s = .next { s with dev := windowExpired s.dev } := rfl

theorem windowExpired_closes {d : Dev} (h : d.est.restWindow = true) :
    windowExpired d = { d with est := { d.est with restWindow := false } } := if_pos h

theorem windowExpired_asks {d : Dev} (hw : d.est.restWindow = false) (ht : tracking d = true)
    (hd : d.est.restDue = true) (hb : bit d.est.ctl 0 = true) : windowExpired d = askWindow d := by
  simp [windowExpired, hw, ht, hd, hb]

theorem windowExpired_idle {d : Dev} (hw : d.est.restWindow = false)
    (h : tracking d = false ∨ d.est.restDue = false ∨ bit d.est.ctl 0 = false) : windowExpired d = d := by
  obtain h | h | h := h <;> simp [windowExpired, hw, h]

/-! ### Probe pulses (R206) -/

/-- Pack share regulates to no more than what is asked. -/
theorem shareUpTo_bounds (ma tenths : Nat) (d : Dev) : ∃ share freeCtr, share ≤ ma
    ∧ shareUpTo ma tenths d = { d with est := { d.est with shareMa := share }, freeCtr } :=
  ⟨_, _, Nat.min_le_left .., rfl⟩

theorem quotient_draws (measured table : Nat) (d : Dev) :
    ∃ q freeCtr, quotient measured table d = (q, { d with freeCtr }) := by
  unfold quotient
  split
  · exact ⟨_, _, rfl⟩
  · exact ⟨_, d.freeCtr, rfl⟩

/-- The probes, with one of the quotients `qs` and `p.1` taken at temperature `t` in front. -/
def probesWith (t : Int) (qs : Nat) (p : Nat × Dev) : List Probe :=
  { zs := qs, zp := p.1, temp := t, ht := p.2.tmb.ht } :: p.2.est.probes

/-- The mean of a quotient over the probes near a temperature. -/
def ratioNear (f : Probe → Nat) (t : Int) (ps : List Probe) : Nat :=
  ratioOf ((ps.filter (fun p => (p.temp - t).natAbs ≤ 50)).map f)

theorem ratioNear_bounds (f : Probe → Nat) (t : Int) (ps : List Probe) :
    500 ≤ ratioNear f t ps ∧ ratioNear f t ps ≤ 4000 := clamp_mem (by decide) _

/-- A probe pulse ends: its probe is recorded, and the ratios follow those at its temperature. -/
def probeNoted (t : Int) (tau qs : Nat) (p : Nat × Dev) : Dev := { p.2 with est := { p.2.est with
  probing := false, shareMa := 0, probes := probesWith t qs p, tau
  zsRatio := ratioNear Probe.zs t (probesWith t qs p), zpRatio := ratioNear Probe.zp t (probesWith t qs p) } }

/-- A probe is counted and traced. -/
def probeTold (d : Dev) : Dev :=
  trace 0x8003 80 (d.est.zsRatio * 65536 + d.est.zpRatio) 0 (countChip 5 1 d)

theorem reports_probeTold (d : Dev) : d.Reports (probeTold d) := (reports_countChip ..).trans (reports_trace ..)

theorem probeEnd_idle {d : Dev} (h : d.est.probing = false) (zs zp tau : Nat) : probeEnd zs zp tau d = d := by
  simp [probeEnd, h]

theorem probeEnd_probing {d : Dev} (h : d.est.probing = true) (zs zp tau : Nat) :
    ∃ qs qp freeCtr, probeEnd zs zp tau d
      = probeTold (probeNoted (evalTemp d) tau qs (qp, { d with freeCtr })) := by
  obtain ⟨qs, freeCtr, first⟩ :=
    quotient_draws zs (atState (zsTab d) (evalTemp d) (weakest d.est) 10000) d
  obtain ⟨qp, freeCtr', second⟩ :=
    quotient_draws zp (atState (zpTab d) (evalTemp d) (weakest d.est) 10000) { d with freeCtr }
  have pulsed : probeEnd zs zp tau d = probeTold (probeNoted (evalTemp d) tau
      (quotient zs (atState (zsTab d) (evalTemp d) (weakest d.est) 10000) d).1
      (quotient zp (atState (zpTab (quotient zs (atState (zsTab d) (evalTemp d) (weakest d.est) 10000) d).2)
          (evalTemp d) (weakest d.est) 10000)
        (quotient zs (atState (zsTab d) (evalTemp d) (weakest d.est) 10000) d).2)) := if_neg (by simp [h])
  have same : zpTab { d with freeCtr } = zpTab d := rfl
  refine ⟨qs, qp, freeCtr', ?_⟩
  rw [pulsed, first]
  dsimp only
  rw [same, second]

/-! ### The statement -/

/-- Settles O45. -/
theorem estimation : Obligations.Estimation := by
  refine ⟨fun s ht hp => ?_, fun s ht => ?_, fun uv s hr hc => ?_, fun uv s hr hc => ?_, fun uv s hr => ?_,
    fun s ht => ?_, fun s ht => ?_, fun s hw => ?_, fun s hw ht hd hb hl => ?_, fun s hw ht hd hb hl => ?_,
    fun s hw h => ?_, fun s hm => ?_, fun s hm => ?_, fun zs zp tau s hp => ?_, fun zs zp tau s hp => ?_⟩
  · obtain ⟨t, run, only, ran⟩ := onDev_next estimatorUpdate s
    exact ⟨t, run, only, estimatorUpdate_spec ht hp ran⟩
  · exact onDev_idle (estimatorUpdate_untracked ht)
  · obtain ⟨t, run, only, ran⟩ := onDev_next (restPoint uv) s
    obtain ⟨sRest, freeCtr, corrected⟩ := restPoint_corrects hr hc
    have reports := reports_restTold (leastOf (restStates uv s.dev))
      (restRestarted (leastOf (restStates uv s.dev)) (sRest, { restNoted (restStates uv s.dev) s.dev with freeCtr }))
    rw [← corrected, ← ran] at reports
    have est := reports.est_eq
    have soc : (restNoted (restStates uv s.dev) s.dev).est.soc = restStates uv s.dev := if_pos hc
    exact ⟨t, run, only, (congrArg Est.soc est).trans soc, congrArg Est.restUs est, congrArg Est.thruPc est,
      congrArg Est.restHt est, congrArg Est.restDue est, reports.withEstDrawn⟩
  · obtain ⟨t, run, only, ran⟩ := onDev_next (restPoint uv) s
    rw [restPoint_bars hr hc] at ran
    exact ⟨t, run, only, ran ▸ reports_restTold ..⟩
  · exact onDev_idle (restPoint_untimed hr uv)
  · obtain ⟨t, run, only, ran⟩ := onDev_next restDue s
    exact ⟨t, run, only, restDue_spec ht ran⟩
  · exact onDev_idle (restDue_untracked ht)
  · rw [exec_restWindowExpiry, windowExpired_closes hw]
  · rw [exec_restWindowExpiry, windowExpired_asks hw ht hd hb, askWindow_opens hl, openWindow]
  · rw [exec_restWindowExpiry, windowExpired_asks hw ht hd hb, askWindow_charges hl]
  · rw [exec_restWindowExpiry, windowExpired_idle hw h]
  · obtain ⟨t, run, only, ran⟩ := onDev_next (fun d => if mayProbe d then
      shareUpTo (designMah d / 5) 8 { d with est := { d.est with probing := true } } else d) s
    obtain ⟨share, freeCtr, bound, shared⟩ :=
      shareUpTo_bounds (designMah s.dev / 5) 8 { s.dev with est := { s.dev.est with probing := true } }
    rw [if_pos hm, shared] at ran
    exact ⟨t, run, only, by rw [ran], by rw [ran]; exact bound, by rw [ran]⟩
  · exact onDev_idle (if_neg (by simp [hm]))
  · obtain ⟨t, run, only, ran⟩ := onDev_next (probeEnd zs zp tau) s
    obtain ⟨qs, qp, freeCtr, ended⟩ := probeEnd_probing hp zs zp tau
    have reports := reports_probeTold (probeNoted (evalTemp s.dev) tau qs (qp, { s.dev with freeCtr }))
    rw [← ended, ← ran] at reports
    have est := reports.est_eq
    obtain ⟨lowS, highS⟩ :=
      ratioNear_bounds Probe.zs (evalTemp s.dev) (probesWith (evalTemp s.dev) qs (qp, { s.dev with freeCtr }))
    obtain ⟨lowP, highP⟩ :=
      ratioNear_bounds Probe.zp (evalTemp s.dev) (probesWith (evalTemp s.dev) qs (qp, { s.dev with freeCtr }))
    have zs : t.dev.est.zsRatio = _ := congrArg Est.zsRatio est
    have zp : t.dev.est.zpRatio = _ := congrArg Est.zpRatio est
    exact ⟨t, run, only, congrArg Est.probing est, congrArg Est.shareMa est,
      congrArg (fun e => e.probes.length) est, congrArg Est.tau est, zs ▸ lowS, zs ▸ highS, zp ▸ lowP, zp ▸ highP,
      reports.withEstDrawn⟩
  · exact onDev_idle (probeEnd_idle hp zs zp tau)

end Sys2Proof.Machine
end

section
/-!
PROOFS. LEARN_START on a descriptor of an opcode that the device does not know (R214; O46).
-/

namespace Sys2Proof.Machine

/-- A learning cycle that starts runs. -/
theorem learning_startLearning (d : Dev) : (startLearning d).est.learning = true :=
  congrArg Est.learning (reports_trace ..).est_eq

/-- A running descriptor of an opcode that no command carries out. -/
def strayDesc : Desc :=
  { handle := 1, fn := 0, ring := 0, sqHead := 0, seq := 0, entry := { opcode := 0x50 }, phase := .running }

/-- A device in SERVICE with that descriptor and a tracked pack that a learning cycle fits. -/
def strayLearn : State := { dev := {
  chp := { mode := .service }
  pins := { packPresN := false }
  pkb := { switchClosed := true }
  est := { valid := true, ntc1 := 250, ntc2 := 250 }
  descs := [strayDesc] } }

/-- LEARN_START takes the stray descriptor up as any command would (R255). -/
theorem begin_strayLearn : begin 1 true 0x48 strayLearn.dev = (some strayDesc, strayLearn.dev) := rfl

/-- SERVICE refuses no unknown opcode, and the pack passes the checks: the cycle starts. -/
theorem learnStart_strayLearn :
    learnStart 1 strayLearn.dev = startLearning (endWith strayDesc stSuccess 0 0 strayLearn.dev) := by
  have permitted : modeRefuses strayLearn.dev strayDesc = none := by decide
  have tracked : tracking strayLearn.dev = true := by decide
  have fits : learnFits strayLearn.dev = true := by decide
  have idle : strayLearn.dev.est.learning = false := rfl
  simp [learnStart, begin_strayLearn, inItsMode, permitted, tracked, fits, idle]

/-- Refutes O46: outside ARMED and DERATED, where the clause has LEARN_START end with nothing else changed, a running
descriptor of an unknown opcode starts a cycle. Tables 2.4 and 2.5 refuse the opcodes that they list, and the model
lets any command take up a descriptor of no known opcode. -/
theorem not_learningCycle : ¬ Obligations.LearningCycle := by
  unfold Obligations.LearningCycle
  rintro ⟨-, ends, -⟩
  obtain ⟨t, run, -, -, answers⟩ :=
    ends 1 strayLearn strayDesc strayLearn.dev begin_strayLearn (.inr (.inr (.inr ⟨by decide, by decide⟩)))
  have idle : t.dev.est.learning = false := congrArg Est.learning answers.est_eq
  have ran : t.dev = learnStart 1 strayLearn.dev := congrArg State.dev (onDev_inv run)
  rw [ran, learnStart_strayLearn, learning_startLearning] at idle
  cases idle

end Sys2Proof.Machine
end

section
/-!
PROOFS. A pack is inserted (R213, R222; O47): what the faults of Table 12.5 leave of the bay, and the steps of an
insertion.
-/

namespace Sys2Proof.Machine

/-! ### The bay -/

/-- A report beside a change of the pins and of the bay, which it names. -/
theorem Dev.Reports.withPinsPkb {d e : Dev} {pins : Pins} {pkb : Pkb} (h : Dev.Reports { d with pins, pkb } e) :
    Dev.Reports { d with pins := e.pins, pkb := e.pkb } e := by
  have pins' : e.pins = pins := h.pins_eq
  have pkb' : e.pkb = pkb := h.pkb_eq
  rwa [pins', pkb']

theorem reports_setBay (b : Bay) (d : Dev) : Dev.Reports { d with pkb := { d.pkb with bay := b } } (setBay b d) :=
  reports_trace ..

theorem pkb_setBay (b : Bay) (d : Dev) : (setBay b d).pkb = { d.pkb with bay := b } := (reports_setBay b d).pkb_eq

theorem pkb_estimate (d : Dev) : (estimate d).pkb = d.pkb := by
  obtain ⟨eNom, cut, -, taken⟩ := estimates_estimate d
  rw [taken, estimated]

/-! ### The faults of Table 12.5 (R228) -/

/-- The bay without what a fault's coming and going writes. -/
def Pkb.faultless (k : Pkb) : Pkb := { k with fault := 0, faultAct := 0, held := [], clearUs := [] }

/-- What reads nothing of the faults agrees where the rest of the bay does. -/
theorem Pkb.keep_of_faultless {α : Type} {a b : Pkb} (h : a.faultless = b.faultless) (f : Pkb → α)
    (hf : ∀ k, f k.faultless = f k) : f a = f b := by rw [← hf a, h, hf b]

theorem faultless_setAct (n : Nat) (on : Bool) (d : Dev) : (setAct n on d).pkb.faultless = d.pkb.faultless := rfl

/-- A raised fault, before the event that tells of it. -/
def faultRaised (n : Nat) (d : Dev) : Dev :=
  let d := setAct n true { d with est := { d.est with probing := d.est.probing && n ≠ 4 } }
  if zeroFaults d then { d with est := { d.est with eCons := 0 } } else d

theorem pkb_faultRaised (n : Nat) (d : Dev) : (faultRaised n d).pkb = (setAct n true d).pkb := by
  unfold faultRaised
  dsimp only
  split <;> rfl

theorem raisePack_on {n : Nat} {d : Dev} (h : faultOn d n = true) : raisePack n d = d := if_pos h

theorem raisePack_off {n : Nat} {d : Dev} (h : faultOn d n = false) :
    Dev.Reports (faultRaised n d) (raisePack n d) := by
  rw [raisePack, if_neg (by simp [h])]
  exact reports_postEvent ..

theorem pkb_raisePack {n : Nat} {d : Dev} (h : faultOn d n = false) : (raisePack n d).pkb = (setAct n true d).pkb :=
  (raisePack_off h).pkb_eq.trans (pkb_faultRaised n d)

theorem faultless_raisePack (n : Nat) (d : Dev) : (raisePack n d).pkb.faultless = d.pkb.faultless := by
  cases h : faultOn d n with
  | true => rw [raisePack_on h]
  | false => rw [pkb_raisePack h, faultless_setAct]

theorem faultOn_setAct {n : Nat} (hn : n < 32) (on : Bool) (d : Dev) : faultOn (setAct n on d) n = on := by
  cases on <;> simp [faultOn, setAct, bit, hn]

theorem faultOn_of_pkb {d e : Dev} (h : e.pkb = d.pkb) (n : Nat) : faultOn e n = faultOn d n := by
  simp [faultOn, h]

theorem faultOn_raisePack {n : Nat} (hn : n < 32) (d : Dev) : faultOn (raisePack n d) n = true := by
  cases h : faultOn d n with
  | true => rw [raisePack_on h, h]
  | false => rw [faultOn_of_pkb (pkb_raisePack h), faultOn_setAct hn]

theorem faultless_clearPack (n : Nat) (d : Dev) : (clearPack n d).pkb.faultless = d.pkb.faultless := by
  unfold clearPack
  split
  · rfl
  dsimp only
  split
  · rw [pkb_estimate, faultless_setAct]
  · exact faultless_setAct ..

theorem faultless_disLimit (d : Dev) : (disLimit d).pkb.faultless = d.pkb.faultless := by
  unfold disLimit
  split
  · rfl
  split
  · exact faultless_raisePack ..
  · exact faultless_clearPack ..

theorem disLimit_unread {d : Dev} (h : d.pkb.descOk = false) : disLimit d = d := by simp [disLimit, h]

/-! ### Insertion (R222) -/

theorem packSeated_idle {d : Dev} (h : d.pins.packPresN = false) : packSeated d = d := by simp [packSeated, h]

/-- A pack is seen. -/
def packSeen (d : Dev) : Dev :=
  { d with pins := { d.pins with packPresN := false }, pkb := { d.pkb with released := false } }

theorem packSeated_debounces {d : Dev} (hp : d.pins.packPresN = true) (hm : d.chp.mode ≠ .dark) :
    packSeated d = setBay .debouncing (packSeen d) := by
  rw [packSeated, if_neg (by simp [hp]), if_neg hm, packSeen]

/-- The descriptor and the voltage are taken in with the switch open, the faults of the last insertion over. -/
def descRead (desc : List Byte) (mv : Nat) (d : Dev) : Dev :=
  let d := [0, 9, 10, 12].foldl (fun d n => setAct n false d) d
  { d with pkb := { d.pkb with
    desc := desc.take 256, descOk := descGood desc, vPack := mv, switchClosed := false, chgPhase := .off
    chgRetry := false, chgUs := 0 } }

/-- DESC is raised by a descriptor that fails its checks. -/
def descTested (ok : Bool) (d : Dev) : Dev := if ok then d else raisePack 0 d

/-- VRANGE is raised by a voltage that a good descriptor bars. -/
def rangeTested (ok : Bool) (mv : Nat) (d : Dev) : Dev := if ok && !vrangeOk d mv then raisePack 1 d else d

/-- An insertion's checks. -/
def insertionTested (desc : List Byte) (mv : Nat) (d : Dev) : Dev :=
  disLimit (rangeTested (descGood desc) mv (descTested (descGood desc) (descRead desc mv d)))

theorem insertion_eq (desc : List Byte) (mv : Nat) (d : Dev) :
    insertion desc mv d = energyChanged (setBay .settling (insertionTested desc mv d)) := rfl

theorem faultless_insertionTested (desc : List Byte) (mv : Nat) (d : Dev) :
    (insertionTested desc mv d).pkb.faultless = (descRead desc mv d).pkb.faultless := by
  have tested (ok : Bool) (e : Dev) : (descTested ok e).pkb.faultless = e.pkb.faultless := by
    unfold descTested
    split
    · rfl
    · exact faultless_raisePack ..
  have ranged (ok : Bool) (e : Dev) : (rangeTested ok mv e).pkb.faultless = e.pkb.faultless := by
    unfold rangeTested
    split
    · exact faultless_raisePack ..
    · rfl
  rw [insertionTested, faultless_disLimit, ranged, tested]

/-- A descriptor that fails its checks leaves DESC active. -/
theorem faultOn_insertionTested {desc : List Byte} (h : descGood desc = false) (mv : Nat) (d : Dev) :
    faultOn (insertionTested desc mv d) 0 = true := by
  have unread : (raisePack 0 (descRead desc mv d)).pkb.descOk = false :=
    (Pkb.keep_of_faultless (faultless_raisePack ..) Pkb.descOk fun _ => rfl).trans h
  have raised : insertionTested desc mv d = raisePack 0 (descRead desc mv d) := by
    simp [insertionTested, rangeTested, descTested, h, disLimit_unread unread]
  rw [raised, faultOn_raisePack (by decide)]

/-- An insertion leaves the bay settling behind an open switch, with the descriptor as read. -/
theorem insertion_spec {desc : List Byte} {mv : Nat} {d e : Dev} (he : e = insertion desc mv d) :
    e.pkb.bay = .settling ∧ e.pkb.switchClosed = false ∧ e.pkb.desc = desc.take 256 ∧ e.pkb.descOk = descGood desc
      ∧ (descGood desc = false → faultOn e 0 = true) ∧ e.pkb.insertions = d.pkb.insertions := by
  have pkb : e.pkb = { (insertionTested desc mv d).pkb with bay := .settling } := by
    rw [he, insertion_eq, pkb_energyChanged, pkb_setBay]
  have kept {α : Type} (f : Pkb → α) (hf : ∀ k, f k.faultless = f k) :
      f (insertionTested desc mv d).pkb = f (descRead desc mv d).pkb :=
    Pkb.keep_of_faultless (faultless_insertionTested desc mv d) f hf
  have active (h : descGood desc = false) : faultOn e 0 = true := by
    rw [← faultOn_insertionTested h mv d, faultOn, faultOn, pkb]
  rw [pkb]
  exact ⟨rfl, kept Pkb.switchClosed fun _ => rfl, kept Pkb.desc fun _ => rfl, kept Pkb.descOk fun _ => rfl, active,
    kept Pkb.insertions fun _ => rfl⟩

/-- A pack's presence is counted. -/
def presenceCounted (d : Dev) : Dev :=
  countChip 8 1 { d with pkb := { d.pkb with insertions := satAdd 8 d.pkb.insertions 1 } }

theorem presenceDetect_inserts {d : Dev} (hb : d.pkb.bay = .debouncing) (hp : d.pins.packPresN = false)
    (hm : d.chp.mode ≠ .dark) (desc : List Byte) (mv : Nat) :
    presenceDetect desc mv d = insertion desc mv (presenceCounted d) := by
  rw [presenceDetect, if_neg (by simp [hb, hp, hm]), presenceCounted]

theorem presenceDetect_idle {d : Dev}
    (h : d.pkb.bay ≠ .debouncing ∨ d.pins.packPresN = true ∨ d.chp.mode = .dark) (desc : List Byte) (mv : Nat) :
    presenceDetect desc mv d = d := by
  rw [presenceDetect, if_pos (by simpa [or_assoc] using h)]

/-! ### The first estimate (R213) -/

/-- The pack is in service behind a closed switch. -/
def packServes (d : Dev) : Dev := setBay .inService { d with pkb := { d.pkb with switchClosed := true } }

/-- The states of the resting cells, from which the first estimate is taken. -/
def firstStates (uv : List Nat) (d : Dev) : Dev :=
  let d := { d with est := { d.est with
    valid := true, soc := restStates uv d, cellUv := uv
    sRest := 100000000, restUs := 0, thruPc := 0, everRest := false, restDue := false, restOk := true
    secPc := 0, secUs := 0
    tau := if d.est.params.isNone then Config.profileTau (chemOf d) else d.est.tau } }
  { d with est := { d.est with gauge := weakest d.est } }

theorem settleExpiry_serves {d : Dev} (hb : d.pkb.bay = .settling) (hm : d.chp.mode ≠ .dark)
    (h0 : faultOn d 0 = false) (h1 : faultOn d 1 = false) (uv : List Nat) :
    settleExpiry uv d = updateTold (estimate (firstStates uv (packServes d))) := by
  rw [settleExpiry, if_neg (by simp [hb, hm]), if_neg (by simp [h0, h1])]
  rfl

theorem settleExpiry_fault {d : Dev} (hb : d.pkb.bay = .settling) (hm : d.chp.mode ≠ .dark)
    (h : faultOn d 0 = true ∨ faultOn d 1 = true) (uv : List Nat) : settleExpiry uv d = setBay .faultOpen d := by
  rw [settleExpiry, if_neg (by simp [hb, hm]), if_pos (by simpa using h)]

theorem basis_updateTold (d : Dev) : (updateTold d).est.basis = d.est.basis :=
  basis_of_unlearned (floorTested_updateTold d)

/-- The first estimate leaves the pack in service, with the states of its resting cells. -/
theorem firstEstimate_spec {uv : List Nat} {d e : Dev}
    (he : e = updateTold (estimate (firstStates uv (packServes d)))) : e.pkb.bay = .inService
      ∧ e.pkb.switchClosed = true ∧ e.est.valid = true ∧ e.est.soc = restStates uv d := by
  have pkb : e.pkb = { d.pkb with switchClosed := true, bay := .inService } := by
    rw [he, pkb_updateTold, pkb_estimate]
    exact pkb_setBay ..
  have basis : e.est.basis = (firstStates uv (packServes d)).est.basis := by
    rw [he, basis_updateTold, basis_estimate]
  have states : restStates uv (packServes d) = restStates uv d := (reports_setBay ..).keep (restStates uv) fun _ => rfl
  rw [pkb]
  exact ⟨rfl, rfl, Est.keep_of_basis basis Est.valid fun _ => rfl,
    (Est.keep_of_basis basis Est.soc fun _ => rfl).trans states⟩

/-- Settles O47. -/
theorem packInsertion : Obligations.PackInsertion := by
  refine ⟨fun s hp hm => ?_, fun s hp => ?_, fun desc mv s hb hp hm => ?_, fun desc mv s h => ?_,
    fun uv s hb hm h0 h1 => ?_, fun uv s hb hm h => ?_⟩
  · obtain ⟨t, run, only, ran⟩ := onDev_next packSeated s
    have reports := reports_setBay .debouncing (packSeen s.dev)
    rw [← packSeated_debounces hp hm, ← ran] at reports
    have pkb := reports.pkb_eq
    exact ⟨t, run, only, reports.pins_eq, congrArg Pkb.bay pkb, by rw [pkb]; rfl, reports.withPinsPkb⟩
  · exact onDev_idle (packSeated_idle hp)
  · obtain ⟨t, run, only, ran⟩ := onDev_next (presenceDetect desc mv) s
    rw [presenceDetect_inserts hb hp hm] at ran
    obtain ⟨bay, switch, read, ok, active, counted⟩ := insertion_spec ran
    have presence : (presenceCounted s.dev).pkb.insertions = satAdd 8 s.dev.pkb.insertions 1 :=
      congrArg Pkb.insertions (reports_countChip ..).pkb_eq
    exact ⟨t, run, only, bay, switch, read, ok, active, counted.trans presence⟩
  · exact onDev_idle (presenceDetect_idle h desc mv)
  · obtain ⟨t, run, only, ran⟩ := onDev_next (settleExpiry uv) s
    rw [settleExpiry_serves hb hm h0 h1] at ran
    exact ⟨t, run, only, firstEstimate_spec ran⟩
  · obtain ⟨t, run, only, ran⟩ := onDev_next (settleExpiry uv) s
    rw [settleExpiry_fault hb hm h] at ran
    exact ⟨t, run, only, ran ▸ congrArg Pkb.bay (pkb_setBay ..), ran ▸ reports_setBay ..⟩

end Sys2Proof.Machine
end

section
/-!
PROOFS. Pack samples and charger faults (R197, R203, R226, R228; O49).
-/

namespace Sys2Proof.Machine

/-! ### What a sample reads and counts, and what leaves it alone -/

/-- What the samples have taken in of the pack: the states with throughput and drift, the voltages and temperatures, the
offset, and the switch with the descriptor. -/
structure Reading where
  soc : List Int
  thruPc : Nat
  restUs : Nat
  cellUv : List Nat
  ntc1 : Int
  ntc2 : Int
  offset : Int
  vPack : Nat
  switchClosed : Bool
  desc : List Byte

def Dev.reading (d : Dev) : Reading where
  soc := d.est.soc
  thruPc := d.est.thruPc
  restUs := d.est.restUs
  cellUv := d.est.cellUv
  ntc1 := d.est.ntc1
  ntc2 := d.est.ntc2
  offset := d.est.offset
  vPack := d.pkb.vPack
  switchClosed := d.pkb.switchClosed
  desc := d.pkb.desc

theorem Dev.Answers.reading_eq {d e : Dev} (h : d.Answers e) : e.reading = d.reading := h.keep Dev.reading fun _ => rfl

theorem Dev.Reports.reading_eq {d e : Dev} (h : d.Reports e) : e.reading = d.reading := h.answers.reading_eq

theorem reading_of_parts {d e : Dev} (hest : e.est.basis = d.est.basis) (hpkb : e.pkb.faultless = d.pkb.faultless) :
    e.reading = d.reading := by
  have est {α : Type} (f : Est → α) (hf : ∀ e, f e.basis = f e) : f e.est = f d.est := Est.keep_of_basis hest f hf
  have pkb {α : Type} (f : Pkb → α) (hf : ∀ k, f k.faultless = f k) : f e.pkb = f d.pkb :=
    Pkb.keep_of_faultless hpkb f hf
  simp only [Dev.reading, est Est.soc fun _ => rfl, est Est.thruPc fun _ => rfl, est Est.restUs fun _ => rfl,
    est Est.cellUv fun _ => rfl, est Est.ntc1 fun _ => rfl, est Est.ntc2 fun _ => rfl, est Est.offset fun _ => rfl,
    pkb Pkb.vPack fun _ => rfl, pkb Pkb.switchClosed fun _ => rfl, pkb Pkb.desc fun _ => rfl]

theorem reading_estimate (d : Dev) : (estimate d).reading = d.reading :=
  reading_of_parts (basis_estimate d) (congrArg Pkb.faultless (pkb_estimate d))

theorem pkb_endLearning (cause : Nat) (d : Dev) : (endLearning cause d).pkb = d.pkb := by
  obtain ⟨est, -, reports⟩ := endLearning_ends cause d
  exact reports.pkb_eq

theorem reading_endLearning (cause : Nat) (d : Dev) : (endLearning cause d).reading = d.reading :=
  reading_of_parts (basis_endLearning cause d) (congrArg Pkb.faultless (pkb_endLearning cause d))

theorem reading_energyChanged (d : Dev) : (energyChanged d).reading = d.reading :=
  reading_of_parts (basis_energyChanged d) (congrArg Pkb.faultless (pkb_energyChanged d))

theorem reading_updateTold (d : Dev) : (updateTold d).reading = d.reading :=
  reading_of_parts (basis_updateTold d) (congrArg Pkb.faultless (pkb_updateTold d))

theorem reading_takeShadow (d : Dev) : (takeShadow d).reading = d.reading := by
  unfold takeShadow
  split <;> rfl

theorem reading_applyCommit (d : Dev) : (applyCommit d).reading = d.reading := by
  by_cases h : d.est.pending = 0
  · rw [applyCommit_idle h]
  · rw [(answers_applyCommit h).reading_eq, reading_estimate, reading_takeShadow]

/-! ### Faults (R228) -/

theorem reading_setAct (n : Nat) (on : Bool) (d : Dev) : (setAct n on d).reading = d.reading := rfl

theorem reading_raisePack (n : Nat) (d : Dev) : (raisePack n d).reading = d.reading := by
  have raised : (faultRaised n d).reading = d.reading := by
    unfold faultRaised
    dsimp only
    split <;> rfl
  cases h : faultOn d n with
  | true => rw [raisePack_on h]
  | false => rw [(raisePack_off h).reading_eq, raised]

theorem reading_clearPack (n : Nat) (d : Dev) : (clearPack n d).reading = d.reading := by
  unfold clearPack
  split
  · rfl
  dsimp only
  split
  · rw [reading_estimate, reading_setAct]
  · rfl

/-- The times for which a fault's conditions have held. -/
def faultTimed (n : Nat) (on off : Bool) (us : Nat) (d : Dev) : Dev := { d with pkb := { d.pkb with
  held := holdFor (on && !faultOn d n) n us d.pkb.held
  clearUs := holdFor (off && faultOn d n) n us d.pkb.clearUs } }

/-- A fault with its times is timed, raised, or cleared. -/
theorem timedFault_cases (n : Nat) (on : Bool) (onUs : Nat) (off : Bool) (offUs us : Nat) (d : Dev) :
    timedFault n on onUs off offUs us d = faultTimed n on off us d
      ∨ timedFault n on onUs off offUs us d = raisePack n (faultTimed n on off us d)
      ∨ timedFault n on onUs off offUs us d = clearPack n (faultTimed n on off us d) := by
  have choice (c k : Bool) (a b e : Dev) : (if c then a else if k then b else e) = e
      ∨ (if c then a else if k then b else e) = a ∨ (if c then a else if k then b else e) = b := by
    cases c <;> cases k <;> simp
  exact choice ..

theorem reading_timedFault (n : Nat) (on : Bool) (onUs : Nat) (off : Bool) (offUs us : Nat) (d : Dev) :
    (timedFault n on onUs off offUs us d).reading = d.reading := by
  obtain h | h | h := timedFault_cases n on onUs off offUs us d <;> rw [h]
  · rfl
  · rw [reading_raisePack]
    rfl
  · rw [reading_clearPack]
    rfl

/-- Whether a charger fault is being tried again (R227). -/
def chgRetried (retry : Bool) (d : Dev) : Dev := { d with pkb := { d.pkb with chgRetry := retry } }

theorem reading_chgRetried (retry : Bool) (d : Dev) : (chgRetried retry d).reading = d.reading := rfl

theorem reading_sampleFaults (r : PackReading) (d : Dev) : (sampleFaults r d).reading = d.reading := by
  unfold sampleFaults
  refine (reading_timedFault ..).trans ((reading_chgRetried ..).trans ?_)
  simp only [reading_timedFault]

/-- Without its condition and without its clearing a fault stays as it is. -/
theorem timedFault_calm (n onUs offUs us : Nat) (d : Dev) :
    timedFault n false onUs false offUs us d = faultTimed n false false us d := by
  simp [timedFault, faultTimed]

/-! ### What a sample measures (R197, R199, R203) -/

/-- A sample's readings are taken in; behind a closed switch its charge is counted, behind an open one its current is
the offset. -/
def sampleMeasured (r : PackReading) (d : Dev) : Dev :=
  let e := readSensors r d
  if !e.pkb.switchClosed then { e with est := { e.est with offset := r.currentUa } }
  else if e.est.valid then endMinute (endSecond (moveGauge r.deltaUs (countCharge r e)))
  else e

theorem reading_moveGauge (us : Nat) (d : Dev) : (moveGauge us d).reading = d.reading := rfl

theorem reading_endSecond (d : Dev) : (endSecond d).reading = d.reading := by
  unfold endSecond
  split <;> rfl

theorem reading_endMinute (d : Dev) : (endMinute d).reading = d.reading := by
  unfold endMinute
  split
  · rfl
  dsimp only
  split
  · exact reading_endLearning ..
  · rfl

/-- The charge of a sample in pC, the offset taken off. -/
def sampleCharge (r : PackReading) (d : Dev) : Int := (r.currentUa - d.est.offset) * r.deltaUs

theorem socOf_readSensors (r : PackReading) (d : Dev) (pc : Int) : socOf (readSensors r d) pc = socOf d pc := by
  have used : usedMah (readSensors r d) = usedMah d := rfl
  rw [socOf, socOf, used]

/-- A sample behind a closed switch moves the states, the throughput and the drift by its charge. -/
theorem reading_sampleMeasured {r : PackReading} {d : Dev} (hs : d.pkb.switchClosed = true)
    (hv : d.est.valid = true) : (sampleMeasured r d).reading = {
      soc := d.est.soc.map (fun x => x - socOf d (sampleCharge r d))
      thruPc := d.est.thruPc + (sampleCharge r d).natAbs
      restUs := d.est.restUs + r.deltaUs
      cellUv := r.cellsUv, ntc1 := r.ntc1, ntc2 := r.ntc2
      offset := d.est.offset, vPack := r.packMv, switchClosed := true, desc := d.pkb.desc } := by
  have closed : (readSensors r d).pkb.switchClosed = true := hs
  have valid : (readSensors r d).est.valid = true := hv
  have counted : (countCharge r (readSensors r d)).reading = { d.reading with
      soc := d.est.soc.map (fun x => x - socOf (readSensors r d) (sampleCharge r d))
      thruPc := d.est.thruPc + (sampleCharge r d).natAbs
      restUs := d.est.restUs + r.deltaUs
      cellUv := r.cellsUv, ntc1 := r.ntc1, ntc2 := r.ntc2, vPack := r.packMv } := rfl
  simp only [sampleMeasured, closed, valid, Bool.not_true, Bool.false_eq_true, if_false, if_true]
  rw [reading_endMinute, reading_endSecond, reading_moveGauge, counted, socOf_readSensors]
  simp only [Dev.reading, hs]

theorem pkb_sampleMeasured (r : PackReading) (d : Dev) :
    (sampleMeasured r d).pkb = { d.pkb with vPack := r.packMv } := by
  have minute (e : Dev) : (endMinute e).pkb = e.pkb := part_endMinute (q := .pkb) nofun e
  have second (e : Dev) : (endSecond e).pkb = e.pkb := part_endSecond (q := .pkb) nofun e
  unfold sampleMeasured
  dsimp only
  (repeat' split)
  · rfl
  · rw [minute, second]
    rfl
  · rfl

/-! ### What follows a sample (R214, R226, R227) -/

theorem reading_sampleLearning (d : Dev) : (sampleLearning d).reading = d.reading := by
  unfold sampleLearning
  (repeat' split)
  · rfl
  · exact reading_endLearning ..
  · exact reading_endLearning ..
  · exact reading_endLearning ..
  · rfl

theorem reading_sampleUpdate (before d : Dev) : (sampleUpdate before d).reading = d.reading := by
  have updated : (updateTold (applyCommit (estimate d))).reading = d.reading := by
    rw [reading_updateTold, reading_applyCommit, reading_estimate]
  unfold sampleUpdate
  dsimp only
  split
  · exact updated
  split
  · exact reading_energyChanged d
  · rfl

theorem reading_countCharger (r : PackReading) (d : Dev) : (countCharger r d).reading = d.reading :=
  (reports_countChip ..).reading_eq

theorem reading_chgEnd (d : Dev) : (chgEnd d).reading = d.reading := by
  unfold chgEnd
  dsimp only
  split <;> rfl

theorem reading_chgStep (r : PackReading) (d : Dev) : (chgStep r d).reading = d.reading := by
  unfold chgStep
  split
  · rfl
  split
  · rfl
  dsimp only
  split
  · split
    · exact reading_chgEnd _
    · split <;> rfl
  · split
    · exact reading_chgEnd _
    · rfl
  · split <;> rfl

/-! ### The faults that open the switch -/

/-- SWITCH and OVERCURRENT are timed, the latter behind a closed switch. -/
def switchTimed (r : PackReading) (d : Dev) : Dev :=
  let d := timedFault 9 (!r.switchAgrees) 1000 false 0 r.deltaUs d
  if d.pkb.switchClosed then
    timedFault 10 (overLimit r d || overRange r d) (if overRange r d then 0 else 10000) false 0 r.deltaUs d
  else d

theorem switchFaults_eq (r : PackReading) (d : Dev) : switchFaults r d
    = if faultOn (switchTimed r d) 10 && !faultOn d 10 then openSwitch true (switchTimed r d)
      else if faultOn (switchTimed r d) 9 && !faultOn d 9 then openSwitch false (switchTimed r d)
      else switchTimed r d := rfl

section
variable {r : PackReading} {d : Dev}

/-- Bounds on the current see the descriptor and the offset. -/
theorem overLimit_of_reading {e : Dev} (h : e.reading.desc = d.pkb.desc ∧ e.reading.offset = d.est.offset) :
    overLimit r e = overLimit r d ∧ overRange r e = overRange r d := by
  obtain ⟨desc, offset⟩ := h
  have desc : e.pkb.desc = d.pkb.desc := desc
  have offset : e.est.offset = d.est.offset := offset
  simp [overLimit, overRange, disMax, desc, offset]

variable (ha : r.switchAgrees = true) (hl : overLimit r d = false) (hr : overRange r d = false)
include ha hl hr

/-- A switch that agrees and a current within its bounds raise no fault and open nothing. -/
theorem switchTimed_calm : (switchTimed r d).reading = d.reading
    ∧ (switchTimed r d).pkb.faultAct = d.pkb.faultAct := by
  have limit : overLimit r (faultTimed 9 false false r.deltaUs d) = false := hl
  have range : overRange r (faultTimed 9 false false r.deltaUs d) = false := hr
  unfold switchTimed
  rw [ha, Bool.not_true, timedFault_calm]
  dsimp only
  split
  · rw [limit, range, Bool.or_false, timedFault_calm]
    exact ⟨rfl, rfl⟩
  · exact ⟨rfl, rfl⟩

theorem reading_switchFaults : (switchFaults r d).reading = d.reading := by
  obtain ⟨reading, active⟩ := switchTimed_calm ha hl hr
  have same (n : Nat) : (faultOn (switchTimed r d) n && !faultOn d n) = false := by
    simp [faultOn, active]
  rw [switchFaults_eq, same, same]
  exact reading

end

/-! ### PACK_SAMPLE -/

/-- What a sample of a pack in service brings beside the faults that open the switch. -/
def sampleTaken (r : PackReading) (d : Dev) : Dev :=
  chgStep r (countCharger r (sampleUpdate d (sampleLearning (sampleFaults r (sampleMeasured r d)))))

theorem reading_sampleTaken (r : PackReading) (d : Dev) :
    (sampleTaken r d).reading = (sampleMeasured r d).reading := by
  rw [sampleTaken, reading_chgStep, reading_countCharger, reading_sampleUpdate, reading_sampleLearning,
    reading_sampleFaults]

theorem packSample_absent {d : Dev} (h : d.pins.packPresN = true) (r : PackReading) : packSample r d = d := by
  simp [packSample, h]

theorem packSample_inService {d : Dev} (hp : d.pins.packPresN = false) (hm : d.chp.mode.settled = true)
    (hb : d.pkb.bay = .inService) (hd : d.pkb.descOk = true) (r : PackReading) :
    packSample r d = switchFaults r (sampleTaken r d) := by
  have powered : d.chp.mode ≠ .dark := by
    intro dark
    rw [dark] at hm
    cases hm
  have read : (sampleMeasured r d).pkb.descOk = true := by
    rw [pkb_sampleMeasured]
    exact hd
  have sampled : packSample r d = if !(sampleMeasured r d).pkb.descOk then switchFaults r (sampleMeasured r d)
      else switchFaults r (sampleTaken r d) := if_neg (by simp [hp, powered, hb])
  rw [sampled, if_neg (by simp [read])]

/-- A command on power that changes nothing of the device. -/
theorem onPower_idle {f : Dev → Dev} {s : State} (h : f s.dev = s.dev) : onPower f s = .next s := by
  simp [onPower, h]

/-- What a sample of a tracked pack leaves measured. -/
theorem reading_packSample {r : PackReading} {d : Dev} (hp : d.pins.packPresN = false)
    (hm : d.chp.mode.settled = true) (hb : d.pkb.bay = .inService) (hs : d.pkb.switchClosed = true)
    (hv : d.est.valid = true) (hd : d.pkb.descOk = true) (ha : r.switchAgrees = true) (hl : overLimit r d = false)
    (hr : overRange r d = false) : (packSample r d).reading = (sampleMeasured r d).reading := by
  have taken := reading_sampleTaken r d
  obtain ⟨limit, range⟩ := overLimit_of_reading (r := r) (d := d) (e := sampleTaken r d)
    (by rw [taken, reading_sampleMeasured hs hv]; exact ⟨rfl, rfl⟩)
  rw [packSample_inService hp hm hb hd, reading_switchFaults ha (limit.trans hl) (range.trans hr), taken]

/-! ### The charger's timeout and the clearing of faults (R226, R228) -/

theorem chgTimeout_idle {d : Dev} (hc : d.pkb.chgPhase ≠ .current) (hv : d.pkb.chgPhase ≠ .voltage) :
    chgTimeout d = d := by
  simp [chgTimeout, hc, hv]

/-- A charge stopped. -/
def chgStopped (d : Dev) : Dev := { d with pkb := { d.pkb with chgPhase := .off, chgMa := 0 } }

theorem chgTimeout_charging {d : Dev} (h : d.pkb.chgPhase = .current ∨ d.pkb.chgPhase = .voltage) :
    ∃ e, chgTimeout d = energyChanged (raisePack 12 (chgStopped e)) := by
  rw [chgTimeout, if_neg (by simpa [or_iff_not_imp_left] using h)]
  exact ⟨_, rfl⟩

theorem chgTimeout_spec {d e : Dev} (h : d.pkb.chgPhase = .current ∨ d.pkb.chgPhase = .voltage)
    (he : e = chgTimeout d) : e.pkb.chgPhase = .off ∧ e.pkb.chgMa = 0 ∧ faultOn e 12 = true := by
  obtain ⟨a, stops⟩ := chgTimeout_charging h
  have pkb : e.pkb = (raisePack 12 (chgStopped a)).pkb := by rw [he, stops, pkb_energyChanged]
  have kept {α : Type} (f : Pkb → α) (hf : ∀ k, f k.faultless = f k) :
      f (raisePack 12 (chgStopped a)).pkb = f (chgStopped a).pkb :=
    Pkb.keep_of_faultless (faultless_raisePack 12 (chgStopped a)) f hf
  refine ⟨?_, ?_, (faultOn_of_pkb pkb 12).trans (faultOn_raisePack (by decide) _)⟩ <;> rw [pkb]
  · exact kept Pkb.chgPhase fun _ => rfl
  · exact kept Pkb.chgMa fun _ => rfl

/-- The recorded faults without those that a mask names. -/
def faultMasked (w : W32) (d : Dev) : Dev := { d with pkb := { d.pkb with fault := d.pkb.fault &&& ~~~w } }

/-- CHG_TIMEOUT no longer active, and the charge's time counted anew. -/
def timeoutCleared (d : Dev) : Dev := setAct 12 false { d with pkb := { d.pkb with chgUs := 0 } }

theorem faultClear_eq (w : W32) (d : Dev) : faultClear w d = if bit w 12 && faultOn d 12 then
    energyChanged (timeoutCleared (faultMasked w d)) else faultMasked w d := rfl

theorem faultClear_timeout {w : W32} {d : Dev} (hw : bit w 12 = true) (hf : faultOn d 12 = true) :
    (faultClear w d).pkb = (timeoutCleared (faultMasked w d)).pkb := by
  rw [faultClear_eq, if_pos (by simp [hw, hf]), pkb_energyChanged]

theorem faultClear_others {w : W32} {d : Dev} (h : bit w 12 = false ∨ faultOn d 12 = false) :
    faultClear w d = faultMasked w d := by
  rw [faultClear_eq, if_neg (by obtain h | h := h <;> simp [h])]

theorem faultClear_spec {w : W32} {d e : Dev} (he : e = faultClear w d) : e.pkb.fault = d.pkb.fault &&& ~~~w
    ∧ (bit w 12 = true → faultOn e 12 = false) ∧ (bit w 12 = false → e = { d with pkb := e.pkb }) := by
  by_cases h : bit w 12 = true ∧ faultOn d 12 = true
  · obtain ⟨hw, hf⟩ := h
    have pkb := faultClear_timeout hw hf
    rw [← he] at pkb
    refine ⟨by rw [pkb]; rfl, fun _ => ?_, fun hn => ?_⟩
    · rw [faultOn_of_pkb pkb, timeoutCleared, faultOn_setAct (by decide)]
    · rw [hw] at hn
      cases hn
  · have others : bit w 12 = false ∨ faultOn d 12 = false := by
      simpa [← Bool.not_eq_true, ← not_and_or] using h
    rw [he, faultClear_others others]
    refine ⟨rfl, fun hw => ?_, fun _ => rfl⟩
    rw [hw] at others
    exact others.resolve_left (by decide)

/-- Settles O49. -/
theorem packSamples : Obligations.PackSamples := by
  refine ⟨fun r s hp hm hb hs hv hd ha hl hr => ?_, fun r s hp => ?_, fun s h => ?_, fun s hc hv => ?_, fun w s => ?_⟩
  · obtain ⟨t, run, queue, ran⟩ := onPower_next (packSample r) s
    have read : t.dev.reading = (sampleMeasured r s.dev).reading :=
      ran ▸ reading_packSample hp hm hb hs hv hd ha hl hr
    rw [reading_sampleMeasured hs hv] at read
    exact ⟨t, run, queue, congrArg Reading.vPack read, congrArg Reading.cellUv read, congrArg Reading.ntc1 read,
      congrArg Reading.ntc2 read, congrArg Reading.soc read, congrArg Reading.thruPc read,
      congrArg Reading.restUs read, congrArg Reading.switchClosed read⟩
  · exact onPower_idle (packSample_absent hp r)
  · obtain ⟨t, run, only, ran⟩ := onDev_next chgTimeout s
    exact ⟨t, run, only, chgTimeout_spec h ran⟩
  · exact onDev_idle (chgTimeout_idle hc hv)
  · obtain ⟨t, run, only, ran⟩ := onDev_next (faultClear w) s
    exact ⟨t, run, only, faultClear_spec ran⟩

end Sys2Proof.Machine
end

section
/-!
PROOFS. Parameter sets (R201, R217, R239, Table 11.4; O51).
-/

namespace Sys2Proof.Machine

/-! ### A descriptor's end leaves what has been sent out -/

theorem Dev.Tells.of_eq {d e : Dev} (h : e.outbox = d.outbox) : d.Tells e := by
  rw [Dev.Tells, h]
  exact List.Subset.refl _

theorem tells_count (n k : Nat) (d : Dev) : d.Tells (count n k d) := .refl d

theorem tells_updFn (f : Nat) (g : FnSt → FnSt) (d : Dev) : d.Tells (updFn f g d) := .refl d

theorem tells_countFn (f k v : Nat) (d : Dev) : d.Tells (countFn f k v d) := by
  unfold countFn
  split
  · exact .refl d
  · exact tells_count ..

theorem tells_coalesce (f : Nat) (r : Ring) (d : Dev) : d.Tells (coalesce f r d).2 := by
  have message (f v : Nat) (e : Dev) : e.Tells (msixSend f v e) := by
    unfold msixSend
    dsimp only
    split
    · exact tells_updFn ..
    · exact tells_emit ..
  unfold coalesce
  split
  · exact message ..
  · exact .refl d

theorem tells_mrgWrite (r : Nat) (bytes : Bool → List Byte) (d : Dev) : d.Tells (mrgWrite r bytes d) :=
  (tells_emit ..).trans (tells_coalesce ..)

theorem tells_cplWrite (c : Cpl) (d : Dev) : d.Tells (cplWrite c d) := by
  unfold cplWrite
  split
  · exact tells_mrgWrite ..
  · exact (tells_emit ..).trans (tells_coalesce ..)

theorem tells_drainOrphans (n : Nat) (d : Dev) : d.Tells (drainOrphans n d) := by
  induction n generalizing d with
  | zero => exact .refl d
  | succ n ih =>
    unfold drainOrphans
    split
    · exact .refl d
    · next rest _ =>
      split
      · have taken : d.Tells { d with mrg := { d.mrg with orphans := rest } } := .of_eq rfl
        exact taken.trans ((tells_mrgWrite ..).trans ((tells_count ..).trans (ih _)))
      · exact .refl d

theorem tells_drainCpls (n f : Nat) (d : Dev) : d.Tells (drainCpls n f d) := by
  induction n generalizing d with
  | zero => exact .refl d
  | succ n ih =>
    unfold drainCpls
    split
    · exact .refl d
    · next c _ =>
      exact Dev.Tells.trans (tells_updFn f (fun s => { s with cqWait := s.cqWait.erase c }) d)
        ((tells_cplWrite ..).trans (ih _))

theorem tells_deliver (c : Cpl) (d : Dev) : d.Tells (deliver c d) := by
  unfold deliver
  split
  · exact .refl d
  split
  · exact Dev.Tells.trans (e := orphanCpl c d) (.of_eq rfl) (tells_drainOrphans ..)
  · exact (tells_updFn ..).trans (tells_drainCpls ..)

theorem tells_countStatus (c : Cpl) (d : Dev) : d.Tells (countStatus c d) := by
  have counts (b : Prop) [Decidable b] (k : Nat) (e : Dev) (h : d.Tells e) :
      d.Tells (if b then countFn c.fn k 1 d else e) := by
    split
    · exact tells_countFn ..
    · exact h
  unfold countStatus
  iterate 7 refine counts _ _ _ ?_
  exact .refl d

theorem tells_endWith (x : Desc) (st r b : Nat) (d : Dev) : d.Tells (endWith x st r b d) :=
  Dev.Tells.trans (e := discardReads x.handle (dropDesc x.handle d)) (.of_eq rfl)
    ((tells_countFn ..).trans ((tells_countStatus ..).trans (tells_deliver ..)))

/-! ### Answers beside a change -/

/-- An answer, and then the estimator written. -/
theorem Dev.Answers.withEst {d e : Dev} (h : d.Answers e) (g : Est → Est) :
    Dev.Answers { d with est := g d.est } { e with est := g e.est } :=
  ⟨congrArg (fun b : Dev => { b with est := g b.est }) h.bare, h.fns⟩

/-- An answer, and then the count of reads that timed out written. -/
theorem Dev.Answers.withTimeouts {d e : Dev} (h : d.Answers e) (g : Nat → Nat) :
    Dev.Answers { d with ept := { d.ept with timeouts := g d.ept.timeouts } }
      { e with ept := { e.ept with timeouts := g e.ept.timeouts } } :=
  ⟨congrArg (fun b : Dev => { b with ept := { b.ept with timeouts := g b.ept.timeouts } }) h.bare, h.fns⟩

/-! ### The reads of an admin command's buffer (R239, R240) -/

/-- The count of reads that timed out, after one more read. -/
def timeoutsAfter (timedOut : Bool) (n : Nat) : Nat := if timedOut then satAdd 32 n 1 else n

theorem answers_tagTimeout (t : Nat) (g : Tag) (d : Dev) : Dev.Answers
    { d with ept := { d.ept with timeouts := satAdd 32 d.ept.timeouts 1 } } (tagTimeout t g d) :=
  Dev.Answers.trans (b := { d with ept := { d.ept with
      timeouts := satAdd 32 d.ept.timeouts 1, tags := Tab.set d.ept.tags t { g with quarantined := true } } })
    ⟨rfl, fun _ => rfl⟩ ((reports_emit ..).trans (reports_trace ..)).answers

theorem hostFetch_waits {d : Dev} (h : freeTag d = none) (f host len : Nat) (timedOut : Bool) :
    hostFetch f host len timedOut d = none := by simp [hostFetch, h]

/-- With a tag free the reads are made, and one that times out is counted. -/
theorem hostFetch_reads {d : Dev} (h : freeTag d ≠ none) (f host len : Nat) (timedOut : Bool) :
    ∃ e, hostFetch f host len timedOut d = some e ∧ Dev.Answers
      { d with ept := { d.ept with timeouts := timeoutsAfter timedOut d.ept.timeouts } } e := by
  obtain ⟨t, tag⟩ := Option.ne_none_iff_exists'.mp h
  have reads : d.Reports ((pieces host len 0 (maxRead d f)).foldl (fun d g =>
      count 7 1 (count 8 g.2.1 (emit (.hostRead t f g.1 g.2.1 false) d))) d) :=
    reports_foldl (fun _ _ => (reports_emit ..).trans ((reports_count ..).trans (reports_count ..))) _ d
  simp only [hostFetch, tag]
  refine ⟨_, rfl, ?_⟩
  cases timedOut with
  | false => exact reads.answers
  | true => exact (reads.answers.withTimeouts (satAdd 32 · 1)).trans (answers_tagTimeout ..)

/-! ### PACK_PARAM_LOAD (R201) -/

/-- A set that has been read is checked, and becomes the shadow. -/
def setTaken (x : Desc) (bs : List Byte) (d : Dev) : Dev :=
  if d.pkb.desc = [] then endWith x stNotFound 0 0 d
  else if !setGood d bs then endWith x stLength 0 0 d
  else if bytesAt bs 0x008 8 ≠ packSerial d then endWith x stNotFound 0 0 d
  else endWith x stSuccess 0 2048 { d with est := { d.est with shadow := some bs } }

theorem setTaken_good {x : Desc} {bs : List Byte} {d : Dev} (hd : d.pkb.desc ≠ []) (hg : setGood d bs = true)
    (hs : bytesAt bs 0x008 8 = packSerial d) : setTaken x bs d
      = endWith x stSuccess 0 2048 { d with est := { d.est with shadow := some bs } } := by
  simp [setTaken, hd, hg, hs]

section
variable {h : Nat} {c d : Dev} {x : Desc}

theorem packParamLoad_begun (hb : begin h true 0x45 c = (some x, d)) (data : HostData) :
    packParamLoad h data c = readBuffer x 2048 data (setTaken x) d := by
  simp only [packParamLoad, hb]
  rfl

theorem packParamLoad_waits (hb : begin h true 0x45 c = (some x, d)) (ht : freeTag d = none) (data : HostData) :
    packParamLoad h data c = d := by
  rw [packParamLoad_begun hb, readBuffer, hostFetch_waits ht]

/-- A read that fails ends the load with its status. -/
theorem packParamLoad_unread (hb : begin h true 0x45 c = (some x, d)) (ht : freeTag d ≠ none) {data : HostData}
    (hd : data = .timeout ∨ data = .error) : ∃ st e, packParamLoad h data c = endWith x st 0 0 e ∧ Dev.Answers
      { d with ept := { d.ept with timeouts := timeoutsAfter (data = .timeout) d.ept.timeouts } } e := by
  obtain ⟨e, fetched, answers⟩ := hostFetch_reads ht 0 x.entry.haddr 2048 (data = .timeout)
  obtain ⟨st, failed⟩ : ∃ st, hostBytes data = .inl st := by
    obtain rfl | rfl := hd <;> exact ⟨_, rfl⟩
  refine ⟨st, e, ?_, answers⟩
  rw [packParamLoad_begun hb, readBuffer, fetched]
  dsimp only
  rw [failed]

/-- A set that passes its checks is the shadow. -/
theorem packParamLoad_good (hb : begin h true 0x45 c = (some x, d)) (ht : freeTag d ≠ none) {bs : List Byte}
    (hd : d.pkb.desc ≠ []) (hg : setGood d (bs.take 2048) = true)
    (hs : bytesAt (bs.take 2048) 0x008 8 = packSerial d) : ∃ e, d.Answers e ∧ packParamLoad h (.ok bs) c
      = endWith x stSuccess 0 2048 { e with est := { e.est with shadow := some (bs.take 2048) } } := by
  obtain ⟨e, fetched, answers⟩ := hostFetch_reads ht 0 x.entry.haddr 2048 (HostData.ok bs = .timeout)
  have answers : d.Answers e := answers
  have pkb := answers.pkb_eq
  have good : setGood e (bs.take 2048) = true :=
    (answers.keep (fun e => setGood e (bs.take 2048)) fun _ => rfl).trans hg
  have serial : packSerial e = packSerial d := answers.keep packSerial fun _ => rfl
  refine ⟨e, answers, ?_⟩
  rw [packParamLoad_begun hb, readBuffer, fetched]
  exact setTaken_good (by rwa [pkb]) good (hs.trans serial.symm)

/-! ### PACK_PARAM_COMMIT (R217) -/

theorem packParamCommit_waits (hb : begin h true 0x46 c = (some x, d)) (hw : d.spw.warn = false)
    (hs : d.est.shadow.isSome = true) (hl : d.est.learning = false) (hp : d.est.pending = 0) :
    packParamCommit h c = { d with est := { d.est with
      pending := h, paramSeq := (d.est.paramSeq + 1) % 256 } } := by
  have shadowed : d.est.shadow.isNone = false := by simpa [← Option.not_isSome] using hs
  simp [packParamCommit, hb, hw, shadowed, hl, hp]

/-- A commit under WARN or without a shadow ends at once, and no set changes. -/
theorem packParamCommit_ends (hb : begin h true 0x46 c = (some x, d))
    (hw : d.spw.warn = true ∨ d.est.shadow = none) : ∃ st e, packParamCommit h c = endWith x st 0 0 e
      ∧ e.est.pending = d.est.pending ∧ e.est.params = d.est.params := by
  simp only [packParamCommit, hb]
  split
  · exact ⟨_, _, rfl, rfl, rfl⟩
  next warn =>
  rw [if_pos (by simp [hw.resolve_left warn])]
  exact ⟨_, _, rfl, rfl, rfl⟩

/-! ### PACK_PARAM_READ (R217) -/

theorem packParamRead_begun (hb : begin h true 0x47 c = (some x, d)) (hd : d.pkb.desc ≠ []) :
    ∃ cells, packParamRead h c = endWith x stSuccess 0 2048
      (emit (.hostWrite 0 x.entry.haddr 2048 cells false) { d with est := { d.est with learnNew := false } }) := by
  simp only [packParamRead, hb, if_neg hd]
  exact ⟨_, rfl⟩

end

/-! ### The update that takes a commit (R217) -/

/-- The shadow replaces the set in force. -/
theorem takeShadow_takes {d : Dev} {bs : List Byte} (h : d.est.shadow = some bs) : (takeShadow d).est.params = some bs
    ∧ (takeShadow d).est.shadow = none ∧ (takeShadow d).est.pending = 0 ∧ (takeShadow d).est.outcome = 1 := by
  simp [takeShadow, h]

theorem estimatorUpdate_commits {d e : Dev} {bs : List Byte} (ht : tracking d = true) (hp : d.est.pending ≠ 0)
    (hs : d.est.shadow = some bs) (he : e = estimatorUpdate d) : e.est.params = some bs ∧ e.est.shadow = none
      ∧ e.est.pending = 0 ∧ e.est.outcome = 1 := by
  have taken {α : Type} (f : Est → α) (hf : ∀ e, f e.basis = f e) : f (estimate d).est = f d.est :=
    Est.keep_of_basis (basis_estimate d) f hf
  have pending : (estimate d).est.pending ≠ 0 := by rwa [taken Est.pending fun _ => rfl]
  have shadow : (estimate d).est.shadow = some bs := by rw [taken Est.shadow fun _ => rfl, hs]
  have basis : e.est.basis = (takeShadow (estimate d)).est.basis := by
    rw [he, estimatorUpdate_tracked ht, basis_updateTold, (answers_applyCommit pending).est_eq, basis_estimate]
  have kept {α : Type} (f : Est → α) (hf : ∀ e, f e.basis = f e) : f e.est = f (takeShadow (estimate d)).est :=
    Est.keep_of_basis basis f hf
  obtain ⟨params, empty, none, outcome⟩ := takeShadow_takes shadow
  exact ⟨(kept Est.params fun _ => rfl).trans params, (kept Est.shadow fun _ => rfl).trans empty,
    (kept Est.pending fun _ => rfl).trans none, (kept Est.outcome fun _ => rfl).trans outcome⟩

/-- Settles O51. -/
theorem parameterSets : Obligations.ParameterSets := by
  refine ⟨fun h bs s x d hb ht hd hg hs => ?_, fun h data s x d hb hd ht => ?_, fun h data s x d hb ht => ?_,
    fun h s x d hb hw hs hl hp => ?_, fun h s x d hb hw => ?_, fun s bs ht hp hs => ?_, fun h s x d hb hd => ?_⟩
  · obtain ⟨answers, rfl, -⟩ := begin_asks hb
    obtain ⟨t, run, only, ran⟩ := onDev_next (packParamLoad x.handle (.ok bs)) s
    obtain ⟨e, read, loaded⟩ := packParamLoad_good hb ht hd hg hs
    rw [loaded] at ran
    refine ⟨t, run, only, ran ▸ findDesc_endWith .., ?_⟩
    rw [ran]
    exact ((answers.trans read).withEst fun est => { est with shadow := some (bs.take 2048) }).trans
      (answers_endWith ..)
  · obtain ⟨answers, rfl, -⟩ := begin_asks hb
    obtain ⟨t, run, only, ran⟩ := onDev_next (packParamLoad x.handle data) s
    obtain ⟨st, e, unread, read⟩ := packParamLoad_unread hb ht hd
    rw [unread] at ran
    have ended : Dev.Answers { s.dev with ept := { s.dev.ept with
        timeouts := timeoutsAfter (data = .timeout) s.dev.ept.timeouts } } t.dev := by
      rw [ran]
      exact (answers.withTimeouts (timeoutsAfter (data = .timeout))).trans (read.trans (answers_endWith ..))
    have timeouts : t.dev.ept.timeouts = timeoutsAfter (data = .timeout) s.dev.ept.timeouts :=
      ended.keep (fun e => e.ept.timeouts) fun _ => rfl
    refine ⟨t, run, only, ran ▸ findDesc_endWith .., ?_, ?_⟩
    · rwa [timeouts]
    · simp only [timeouts, timeoutsAfter, decide_eq_true_eq]
  · exact congrArg (fun e => Host.Outcome.next { s with dev := e }) (packParamLoad_waits hb ht data)
  · obtain ⟨answers, rfl, -⟩ := begin_asks hb
    obtain ⟨t, run, only, ran⟩ := onDev_next (packParamCommit x.handle) s
    rw [packParamCommit_waits hb hw hs hl hp] at ran
    refine ⟨t, run, only, ?_⟩
    rw [ran]
    exact answers.withEst fun est => { est with pending := x.handle, paramSeq := (est.paramSeq + 1) % 256 }
  · obtain ⟨answers, rfl, -⟩ := begin_asks hb
    obtain ⟨t, run, only, ran⟩ := onDev_next (packParamCommit x.handle) s
    obtain ⟨st, e, ended, pending, params⟩ := packParamCommit_ends hb hw
    rw [ended] at ran
    have est : t.dev.est = e.est := ran ▸ (answers_endWith ..).est_eq
    refine ⟨t, run, only, ran ▸ findDesc_endWith .., ?_, ?_⟩
    · rw [est, pending, answers.est_eq]
    · rw [est, params, answers.est_eq]
  · obtain ⟨t, run, only, ran⟩ := onDev_next estimatorUpdate s
    exact ⟨t, run, only, estimatorUpdate_commits ht hp hs ran⟩
  · obtain ⟨answers, rfl, -⟩ := begin_asks hb
    obtain ⟨t, run, only, ran⟩ := onDev_next (packParamRead x.handle) s
    obtain ⟨cells, written⟩ := packParamRead_begun hb hd
    rw [written] at ran
    refine ⟨t, run, only, ran ▸ findDesc_endWith .., ?_, cells, ?_⟩ <;> rw [ran]
    · exact (answers.withEst fun est => { est with learnNew := false }).trans
        ((reports_emit ..).answers.trans (answers_endWith ..))
    · exact tells_endWith _ _ _ _ _ List.mem_cons_self

end Sys2Proof.Machine
end
